-- ==== Sys2Proof/Word.lean ====
section
/-! DEFINITION. The word types of the device and the plain data that commands carry. Every register is 32 bits wide (R7); a NoC unit is 128 bits (R328); a configuration frame is 4,096 bits (R499). -/

namespace Sys2Proof

abbrev Byte := BitVec 8
/-- A register (R7). -/
abbrev Word := BitVec 32
abbrev W64 := BitVec 64
/-- A NoC header or data unit, a stream word, a vector register. -/
abbrev W128 := BitVec 128
/-- A block memory row: 128 data and 16 check columns (R122). -/
abbrev Row := BitVec 144
/-- The data bits of a configuration frame. -/
abbrev Frame := BitVec 4096

/-- Sparse data by key: an unlisted key holds the table's default (see Machine/Ops.lean). -/
abbrev Tab (α : Type) := List (Nat × α)

/-- Island number, block memory within an island, slice within an island, engine, fabric lane, link (R20). -/
abbrev Isl := Fin 256
abbrev MemIx := Fin 96
abbrev SliceIx := Fin 48
abbrev EngIx := Fin 528
abbrev LaneIx := Fin 288
abbrev LinkIx := Fin 32
abbrev DramIx := Fin 8
abbrev FnIx := Fin 17
abbrev ChanIx := Fin 65536

/-- Who makes a register access: the source node, the initiating unit at that node (R13: tag bits [9:8] at an
island, the PCIe function at the host interface) and the tenant field the hardware stamped (R39). -/
structure Req where
  node : Nat
  unit : Nat
  tenant : Nat
deriving DecidableEq, Repr

/-- A NoC packet: the raw header unit (R328), its data units, and whether a unit arrived poisoned (R331). -/
structure Pkt where
  hdr : W128
  data : List W128
  poison : Bool
deriving DecidableEq, Repr

/-- Status codes (R336). -/
inductive Status where
  | ok | partly | malformed | denied | stale | unitTest | frozen | uncorrectable | noTarget
  | timeout | aborted | notErased | fieldLocked | badState | authFail
deriving DecidableEq, Repr

/-- Register classes (R11). -/
inductive RegClass where
  | pub | own | ten | prv
deriving DecidableEq, Repr

/-- A link flit as sent (R416, R418): byte k in bits [8k + 7 : 8k]; bytes 36 to 39 are the parity of FEC format and 0 in retry
format. -/
abbrev Flit := BitVec 320

/-- A crew message (R446): sending device, the issuer's command slot and command id, and its content as the type needs it: op, island
mask, the devices of the command, destination or image base and size limit, N (an argument, a count, a device with a node and an epoch), flags and status. Its bit
layout is not in the spec. -/
structure CrewMsg where
  src : Nat
  slot : Nat := 0
  id : Nat := 0
  op : Nat := 0
  mask : BitVec 256 := 0
  base : Nat := 0
  limit : Nat := 0
  n : W64 := 0
  stay : Bool := false
  replay : Bool := false
  /-- the devices of the command -/
  devs : List Nat := []
  st : Status := .ok
deriving DecidableEq, Repr

/-- An entry of a crew command's region table (R445), as read from memory: device, island mask, base and size limit. -/
structure CrewEnt where
  dev : Nat
  mask : BitVec 256 := 0
  base : Nat := 0
  limit : Nat := 0
deriving DecidableEq, Repr

/-- An input log record (R273). -/
structure LogRec where
  typ : Nat
  src : Nat
  seq : Nat
  stroke : Nat
  param : W128
  payload : List W128
deriving DecidableEq, Repr

/-- A log block as read back: its tag verified or not, its header and records (R274). -/
structure LogBlock where
  tagOk : Bool
  island : Nat
  device : Nat
  num : Nat
  recs : List LogRec
  covered : Nat
deriving DecidableEq, Repr

/-- An island's section of a catch image, opened: the parts of R265 (slice and memory records as R267 and R268 lay them out; XI
words by port; path-6 words by XO port; flip-flops by cluster; rows by memory × 512 + row; uncorrectable halves by memory × 1,024 +
row × 2 + half), its directory entry's hash and flag (R264), and whether its tag verifies. -/
structure ImgSection where
  island : Nat
  n : W64
  wireClock : Bool
  joined : Bool
  logOn : Bool
  use : BitVec 96
  ecc : BitVec 96
  logSeq : Nat
  xi : Tab (List W128)
  expect : Tab Nat
  pins : Tab W128
  ffs : Tab W64
  slices : Tab (BitVec 768)
  mems : Tab (BitVec 768)
  rows : Tab Row
  ue : List Nat
  hash : BitVec 384
  drained : Bool
  tagOk : Bool
deriving DecidableEq, Repr

/-- A catch image, opened: the header fields of R263, whether the header tag verifies, and its sections in directory order. -/
structure CatchImage where
  tenant : Nat
  device : Nat
  n : W64
  dtime : W64
  catchId : Nat
  complete : Bool
  stay : Bool
  stepping : Nat
  logSeq : Nat
  hdrOk : Bool
  sections : List ImgSection
deriving DecidableEq, Repr

/-- A tenant table entry (R49): what the Owner signed for one tenant number on this device. -/
structure TenEntry where
  version : Nat := 0
  keyHash : BitVec 384 := 0
  crew : W64 := 0
  islands : BitVec 256 := 0
  granules : BitVec 1024 := 0
  blocks : BitVec 256 := 0
  vfs : BitVec 16 := 0
  powerCap : BitVec 16 := 0
  /-- TL0's share in the low byte -/
  linkShare : BitVec 256 := 0
  nocRate : BitVec 16 := 0
  nocDepth : BitVec 16 := 0
  /-- D0's share in the low byte -/
  dramSlots : W64 := 0
  /-- the wrapper as signed, 576 bytes, byte 0 lowest -/
  signed : BitVec 4608 := 0
deriving DecidableEq, Repr

/-- What a mailbox command reads from outside the Cox: the image at its address (R551, R552), with the outcome of the Dyresar signature
and the version and epoch a Cox image carries, the entry address of engine images, and whether programmed fuses verify (R530). -/
structure CoxImage where
  words : List W128 := []
  sigOk : Bool := false
  version : Nat := 0
  epoch : Nat := 0
  entry : Word := 0
  fuseOk : Bool := true
deriving DecidableEq, Repr

/-- A register definition: offset, array count and stride, words of a wide value, consecutive words of a block,
class, and the masks of storing, write-1-to-clear, read-to-clear and write-only bits, and the reset value (R7 to R11). -/
structure RegDef where
  off : Nat
  cnt : Nat
  stride : Nat
  words : Nat
  blk : Nat
  cls : RegClass
  rw : Word
  w1c : Word
  rc : Word
  wo : Word
  rst : Word
deriving DecidableEq, Repr

/-- The kinds of node window (R22, R27). -/
inductive NodeKind where
  | isl | dram | link | hif | cox | cfg | dbgh | sig | log | pwr | sys | seal | scrub
deriving DecidableEq, Repr

/-- An event record on its way to the event log (R593): recording node and sub-unit, 16-bit code, severity, the four
parameters, the principal tag and DTIME at the event. -/
structure Ev where
  node : Nat
  sub : Nat
  code : Nat
  sev : Nat
  p0 : Word
  p1 : Word
  p2 : Word
  p3 : Word
  tag : Nat
  time : W64
deriving DecidableEq, Repr

/-- A stored event record with its seq (R597). -/
structure LogSlot where
  seq : Word
  ev : Ev
deriving DecidableEq, Repr

/-- What start-up meets (R489, R514, R515, R532, R551): the straps, the Cox image of the boot flash, whether it verifies, its version,
security epoch and patch, whether the battery memory verifies, the service firmware's images by role and its version word, the flash
directory's entries, and whether a copy of the log that was pending succeeds. -/
structure StartUp where
  mode : BitVec 3
  crew : BitVec 6
  imageOk : Bool := true
  version : BitVec 16 := 0
  epoch : Nat := 0
  patched : Bool := false
  batteryOk : Bool := true
  roles : List (Nat × Word × List W128) := []
  fw : Word := 0
  e0 : BitVec 512 := BitVec.allOnes 512
  e1 : BitVec 512 := BitVec.allOnes 512
  copyOk : Bool := true
deriving DecidableEq, Repr

/-- What a wire clock clocks (R119, R127): pair p of a cluster, a memory port, a slice. -/
inductive CkPin where
  | pair (clu : Fin 4800) (p : Fin 16)
  | mem (m : MemIx) (portB : Bool)
  | slice (a : SliceIx)
deriving DecidableEq, Repr

/-! ### Engine instructions (R287, R288, R291 to R296, R306) -/

/-- A general register number of an engine. -/
abbrev GReg := BitVec 5
/-- A vector register number. -/
abbrev VReg := BitVec 4

/-- An engine instruction by format, with its fields; Decode.lean gives the words. -/
inductive EngInstr where
  /-- opcode 0x00 -/
  | alu (fn : BitVec 4) (rd ra rb : GReg)
  /-- opcodes 0x01 to 0x07, 0x10 to 0x14, 0x18 to 0x1A and 0x2A -/
  | imm (op : BitVec 6) (rd ra : GReg) (imm : BitVec 16)
  /-- opcode 0x08: 0 SLLI, 1 SRLI, 2 SRAI -/
  | shi (k : BitVec 2) (rd ra : GReg) (sh : BitVec 5)
  /-- opcodes 0x20 to 0x25 -/
  | branch (k : BitVec 3) (ra rb : GReg) (off : BitVec 16)
  /-- opcodes 0x28 and 0x29 -/
  | jump (link : Bool) (off : BitVec 26)
  /-- opcode 0x2C -/
  | amo (add : Bool) (rd ra rb : GReg)
  /-- opcode 0x2E -/
  | send (rd ra : GReg) (vs : VReg) (nm1 : BitVec 3) (kind : BitVec 2)
  /-- opcode 0x30 -/
  | wait (rd : GReg) (mask : BitVec 8)
  /-- opcode 0x31: 0 SRD into r, 1 SWR, 2 SBS, 3 SBC from r -/
  | status (fn : BitVec 2) (r : GReg) (ix : BitVec 6)
  | fence
  | eret
  | brk
  /-- opcode 0x38 -/
  | vop (fn : BitVec 6) (vd va vb : VReg) (lw : BitVec 2) (imm : BitVec 6)
  /-- opcode 0x39 -/
  | vxfer (fn : BitVec 2) (v : VReg) (g : GReg) (lw : BitVec 2) (ix : BitVec 6)
  /-- opcode 0x3A -/
  | vmem (st : Bool) (v : VReg) (ra : GReg) (imm : BitVec 16)
  /-- opcode 0x3B -/
  | vport (fn : BitVec 2) (v p nm1 : BitVec 4) (rd : GReg) (set : Bool)
  /-- opcode 0x3C -/
  | vcrc (fn : BitVec 2) (v : VReg) (g : GReg)
deriving DecidableEq, Repr

end Sys2Proof
end

