-- ==== Sys2Proof/Syntax.lean ====
section
/-! DEFINITION. The commands of the block: one constructor per row of spec/opcode_table.json, in the table's order, each with
what the sender or the environment supplies. -/

namespace Sys2Proof

inductive Instr where
  /-- R9. A write to a register that has no row of its own stores, ignores or clears bits according to the access codes of its fields. -/
  | registerWrite (r : Req) (node : Fin 1024) (off : BitVec 16) (v : Word)
  /-- R9. A read of an RC field returns its value and then clears the field. -/
  | readClear (r : Req) (node : Fin 1024) (off : BitVec 16)
  /-- R13. A read of the low word of a wide value returns it and latches the higher words into the initiator's holding register. -/
  | lowWordRead (r : Req) (node : Fin 1024) (off : BitVec 16)
  /-- R13. A read of a higher word returns the latched word, or the live word with the block's TORN bit set when no low-word read preceded it. -/
  | highWordRead (r : Req) (node : Fin 1024) (off : BitVec 16)
  /-- R14. A write of a higher word of a wide value is held for that initiator and register until the low word is written. -/
  | highWordWrite (r : Req) (node : Fin 1024) (off : BitVec 16) (v : Word)
  /-- R14. A write of the low word commits all words in one clock, with unwritten higher words as 0, and clears that initiator's held words. -/
  | lowWordWrite (r : Req) (node : Fin 1024) (off : BitVec 16) (v : Word)
  /-- R35. A host read through BAR0 is forwarded as a NoC read and always completes at PCIe level, with 0 for DENIED and all ones for other errors. -/
  | hostBar0Read (f : FnIx) (tag : BitVec 10) (w : BitVec 25)
  /-- R456. A host write through BAR0 is forwarded as a NoC write with route 01 under the function's tenant; a non-OK status sets bar_error. -/
  | hostBar0Write (f : FnIx) (w : BitVec 25) (v : Word)
  /-- R456. When no response to a BAR0 read arrives within HIF_MMIO_TIMEOUT, the PCIe read completes with all ones and TIMEOUT is recorded. -/
  | mmioTimeout (tag : Fin 1024)
  /-- R457. A host read through BAR2 is translated to device DRAM and issued after every earlier BAR2 write of the function has been answered. -/
  | hostBar2Read (f : FnIx) (tag : BitVec 10) (off : BitVec 40) (len : Fin 4097)
  /-- R457. A host write through BAR2 is translated to device DRAM and issued as NoC writes with rr = 1 covering exactly the enabled bytes. -/
  | hostBar2Write (f : FnIx) (off : BitVec 40) (data : List (Option Byte))
  /-- R34. A write of HIF_CREW_SEL selects the device that later crew-window requests of that function reach. -/
  | hifCrewSelWrite (r : Req) (f : FnIx) (v : Word)
  /-- R463. A 32-bit write at offset 0 of a channel's BAR4 page stores sq_tail and cq_head and makes descriptors pending, or is ignored, denied or puts the channel in ERROR. -/
  | doorbell (f : FnIx) (c : ChanIx) (off : BitVec 12) (whole : Bool) (v : Word)
  /-- R85. A disturbance of one node of a configuration bit's node pair leaves the configured logic reading the stored value until scrub repairs it. -/
  | configNodeUpset (i : Isl) (f : Fin 4608) (b : BitVec 12) (planeB : Bool)
  /-- R86. A disturbance of one node of a user flip-flop is restored by its partner nodes within 1 ns without changing Q. -/
  | ffNodeUpset (i : Isl) (c : Fin 4800) (b : Fin 64)
  /-- R87. A single-event transient in a lookup table, carry or multiplexer output may reach a flip-flop only if present at a capture. -/
  | combinationalTransient (i : Isl) (c : Fin 4800) (b : Fin 64) (atCapture : Bool)
  /-- R212. Once the island may start stroke n and every enabled XI port holds its words, XI words are presented, pins sampled, free words taken and the settle count starts. -/
  | strokeBegin (i : Isl) (waited : Nat) (pins : List (Nat × BitVec 48))
  /-- R212. When S island clocks have been counted, XO ports, pin outputs and SR pins are sampled and the island waits for credit before sending its words. -/
  | settleDone (i : Isl) (xo : List (Nat × Nat × W128))
  /-- R235. With the settle monitor on, the island re-samples every XO port at S + 2 and on a difference records the mismatch and may feather the island. -/
  | settleMonitorSample (i : Isl) (xo : List (Nat × Nat × W128))
  /-- R212. Once every XO port has credit, the island issues the design-clock edges of stroke n, flip-flops, memory ports and slices act, pins change and the count becomes n + 1. -/
  | strokeCommit (i : Isl) (waited : Nat)
  /-- R274. An open input log block is closed and sealed when 65,536 strokes have passed without another close. -/
  | logBlockPeriodicClose (i : Isl)
  /-- R218. A stroke word arriving on a dedicated neighbour path is checked for tenant, epoch and tag and buffered and acknowledged, or discarded and counted. -/
  | neighbourWord (i src : Isl) (p : Fin 32) (tenant : Fin 16) (epoch : Byte) (tag : BitVec 16) (free : Bool) (w : W128)
  /-- R220. An acknowledgement or credit arriving at an XO port over a neighbour path reduces its undelivered or outstanding count. -/
  | neighbourAck (i : Isl) (p : Fin 32) (acked credits : Fin 81)
  /-- R234. When a wait at step 1 or step 4 reaches the stall threshold, stall is set, the lacking ports are recorded, source k = 1 raised and an event written. -/
  | stallDetect (i : Isl)
  /-- R237. A write of feather to STK_CTL sets the writer's own bound to the next stroke the island would start. -/
  | stkFeather (r : Req) (i : Isl)
  /-- R237. A write of resume to STK_CTL sets the writer's own bound to all ones. -/
  | stkResume (r : Req) (i : Isl)
  /-- R240. A write of start to STK_CTL by the island's principal moves a LOADED island to RUNNING at STK_COUNT and releases its engines. -/
  | stkStart (r : Req) (i : Isl)
  /-- R237. A write of STK_LIMIT takes effect at the next step 1, and a value at or below the count during a stroke feathers after it with overshoot. -/
  | stkLimitWrite (r : Req) (i : Isl) (v : Word)
  /-- R237. A write of STK_HOLD by the Owner takes effect at the next step 1, as STK_LIMIT does. -/
  | stkHoldWrite (r : Req) (i : Isl) (v : Word)
  /-- R238. When every island of a region command reports FEATHERED at N, or has set its bound, the command completes OK with N. -/
  | regionComplete
  /-- R335. A response packet arriving at its initiator completes the outstanding request with its tag, or is discarded as late. -/
  | rsp (p : Pkt) (lat : Nat)
  /-- R333. A read of length data units is checked at the target and answered with the data or a status. -/
  | rd (p : Pkt)
  /-- R333. A read of 1 byte is checked at the target and answered with one data unit. -/
  | rd1 (p : Pkt)
  /-- R333. A read of 2 bytes is checked at the target and answered with one data unit. -/
  | rd2 (p : Pkt)
  /-- R333. A read of 4 bytes, the 32-bit register read, is checked at the target and answered with one data unit. -/
  | rd4 (p : Pkt)
  /-- R333. A write of length data units is checked at the target and performed, answered if rr = 1. -/
  | wr (p : Pkt)
  /-- R333. A write of 1 byte is checked at the target and performed. -/
  | wr1 (p : Pkt)
  /-- R333. A write of 2 bytes is checked at the target and performed. -/
  | wr2 (p : Pkt)
  /-- R333. A write of 4 bytes, the 32-bit register write, is checked at the target and performed. -/
  | wr4 (p : Pkt)
  /-- R293. A 32-bit atomic swap request is performed indivisibly at the target and answered with the old word. -/
  | swap (p : Pkt)
  /-- R293. A 32-bit atomic fetch-and-add request is performed indivisibly at the target and answered with the old word. -/
  | fadd (p : Pkt)
  /-- R152. A ring push is accepted whole if the entries fit, adding them to pending, or refused BAD_STATE with push_refused set. -/
  | rpush (p : Pkt)
  /-- R152. When the ring side has written the last entry of an accepted push, the push is answered OK. -/
  | ringPushWritten (i : Isl) (m : MemIx)
  /-- R153. A ring pop is answered with up to n entries from the head of a ring from fabric. -/
  | rpop (p : Pkt)
  /-- R334. A NOTIFY is taken by the host interface to wake streams, or written into the mailbox of E0 or a system engine, or discarded elsewhere. -/
  | notify (p : Pkt)
  /-- R334. A STROKE packet carrying stroke or free-channel words is taken by the XI port it names, or forwarded by a link port, after the arrival checks. -/
  | stroke (p : Pkt)
  /-- R220. A SACK packet returns acknowledgements and credits to the XO port it names. -/
  | sack (p : Pkt)
  /-- R351. A configuration frame write from the configuration controller writes frames into an island. -/
  | frwr (p : Pkt) (f : Fin 4608) (bits : Frame)
  /-- R351. A frame read from the quarter's scrub unit reads an island's configuration frame planes. -/
  | frrd (p : Pkt) (f : Fin 4608)
  /-- R351. A frame repair from the quarter's scrub unit rewrites disturbed configuration nodes. -/
  | frfix (p : Pkt) (f : Fin 4608)
  /-- R351. A catch drain read from the quarter's seal unit reads shadow nodes or memory rows of an island. -/
  | catrd (p : Pkt)
  /-- R351. A restore write from the quarter's seal unit writes caught state into an island. -/
  | catwr (p : Pkt) (isRow : Bool) (k : Nat) (v : Row)
  /-- R40. An island zeroisation request from the Cox starts erasure of all state of the island. -/
  | zero (p : Pkt)
  /-- R61. When an island's zeroisation completes, it takes owner tag 0 and enters IDLE, its hash clears and the Cox writes its new epoch. -/
  | islandZeroised (i : Isl)
  /-- R337. A router takes a packet header, checks its crc and chooses an output by dimension order or adaptively. -/
  | packetRoute (r : Isl) (inPort : Fin 7) (cn ce cs : Fin 17) (p : Pkt)
  /-- R357. A request-class packet waiting for tokens is injected once its tenant's bucket holds a token, and the bucket is charged. -/
  | requestInject (k : Nat)
  /-- R340. A packet that has waited NOC_AGE cycles at one router is thereafter arbitrated there as priority 7 in its channel. -/
  | packetAged (k : Nat)
  /-- R344. When a non-posted request has no response within NOC_TIMEOUT, the initiator completes it TIMEOUT and frees its reservation. -/
  | nocTimeout (node tag : Fin 1024)
  /-- R344. A timed-out tag returns to use after a further 2 × NOC_TIMEOUT. -/
  | tagRelease (node tag : Fin 1024)
  /-- R356. At the end of each statistics window the counts move into the record registers in one cycle and counting restarts. -/
  | statWindowEnd (node : Fin 1024)
  /-- R347. A request presented on the fabric NoC port is taken and injected, held off by RQ_READY, or answered locally MALFORMED. -/
  | fabricPortRequest (i : Isl) (hdr : W128) (data : List W128)
  /-- R136. A corrected block memory half is written back through a port B steal unless a write to the half cancels it first. -/
  | eccWriteBack (i : Isl) (m : MemIx) (row : Fin 512) (half : Fin 2)
  /-- R139. Every patrol interval a block memory reads the next row through port B, reports its decode and writes back corrections. -/
  | memPatrolRead (i : Isl) (m : MemIx)
  /-- R143. A go with op read in MEM_DBG_CTL reads one row, corrected, into MEM_DBG_DATA and the check columns into MEM_DBG_XDATA. -/
  | memDbgRead (r : Req) (i : Isl) (m : MemIx) (row : Fin 512)
  /-- R143. A go with op write in MEM_DBG_CTL writes MEM_DBG_DATA and computed or raw check columns into one row. -/
  | memDbgWrite (r : Req) (i : Isl) (m : MemIx) (row : Fin 512) (raw : Bool)
  /-- R142. A debug access that finds no free port B cycle within 2^20 island clocks completes TIMEOUT without change. -/
  | memDbgTimeout (i : Isl) (m : MemIx)
  /-- R162. A write of clr_counts in MEM_STATUS clears MEM_ECC_COUNT. -/
  | memClrCounts (r : Req) (i : Isl) (m : MemIx)
  /-- R156. A write of flush in QCT_CTL discards every entry of the queue and zeroes pointers, level and pending, only while FEATHERED or IDLE. -/
  | qctFlush (r : Req) (i : Isl) (m : MemIx)
  /-- R184. A read of ARS_ACC is served in island clocks inserted at a stroke boundary and returns the accumulator between strokes. -/
  | arsAccRead (r : Req) (i : Isl) (a : SliceIx)
  /-- R184. A write of ARS_ACC is served at a stroke boundary in stroke mode, or only while FEATHERED or IDLE in joined mode. -/
  | arsAccWrite (r : Req) (i : Isl) (a : SliceIx) (v : Word)
  /-- R190. A write of ISL_CLK_REQ is stored and sets f_eff, clamped to f_close with clk_clamped set when higher. -/
  | islClkReqWrite (r : Req) (i : Isl) (v : Word)
  /-- R190. A write of ISL_CLK_LIMIT by the Owner stores the limit, at most f_grade, and recomputes f_eff. -/
  | islClkLimitWrite (r : Req) (i : Isl) (v : Word)
  /-- R191. A change of f_eff takes effect within t_FCHG of its cause, without short phases. -/
  | clockChangeDone (i : Isl)
  /-- R197. A sleep command stops the island's injection, opens edge switches and clears wire registers, or is emulated while attached. -/
  | sleep (r : Req) (i : Isl)
  /-- R197. Once outstanding requests have finished, the island clock and engines stop and the power domain is gated. -/
  | sleepGated (i : Isl)
  /-- R198. A wake command powers up a SLEEP island and returns it to IDLE or requests its reload from the configuration cache. -/
  | wake (r : Req) (i : Isl)
  /-- R198. When the cache reload completes the island ends LOADED at stroke 0, or is zeroised with AUTH_FAIL if the entry fails. -/
  | wakeReloadDone (i : Isl) (ok : Bool)
  /-- R194. A write of a DPLL setting outside the legal ranges is refused BAD_STATE, otherwise the DPLL relocks with its outputs held low. -/
  | dpllWrite (r : Req) (k : Fin 8) (which : Fin 3) (v : Word)
  /-- R194. When a DPLL regains lock its outputs run again and locked reads 1. -/
  | dpllLock (k : Fin 8)
  /-- R200. A quarter current above limit_q for 1 µs puts the overcurrent throttle in force for the quarter's islands and group clocks. -/
  | quarterOvercurrent (q : Fin 4)
  /-- R200. When the quarter current stays below 90 % of the limit for 1 ms, the overcurrent throttle is released. -/
  | overcurrentRelease (q : Fin 4)
  /-- R200. A sensor at or above throttle_c puts the thermal throttle in force for the four islands it serves. -/
  | thermalThrottle (n : Fin 64)
  /-- R200. When the sensor stays below throttle_c − 5 °C for 1 ms the thermal throttle is released. -/
  | thermalThrottleRelease (n : Fin 64)
  /-- R200. Any sensor at or above 110 °C stops every island and group clock and asserts THERMTRIP_N until power is removed. -/
  | thermalTrip
  /-- R201. Every 10 µs each island's current, power and energy, and each tenant's power sum, are updated. -/
  | powerSample (rails : List (Nat × Nat × Nat)) (temps currents : List (Nat × Nat))
  /-- R205. A standby_req write, or the physical function entering D3hot with auto_standby, starts Standby entry by feathering every running island. -/
  | standbyRequest (r : Option Req) (v : Word)
  /-- R205. Once drains, restores and requests are complete, DRAM self-refreshes, clocks stop, lanes idle and dev_state reads Standby. -/
  | standbyEntered
  /-- R205. Writing standby_req 0 or the physical function returning to D0 retrains lanes and resumes the islands that entry feathered. -/
  | standbyExit (r : Option Req) (v : Word)
  /-- R255. When every island of the region is quiet, each island copies its state into shadow nodes in one clock and a CATCH_MARK enters its log. -/
  | catchShadowCopy (k : Nat)
  /-- R254. When every island of the region has completed its shadow copy, the issuer's bound is restored and islands enter CATCHING unless stay_feathered. -/
  | catchResume (k : Nat)
  /-- R259. An island held before step 5 for lack of preserve entries continues once the seal unit has drained enough rows. -/
  | preserveHoldEnd (i : Isl) (waited : Nat)
  /-- R258. When every row of an island is drained and its preserve buffer is empty, the seal unit writes the final header and the island leaves CATCHING. -/
  | drainDone (i : Isl) (st : Status)
  /-- R270. When the seal unit has written every section, the islands take N, their channel words and credits and enter FEATHERED at N. -/
  | restoreDone (k : Nat)
  /-- R275. The response to a sealed log block write frees its staging buffer, or on error stops logging or holds the island per hold_on_error. -/
  | logBlockWriteDone (i : Isl) (st : Status)
  /-- R275. Every 100 µs during a log hold the seal unit retries the failed block write. -/
  | logRetry (i : Isl)
  /-- R272. A write of log_en = 1 starts input logging, refused BAD_STATE while CAT_LOG_SIZE is 0 or 1. -/
  | logEnable (r : Req) (i : Isl) (v : Word)
  /-- R272. A write of log_en = 0 closes, seals and writes the open block and then stops logging. -/
  | logDisable (r : Req) (i : Isl) (v : Word)
  /-- R279. A write of close in CAT_LOG_CTL closes and seals the current log block. -/
  | logClose (r : Req) (i : Isl) (v : Word)
  /-- R272. A write of CAT_LOG_TAIL frees log blocks, releasing an island held for log space. -/
  | logTailWrite (r : Req) (i : Isl) (v : Word)
  /-- R276. A log block read for replay is decrypted and checked, extends coverage for waiting strokes, or ends in log_error. -/
  | logBlockReadDone (i : Isl) (st : Status) (b : LogBlock)
  /-- R288. The engine adds two registers modulo 2^32. -/
  | add (e : EngIx) (rd ra rb : GReg)
  /-- R288. The engine subtracts two registers modulo 2^32. -/
  | sub (e : EngIx) (rd ra rb : GReg)
  /-- R288. The engine forms the bitwise AND of two registers. -/
  | and (e : EngIx) (rd ra rb : GReg)
  /-- R288. The engine forms the bitwise OR of two registers. -/
  | or (e : EngIx) (rd ra rb : GReg)
  /-- R288. The engine forms the bitwise XOR of two registers. -/
  | xor (e : EngIx) (rd ra rb : GReg)
  /-- R288. The engine shifts a register left by rb[4:0]. -/
  | sll (e : EngIx) (rd ra rb : GReg)
  /-- R288. The engine shifts a register right logically by rb[4:0]. -/
  | srl (e : EngIx) (rd ra rb : GReg)
  /-- R288. The engine shifts a register right arithmetically by rb[4:0]. -/
  | sra (e : EngIx) (rd ra rb : GReg)
  /-- R288. The engine sets rd to 1 when ra is less than rb signed. -/
  | slt (e : EngIx) (rd ra rb : GReg)
  /-- R288. The engine sets rd to 1 when ra is less than rb unsigned. -/
  | sltu (e : EngIx) (rd ra rb : GReg)
  /-- R288. The engine writes the low 32 bits of the product. -/
  | mul (e : EngIx) (rd ra rb : GReg)
  /-- R288. The engine writes the high 32 bits of the signed product. -/
  | mulh (e : EngIx) (rd ra rb : GReg)
  /-- R288. The engine writes the high 32 bits of the unsigned product. -/
  | mulhu (e : EngIx) (rd ra rb : GReg)
  /-- R288. The engine writes the unsigned quotient, all ones for a zero divisor. -/
  | divu (e : EngIx) (rd ra rb : GReg)
  /-- R288. The engine writes the unsigned remainder, ra for a zero divisor. -/
  | remu (e : EngIx) (rd ra rb : GReg)
  /-- R288. The engine adds a sign-extended immediate to a register. -/
  | addi (e : EngIx) (rd ra : GReg) (i : BitVec 16)
  /-- R288. The engine ANDs a register with a zero-extended immediate. -/
  | andi (e : EngIx) (rd ra : GReg) (i : BitVec 16)
  /-- R288. The engine ORs a register with a zero-extended immediate. -/
  | ori (e : EngIx) (rd ra : GReg) (i : BitVec 16)
  /-- R288. The engine XORs a register with a zero-extended immediate. -/
  | xori (e : EngIx) (rd ra : GReg) (i : BitVec 16)
  /-- R288. The engine compares a register with a sign-extended immediate, signed. -/
  | slti (e : EngIx) (rd ra : GReg) (i : BitVec 16)
  /-- R288. The engine compares a register with a sign-extended immediate, unsigned. -/
  | sltiu (e : EngIx) (rd ra : GReg) (i : BitVec 16)
  /-- R288. The engine loads an immediate into the upper 16 bits of rd. -/
  | lui (e : EngIx) (rd : GReg) (i : BitVec 16)
  /-- R288. The engine shifts a register left by an immediate amount. -/
  | slli (e : EngIx) (rd ra : GReg) (sh : BitVec 5)
  /-- R288. The engine shifts a register right logically by an immediate amount. -/
  | srli (e : EngIx) (rd ra : GReg) (sh : BitVec 5)
  /-- R288. The engine shifts a register right arithmetically by an immediate amount. -/
  | srai (e : EngIx) (rd ra : GReg) (sh : BitVec 5)
  /-- R288. The engine loads a word from SRAM, or through an aperture as a NoC read. -/
  | lw (e : EngIx) (rd ra : GReg) (i : BitVec 16)
  /-- R288. The engine loads a sign-extended halfword. -/
  | lh (e : EngIx) (rd ra : GReg) (i : BitVec 16)
  /-- R288. The engine loads a zero-extended halfword. -/
  | lhu (e : EngIx) (rd ra : GReg) (i : BitVec 16)
  /-- R288. The engine loads a sign-extended byte. -/
  | lb (e : EngIx) (rd ra : GReg) (i : BitVec 16)
  /-- R288. The engine loads a zero-extended byte. -/
  | lbu (e : EngIx) (rd ra : GReg) (i : BitVec 16)
  /-- R288. The engine stores a word at commit, to data SRAM or through an aperture. -/
  | sw (e : EngIx) (rs ra : GReg) (i : BitVec 16)
  /-- R288. The engine stores a halfword at commit. -/
  | sh (e : EngIx) (rs ra : GReg) (i : BitVec 16)
  /-- R288. The engine stores a byte at commit. -/
  | sb (e : EngIx) (rs ra : GReg) (i : BitVec 16)
  /-- R288. The engine branches when ra equals rb. -/
  | beq (e : EngIx) (ra rb : GReg) (off : BitVec 16)
  /-- R288. The engine branches when ra differs from rb. -/
  | bne (e : EngIx) (ra rb : GReg) (off : BitVec 16)
  /-- R288. The engine branches when ra is less than rb signed. -/
  | blt (e : EngIx) (ra rb : GReg) (off : BitVec 16)
  /-- R288. The engine branches when ra is at least rb signed. -/
  | bge (e : EngIx) (ra rb : GReg) (off : BitVec 16)
  /-- R288. The engine branches when ra is less than rb unsigned. -/
  | bltu (e : EngIx) (ra rb : GReg) (off : BitVec 16)
  /-- R288. The engine branches when ra is at least rb unsigned. -/
  | bgeu (e : EngIx) (ra rb : GReg) (off : BitVec 16)
  /-- R288. The engine jumps to a pc-relative target. -/
  | j (e : EngIx) (off : BitVec 26)
  /-- R288. The engine jumps and saves the return address in g31. -/
  | jal (e : EngIx) (off : BitVec 26)
  /-- R288. The engine jumps to a register plus offset and saves the return address in rd. -/
  | jalr (e : EngIx) (rd ra : GReg) (i : BitVec 16)
  /-- R293. The engine atomically swaps a word locally or through one NoC atomic and returns the old value. -/
  | amoSwap (e : EngIx) (rd ra rb : GReg)
  /-- R293. The engine atomically adds to a word locally or through one NoC atomic and returns the old value. -/
  | amoFadd (e : EngIx) (rd ra rb : GReg)
  /-- R292. SEND kind 0 posts a write of n vector registers to the NoC. -/
  | sendPosted (e : EngIx) (ra : GReg) (vs : VReg) (nm1 : BitVec 3)
  /-- R292. SEND kind 1 writes n vector registers with a response required and returns its status. -/
  | sendWrite (e : EngIx) (rd ra : GReg) (vs : VReg) (nm1 : BitVec 3)
  /-- R292. SEND kind 2 pushes n vector registers into a ring and returns the status. -/
  | sendPush (e : EngIx) (rd ra : GReg) (vs : VReg) (nm1 : BitVec 3)
  /-- R292. SEND kind 3 pops up to n ring entries into vector registers and returns status and count. -/
  | sendPop (e : EngIx) (rd ra : GReg) (vs : VReg) (nm1 : BitVec 3)
  /-- R294. WAIT completes at once if an enabled wake cause is present, otherwise stops fetching until one appears. -/
  | wait (e : EngIx) (rd : GReg) (mask : BitVec 8)
  /-- R294. When an enabled cause appears for a waiting engine, WAIT completes and rd and WAKE receive the causes. -/
  | waitWake (e : EngIx)
  /-- R295. The engine reads a status register, latching the high word of a 64-bit pair. -/
  | srd (e : EngIx) (rd : GReg) (ix : BitVec 6)
  /-- R295. The engine writes a status register. -/
  | swr (e : EngIx) (ra : GReg) (ix : BitVec 6)
  /-- R295. The engine sets bits of a status register. -/
  | sbs (e : EngIx) (ra : GReg) (ix : BitVec 6)
  /-- R295. The engine clears bits of a status register. -/
  | sbc (e : EngIx) (ra : GReg) (ix : BitVec 6)
  /-- R288. FENCE waits until the posted queue is empty and no non-posted request is outstanding. -/
  | fence (e : EngIx)
  /-- R288. A waiting FENCE commits once the posted queue is empty and no request is outstanding. -/
  | fenceDone (e : EngIx)
  /-- R288. The engine returns from its handler to EPC and clears in_handler. -/
  | eret (e : EngIx)
  /-- R288. BREAK raises exception 10. -/
  | brk (e : EngIx)
  /-- R296. The blade forms the lane-wise AND of two vectors. -/
  | vand (e : EngIx) (vd va vb : VReg) (lw : BitVec 2)
  /-- R296. The blade forms the lane-wise OR of two vectors. -/
  | vor (e : EngIx) (vd va vb : VReg) (lw : BitVec 2)
  /-- R296. The blade forms the lane-wise XOR of two vectors. -/
  | vxor (e : EngIx) (vd va vb : VReg) (lw : BitVec 2)
  /-- R296. The blade forms va AND NOT vb. -/
  | vandn (e : EngIx) (vd va vb : VReg) (lw : BitVec 2)
  /-- R296. The blade adds lanes modulo 2^w. -/
  | vadd (e : EngIx) (vd va vb : VReg) (lw : BitVec 2)
  /-- R296. The blade subtracts lanes modulo 2^w. -/
  | vsub (e : EngIx) (vd va vb : VReg) (lw : BitVec 2)
  /-- R296. The blade takes the signed lane minimum. -/
  | vmin (e : EngIx) (vd va vb : VReg) (lw : BitVec 2)
  /-- R296. The blade takes the unsigned lane minimum. -/
  | vminu (e : EngIx) (vd va vb : VReg) (lw : BitVec 2)
  /-- R296. The blade takes the signed lane maximum. -/
  | vmax (e : EngIx) (vd va vb : VReg) (lw : BitVec 2)
  /-- R296. The blade takes the unsigned lane maximum. -/
  | vmaxu (e : EngIx) (vd va vb : VReg) (lw : BitVec 2)
  /-- R296. The blade shifts lanes left by an immediate. -/
  | vsll (e : EngIx) (vd va : VReg) (lw : BitVec 2) (imm : BitVec 6)
  /-- R296. The blade shifts lanes right logically by an immediate. -/
  | vsrl (e : EngIx) (vd va : VReg) (lw : BitVec 2) (imm : BitVec 6)
  /-- R296. The blade shifts lanes right arithmetically by an immediate. -/
  | vsra (e : EngIx) (vd va : VReg) (lw : BitVec 2) (imm : BitVec 6)
  /-- R296. The blade sets lanes to all ones where va equals vb. -/
  | vceq (e : EngIx) (vd va vb : VReg) (lw : BitVec 2)
  /-- R296. The blade sets lanes to all ones where va is greater than vb signed. -/
  | vcgt (e : EngIx) (vd va vb : VReg) (lw : BitVec 2)
  /-- R296. The blade sets lanes to all ones where va is greater than vb unsigned. -/
  | vcgtu (e : EngIx) (vd va vb : VReg) (lw : BitVec 2)
  /-- R296. The blade selects bits of va or vb under the mask vd. -/
  | vsel (e : EngIx) (vd va vb : VReg) (lw : BitVec 2)
  /-- R296. The blade packs the low halves of the lanes of va and vb. -/
  | vpack (e : EngIx) (vd va vb : VReg) (lw : BitVec 2)
  /-- R296. The blade zero-extends the lower half of va's lanes to double width. -/
  | vunpkl (e : EngIx) (vd va : VReg) (lw : BitVec 2)
  /-- R296. The blade zero-extends the upper half of va's lanes to double width. -/
  | vunpkh (e : EngIx) (vd va : VReg) (lw : BitVec 2)
  /-- R296. The blade inserts the low bits of a general register into one lane. -/
  | vins (e : EngIx) (v : VReg) (g : GReg) (lw : BitVec 2) (ix : BitVec 6)
  /-- R296. The blade extracts one lane into a general register. -/
  | vext (e : EngIx) (v : VReg) (g : GReg) (lw : BitVec 2) (ix : BitVec 6)
  /-- R296. The blade gathers the top bit of each lane into a general register. -/
  | vmsk (e : EngIx) (v : VReg) (g : GReg) (lw : BitVec 2)
  /-- R296. The blade copies a general register's low bits into every lane. -/
  | vsplat (e : EngIx) (v : VReg) (g : GReg) (lw : BitVec 2)
  /-- R296. The blade loads 16 bytes from SRAM or through an aperture into a vector register. -/
  | vld (e : EngIx) (v : VReg) (ra : GReg) (i : BitVec 16)
  /-- R296. The blade stores a vector register as 16 bytes at commit. -/
  | vst (e : EngIx) (v : VReg) (ra : GReg) (i : BitVec 16)
  /-- R306. VPUT appends one staging entry of n words for ports p onwards, stalling at commit while the queue is full. -/
  | vput (e : EngIx) (v p nm1 : BitVec 4) (set : Bool)
  /-- R306. A VPUT stalled for staging space commits once an entry frees. -/
  | vputResume (e : EngIx)
  /-- R306. VGET takes the head word and its stroke from an up FIFO, or returns 0 if empty. -/
  | vget (e : EngIx) (v p : BitVec 4) (rd : GReg) (set : Bool)
  /-- R306. VPSTAT returns the up FIFO level, free staging entries and ownership of a port set. -/
  | vpstat (e : EngIx) (p : BitVec 4) (rd : GReg) (set : Bool)
  /-- R296. The blade initialises the CRC state from a general register. -/
  | vcrci (e : EngIx) (g : GReg)
  /-- R296. The blade updates the CRC-32C state over the 16 bytes of a vector. -/
  | vcrcu (e : EngIx) (v : VReg)
  /-- R296. The blade reads the CRC state into a general register. -/
  | vcrcr (e : EngIx) (g : GReg)
  /-- R285. The response to an engine's non-posted request arrives, sets NSTAT and lets the waiting instruction commit, or trap. -/
  | engineNocResponse (e : EngIx) (st : Status) (data : List W128)
  /-- R285. A store waiting for posted-queue space commits once the queue drains an entry. -/
  | postedQueueSpace (e : EngIx)
  /-- R303. An engine's TIMER reaches 0, stopping and providing WAIT cause 1. -/
  | timerExpiry (e : EngIx)
  /-- R314. The engine watchdog reaching its period stops the engine faulted, sets watchdog and raises source k = 1. -/
  | watchdogExpiry (e : EngIx)
  /-- R313. Once per µs each engine SRAM reads one word in an unused cycle, correcting or reporting errors. -/
  | engineSramPatrol (e : EngIx)
  /-- R312. A write of halt to SCL_CTL halts the engine at the next commit boundary. -/
  | sclHalt (r : Req) (e : EngIx)
  /-- R312. A write of resume to SCL_CTL leaves halt. -/
  | sclResume (r : Req) (e : EngIx)
  /-- R312. A write of step to SCL_CTL commits exactly one instruction and halts again. -/
  | sclStep (r : Req) (e : EngIx)
  /-- R321. A write of reset to SCL_CTL holds the engine in reset, clearing registers and keeping SRAMs. -/
  | sclReset (r : Req) (e : EngIx)
  /-- R321. A write of release to SCL_CTL releases the engine from reset at SCL_START. -/
  | sclRelease (r : Req) (e : EngIx)
  /-- R312. An access to SCL_MEM_DATA reads or writes the addressed SRAM word and advances SCL_MEM_ADDR, only while halted or in reset. -/
  | sclMemDataAccess (r : Req) (e : EngIx) (w : Option Word)
  /-- R320. A write of SCL_PORT_MAP moves port-set ownership, refused BAD_STATE if it moves a set away from a running engine. -/
  | sclPortMapWrite (r : Req) (i : Isl) (v : Word)
  /-- R318. After a system engine faults, the Cox resets and fences it, increments its epoch and reloads its role into a free spare. -/
  | engineSparing (e : Fin 16)
  /-- R369. A DRAM subchannel issues the next request allowed by ordering and timing, decoding, correcting and answering it. -/
  | dramIssue (n : DramIx) (x : Fin 2) (busy : List Nat)
  /-- R370. A DRAM request whose age exceeds DDR_AGE of its class becomes promoted. -/
  | requestPromotion (n : DramIx) (k : Nat)
  /-- R377. A command/address parity alert from the DRAM freezes the channel. -/
  | caParityAlert (n : DramIx)
  /-- R379. A write of init to DDR_CTL moves the channel from DOWN to TRAINING. -/
  | ddrInit (r : Req) (n : DramIx)
  /-- R379. A write of activate to DDR_CTL moves the channel from TRAINING to ACTIVE. -/
  | ddrActivate (r : Req) (n : DramIx)
  /-- R379. A write of train to DDR_CTL moves an out-of-service ACTIVE or FROZEN channel to TRAINING. -/
  | ddrTrain (r : Req) (n : DramIx)
  /-- R378. A write of resume to DDR_CTL discards kept entries and returns a FROZEN channel to ACTIVE. -/
  | ddrResume (r : Req) (n : DramIx)
  /-- R379. A write of shutdown to DDR_CTL moves the channel from TRAINING to DOWN. -/
  | ddrShutdown (r : Req) (n : DramIx)
  /-- R381. Training primitive 0 does nothing. -/
  | trnNop (r : Req) (n : DramIx) (v : Word)
  /-- R381. Training primitive MRW writes a DRAM mode register. -/
  | mrw (r : Req) (n : DramIx) (v : Word)
  /-- R381. Training primitive MRR reads a DRAM mode register per pin group. -/
  | mrr (r : Req) (n : DramIx) (v : Word) (res : W128)
  /-- R381. Training primitive MPC issues a DRAM MPC opcode. -/
  | mpc (r : Req) (n : DramIx) (v : Word)
  /-- R381. Training primitive WL_SAMPLE returns DQ feedback after one write-levelling pulse. -/
  | wlSample (r : Req) (n : DramIx) (v : Word) (res : W128)
  /-- R381. Training primitive RD_PATTERN reports which pins matched the read training pattern. -/
  | rdPattern (r : Req) (n : DramIx) (v : Word) (res : W128)
  /-- R381. Training primitive WR_RD_CMP writes and reads back DDR_TRN_PAT at a burst, refused in tenant granules. -/
  | wrRdCmp (r : Req) (n : DramIx) (v : Word) (res : W128)
  /-- R381. Training primitive CA_SAMPLE returns command/address feedback. -/
  | caSample (r : Req) (n : DramIx) (v : Word) (res : W128)
  /-- R381. Training primitive DLY_APPLY applies the delay store, at once in TRAINING or at the next refresh in ACTIVE. -/
  | dlyApply (r : Req) (n : DramIx) (v : Word)
  /-- R380. When the refresh interval expires the controller refreshes, issuing any ACTIVE-state training primitive inside it. -/
  | refresh (n : DramIx) (rank : Fin 2) (hot : Bool) (res : W128)
  /-- R376. The patrol reads the next burst in an idle slot, reporting and correcting it and adding uncorrectable bursts to the poison list. -/
  | dramPatrolRead (n : DramIx)
  /-- R371. A row held open expires after open_timeout and is closed. -/
  | pageOpenTimeout (n : DramIx) (bank : Nat)
  /-- R384. In partitioned mode each t_SLOT a subchannel serves its slot's tenant, lends it, or gives it to patrol, with a refresh frame every r frames. -/
  | partitionSlot (n : DramIx) (busy : List Nat)
  /-- R382. A go in DDR_ZF_CMD from the Cox starts zero-fill of a granule's part in the channel. -/
  | zeroFill (r : Req) (n : DramIx) (v : Word)
  /-- R382. When zero-fill of a granule completes, zf_done is set and signal k = 6 raised. -/
  | zfDone (n : DramIx)
  /-- R363. A commit through DDR_ISET_CTL checks the interleave sets and refuses BAD_STATE or starts distributing the new table. -/
  | isetCommit (r : Req)
  /-- R365. The commit completes once every node's address decoder holds the new table. -/
  | isetCommitDone
  /-- R393. A write of apply in LANE_PLL_CFG checks the settings and relocks the group PLL, idling its lanes. -/
  | pllApply (r : Req) (n : LinkIx) (v : Word)
  /-- R393. The group PLL reaching lock sets locked and lets its lanes leave electrical idle. -/
  | pllLock (n : LinkIx)
  /-- R412. Loss of a lane reference input unlocks both groups it serves, with pll_unlock and lol on every lane. -/
  | laneRefLoss (q r : Fin 4)
  /-- R399. A lane input below V_LOS for t_LOSA asserts los and sets los_set. -/
  | losAssert (g : LaneIx)
  /-- R399. A lane input above 1.25 × V_LOS for t_LOSD deasserts los and sets los_clear. -/
  | losDeassert (g : LaneIx)
  /-- R399. The phase tracker reaching its limit, no transitions, los or PLL unlock asserts lol and stops data delivery. -/
  | lolAssert (g : LaneIx)
  /-- R399. The tracker holding phase with transitions for t_CDR deasserts lol. -/
  | lolDeassert (g : LaneIx)
  /-- R400. After 64 consecutive matching bits the checker sets prbs_sync and begins counting. -/
  | prbsSync (g : LaneIx)
  /-- R400. After 16 mismatches in 64 bits the checker loses sync, sets prbs_loss and reseeds. -/
  | prbsLoss (g : LaneIx)
  /-- R401. Every 2^inj_k generated bits the generator inverts one bit and counts it. -/
  | injPeriodic (g : LaneIx)
  /-- R401. A write of inj_single inverts the next generated bit. -/
  | injSingle (r : Req) (g : LaneIx) (v : Word)
  /-- R400. A write of chk_clear zeroes the checker counts. -/
  | chkClear (r : Req) (g : LaneIx) (v : Word)
  /-- R409. A write of rx_slip moves the received word boundary one bit later. -/
  | rxSlip (r : Req) (g : LaneIx) (v : Word)
  /-- R396. A write of LANE_TX_COEF changes the three taps together at one symbol boundary, or is refused BAD_STATE. -/
  | txCoefWrite (r : Req) (g : LaneIx) (v : Word)
  /-- R404. A write of LANE_TEST_CTL sets generator, checker, injection and loopback subject to group state and principal. -/
  | testModeWrite (r : Req) (g : LaneIx) (v : Word)
  /-- R405. A write of the group mode sets it off, link or fabric, refused while the attached island is not IDLE or a channel is mapped. -/
  | laneModeWrite (r : Req) (n : LinkIx) (v : Word)
  /-- R422. A received flit is accepted if its CRC is good and its seq is expected, otherwise discarded with a nak on the first discard. -/
  | flitReceive (n : LinkIx) (f : Flit)
  /-- R422. A CTRL flit with nak makes the transmitter replay from the oldest unacknowledged flit. -/
  | nak (n : LinkIx) (f : Flit)
  /-- R429. A CTRL flit with swap_req makes the transmitter send the named active lane on the spare from its next flit boundary. -/
  | swapReq (n : LinkIx) (f : Flit)
  /-- R443. A CTRL flit with time_req is answered with time_rsp carrying its receive time. -/
  | timeReq (n : LinkIx) (f : Flit)
  /-- R443. A time_rsp gives the follower an offset sample, and after 16 exchanges it steps, slows or steers DTIME. -/
  | timeRsp (n : LinkIx) (f : Flit)
  /-- R424. The ack and credits carried in a CTRL flit free replay-buffer flits and restore transmit credit. -/
  | ackCredit (n : LinkIx) (f : Flit)
  /-- R424. At each flit slot the transmitter sends a replay, CTRL, STROKE or tunnel flit by the fixed order and credits. -/
  | flitTransmit (n : LinkIx)
  /-- R422. When no ack advances for t_RPL while flits are unacknowledged, the transmitter replays. -/
  | replayTimer (n : LinkIx)
  /-- R422. At least once every 100 ns a CTRL flit is sent. -/
  | ctrlTimer (n : LinkIx)
  /-- R425. A write of train to LNK_CTL starts link training. -/
  | linkTrain (r : Req) (n : LinkIx)
  /-- R450. A write of down to LNK_CTL takes the link out of service. -/
  | linkDown (r : Req) (n : LinkIx)
  /-- R450. A write of clear_stats to LNK_CTL clears the link counters. -/
  | clearStats (r : Req) (n : LinkIx)
  /-- R426. A received training frame confirms lane number, partner, coefficient requests and identity chunks. -/
  | trainingFrame (n : LinkIx) (j : Fin 9) (f : BitVec 288)
  /-- R425. Training ends with lanes mapped, identity checked, sequence and credits started and channels mapped, or FAILED or FENCED. -/
  | trainingDone (n : LinkIx) (locked : Bool) (badRx badTx ctle : List Nat)
  /-- R425. Every t_RETRAIN a FAILED link with auto_retrain retrains. -/
  | autoRetrain (n : LinkIx)
  /-- R429. Recovery training ends, returning the link to UP with replay, or to FAILED. -/
  | recoveryDone (n : LinkIx) (badRx badTx : List Nat)
  /-- R433. A received stroke packet is checked against the receive map and forwarded to its XI port, or discarded with map_error. -/
  | linkStrokeUnit (n : LinkIx)
  /-- R437. An ingress link port checks a tunnelled request's epochs and proxies it locally or onward, or answers NO_TARGET or STALE. -/
  | tunnelRequest (n : LinkIx) (h : Fin 7)
  /-- R437. A response on vc 2 is injected to the original src with its tag restored and frees the proxy record. -/
  | tunnelResponse (n : LinkIx)
  /-- R437. A proxy record whose NOC_TIMEOUT expires is freed and nothing is sent back. -/
  | proxyTimeout (n : LinkIx) (tag : Fin 1024)
  /-- R443. Every t_SYNC a follower sends time_req on its upstream link. -/
  | timeExchange (n : LinkIx)
  /-- R443. A write of CRW_DTIME_SET on the master sets DTIME forward, refused below the current value. -/
  | dtimeSet (r : Req) (v : Word)
  /-- R445. A go in a CRW slot with op feather runs a crew-wide region feather. -/
  | crwFeather (r : Req) (t : Fin 16) (tab : List CrewEnt)
  /-- R445. A go in a CRW slot with op resume runs a crew-wide region resume. -/
  | crwResume (r : Req) (t : Fin 16) (tab : List CrewEnt)
  /-- R445. A go in a CRW slot with op limit runs a crew-wide limit at N. -/
  | crwLimit (r : Req) (t : Fin 16) (tab : List CrewEnt)
  /-- R445. A go in a CRW slot with op step runs a crew-wide step by k. -/
  | crwStep (r : Req) (t : Fin 16) (tab : List CrewEnt)
  /-- R445. A go in a CRW slot with op catch runs a crew-wide catch. -/
  | crwCatch (r : Req) (t : Fin 16) (tab : List CrewEnt) (stay : Bool)
  /-- R445. A go in a CRW slot with op restore runs a crew-wide restore with replay and E. -/
  | crwRestore (r : Req) (t : Fin 16) (tab : List CrewEnt) (replay : Bool)
  /-- R445. A go in a CRW slot with op evict runs a crew-wide eviction. -/
  | crwEvict (r : Req) (t : Fin 16) (tab : List CrewEnt)
  /-- R441. A go in the Owner's CRW slot with op set device epoch writes a new epoch for a device ID crew-wide. -/
  | crwSetEpoch (r : Req) (t : Fin 16)
  /-- R446. A COLLECT message makes a device set the issuer's bound, feather its region and report its highest count. -/
  | collect (r : Req) (m : CrewMsg)
  /-- R446. A COUNT message gives the issuer a device's highest count for deciding N. -/
  | countMsg (r : Req) (m : CrewMsg)
  /-- R446. A SET message gives each device the decided N. -/
  | setMsg (r : Req) (m : CrewMsg)
  /-- R446. An AT_N message reports that a device's islands are FEATHERED at N and quiet. -/
  | atN (r : Req) (m : CrewMsg)
  /-- R446. A COPY message makes a device perform the shadow copy. -/
  | copyMsg (r : Req) (m : CrewMsg)
  /-- R446. A COPIED message reports a device's shadow copy done. -/
  | copied (r : Req) (m : CrewMsg)
  /-- R446. A RELEASE message makes a device restore the issuer's bound and resume its islands. -/
  | msgRelease (r : Req) (m : CrewMsg)
  /-- R446. A DONE message reports a device's drain, restore or eviction complete with status. -/
  | doneMsg (r : Req) (m : CrewMsg)
  /-- R446. A RESTORE message makes a device restore its part of the region. -/
  | msgRestore (r : Req) (m : CrewMsg) (img : CatchImage)
  /-- R446. An EVICT message makes a device evict its part of the region. -/
  | msgEvict (r : Req) (m : CrewMsg)
  /-- R441. A SET_EPOCH message makes a device's Cox write a new epoch for a device ID and retrain links to it. -/
  | msgSetEpoch (r : Req) (m : CrewMsg)
  /-- R442. An EPOCH message updates the crew epoch table for a link port node and retrains links to it. -/
  | epoch (r : Req) (m : CrewMsg)
  /-- R446. An ACK message acknowledges a RESTORE, EVICT, SET_EPOCH or EPOCH message. -/
  | ack (r : Req) (m : CrewMsg)
  /-- R447. A device that does not answer a phase within CRW_CMD_TIMEOUT leaves the command with bit 0 in the result. -/
  | crewPhaseTimeout (t : Fin 16) (part : Option (Fin 64 × BitVec 16))
  /-- R462. A write of enable to HIF_CH_CTL checks the channel and makes it ACTIVE with pointers zeroed. -/
  | hifChEnable (r : Req) (f : FnIx)
  /-- R462. A write of disable stops fetching and lets fetched descriptors complete before DISABLED. -/
  | hifChDisable (r : Req) (f : FnIx)
  /-- R462. A write of reset makes the channel DISABLED at once, abandoning fetched descriptors. -/
  | hifChReset (r : Req) (f : FnIx)
  /-- R464. The host interface reads up to 8 pending descriptors of an ACTIVE channel in ring order. -/
  | descriptorFetch (c : ChanIx)
  /-- R477. When a descriptor finishes, its completion entry is written in ring order once the ring has room and counted on its vector. -/
  | descriptorComplete (c : ChanIx) (failed : Bool)
  /-- R466. A NOP descriptor completes with no action. -/
  | nopDesc (c : ChanIx) (idx : BitVec 16)
  /-- R469. A COPY_H2D descriptor copies host memory into device DRAM in 2 KiB parts. -/
  | copyH2d (c : ChanIx) (idx : BitVec 16)
  /-- R469. A COPY_D2H descriptor copies device DRAM into host memory in 2 KiB parts. -/
  | copyD2h (c : ChanIx) (idx : BitVec 16)
  /-- R471. A STREAM_IN descriptor pushes host data into a ring to fabric paced by its free-space estimate. -/
  | streamIn (c : ChanIx) (idx : BitVec 16)
  /-- R471. A STREAM_OUT descriptor pops entries from a ring from fabric into host memory. -/
  | streamOut (c : ChanIx) (idx : BitVec 16)
  /-- R466. A CFG_LOAD descriptor feeds a full configuration stream from host memory to the configuration controller. -/
  | cfgLoad (c : ChanIx)
  /-- R510. A PR_LOAD descriptor feeds a partial-reconfiguration stream to the configuration controller. -/
  | prLoad (c : ChanIx)
  /-- R238. A STROKE descriptor with sub-op 1 runs a region feather. -/
  | strokeFeather (c : ChanIx) (st : Status) (tab : List CrewEnt)
  /-- R238. A STROKE descriptor with sub-op 2 runs a region resume. -/
  | strokeResume (c : ChanIx) (st : Status) (tab : List CrewEnt)
  /-- R238. A STROKE descriptor with sub-op 3 runs a region limit at N. -/
  | strokeLimit (c : ChanIx) (st : Status) (tab : List CrewEnt)
  /-- R238. A STROKE descriptor with sub-op 4 runs a region step by k. -/
  | strokeStep (c : ChanIx) (st : Status) (tab : List CrewEnt)
  /-- R240. A STROKE descriptor with sub-op 5 starts every LOADED island of a one-device region, or refuses them all. -/
  | strokeStart (c : ChanIx) (st : Status) (tab : List CrewEnt)
  /-- R252. A CATCH descriptor checks the region and starts a catch, feathering the region at one stroke N. -/
  | catchDesc (c : ChanIx) (st : Status) (tab : List CrewEnt)
  /-- R269. A RESTORE descriptor checks an image in order and starts writing it onto target islands. -/
  | restoreDesc (c : ChanIx) (st : Status) (tab : List CrewEnt) (img : CatchImage) (map : List Byte)
  /-- R61. An EVICT descriptor starts eviction of a tenant's resources, marking its islands EVICTING and revoking its grants. -/
  | evictDesc (c : ChanIx) (tab : List CrewEnt)
  /-- R61. Once the feathered evicted islands' outstanding requests have finished, epochs are incremented and zeroisation, VF reset, unmapping and zero-fill begin. -/
  | evictionQuiet (t : Fin 16)
  /-- R474. A REG_BATCH descriptor runs a list of register reads and writes in order and writes back values and statuses. -/
  | regBatch (c : ChanIx) (st : Status) (ents : List (BitVec 64 × Word × Byte))
  /-- R475. A LOG_READ descriptor copies held event log records from a sequence number onwards to host memory, filtered. -/
  | logRead (c : ChanIx)
  /-- R458. A write of HIF_HWIN_FN assigns a host window to a function and clears its base, refused while requests use it. -/
  | hwinFnWrite (r : Req) (w : Fin 256) (v : Word)
  /-- R460. A write of HIF_BLK_MAP gives channel blocks to functions, refused where it breaks tenant masks or moves enabled channels. -/
  | blkMapWrite (r : Req) (j : Fin 64) (v : Word)
  /-- R480. A write of HIF_FN_VEC gives a function its MSI-X vector range, refused while MSI-X is enabled or ranges overlap. -/
  | fnVecWrite (r : Req) (f : FnIx) (v : Word)
  /-- R459. A host-memory request without host credit or completion within HIF_HOST_TIMEOUT is answered ABORTED. -/
  | hostTimeout (tag : Nat)
  /-- R471. Every HIF_POLL a waiting stream re-reads QCT_SNAP_W0 to refresh its estimate. -/
  | streamPoll (c : ChanIx) (idx : BitVec 16)
  /-- R476. When HIF_CH_TIMEOUT expires, a waiting control command or stream completes TIMEOUT or PARTIAL. -/
  | channelTimeout (c : ChanIx) (idx : BitVec 16)
  /-- R481. A vector's moderation timer expiring fires the vector. -/
  | moderationTimer (v : Fin 2048)
  /-- R482. A pending vector is sent as its MSI-X message and cleared once the function is in D0 with it unmasked. -/
  | msixDeliver (v : Fin 2048)
  /-- R483. A function leaving D0 or clearing Bus Master Enable pauses its channels, and their return resumes them. -/
  | functionPowerChange (f : FnIx) (d3 bme msix fmask pme vf : Bool)
  /-- R484. Conventional reset through PERST_N resets the host interface's functions, channels and windows only. -/
  | perst
  /-- R484. A PCIe hot reset resets the host interface as a conventional reset does. -/
  | hotReset
  /-- R484. A Function Level Reset resets one function's state, channels and windows. -/
  | flr (f : FnIx)
  /-- R484. Clearing VF Enable acts as a Function Level Reset of every virtual function. -/
  | vfEnableClear
  /-- R609. The host PCIe link going down sets link_down and delays channel inputs. -/
  | hostLinkDown
  /-- R498. The stream header is checked for format, stepping and length type. -/
  | streamHeader (hdr : W128) (body : List W128)
  /-- R493. A manifest's key and signature are checked by the Cox and its hashes armed for the sections it covers. -/
  | manifest (hdr : W128) (body : List W128) (sigOk : Bool)
  /-- R497. A tenant container is checked for a loaded key and accepted entry and opens that tenant's sections. -/
  | tenantContainer (hdr : W128) (body : List W128)
  /-- R496. An encrypted section is decrypted by the Cox into child sections and its tag checked at its end. -/
  | encrypted (hdr : W128) (body : List W128) (tagOk : Bool)
  /-- R499. A FRAME_WRITE section writes frames into an island with their check codes. -/
  | frameWrite (hdr : W128) (body : List W128)
  /-- R501. A MEMORY_INIT section writes block memory rows or engine SRAM lines. -/
  | memoryInit (hdr : W128) (body : List W128)
  /-- R502. An ISLAND_SETUP section sets an island's mode, clocks, channels, engines and preload words. -/
  | islandSetup (hdr : W128) (body : List W128)
  /-- R503. A LINK_SETUP section loads the device ID, routes and crew epoch table, or a link's channel map. -/
  | linkSetup (hdr : W128) (body : List W128)
  /-- R504. A START section names the islands to run at stroke 0 when the load completes. -/
  | start (hdr : W128) (body : List W128)
  /-- R506. The trailer's CRC-32C is checked, and on a match the written islands become LOADED and the named ones RUNNING. -/
  | crcTrailer (hdr : W128) (body : List W128)
  /-- R523. A write of abort to CFG_CTL aborts the load in progress. -/
  | cfgAbortCmd (r : Req)
  /-- R523. A write of re-run to CFG_CTL runs the boot load again from the MODE source. -/
  | bootRerun (r : Req) (e0 e1 : BitVec 512)
  /-- R512. A write of CFG_CACHE_CFG sets the cache granule and invalidates every cache entry. -/
  | cacheCfgWrite (r : Req) (v : Word)
  /-- R516. The READ flash command reads bytes into CFG_FLASH_BUF. -/
  | flashRead (r : Req) (n : Byte)
  /-- R516. The PROGRAM flash command programs a page, or completes NOT_ERASED if a bit would go from 0 to 1. -/
  | flashProgram (r : Req) (n : Byte)
  /-- R516. The ERASE4K flash command erases a 4 KiB sector. -/
  | erase4k (r : Req)
  /-- R516. The ERASE64K flash command erases a 64 KiB block. -/
  | erase64k (r : Req)
  /-- R516. The READ_ID flash command reads the flash identities into CFG_FLASH_ID. -/
  | readId (r : Req)
  /-- R516. A flash command completes, setting done, status and flash_done or flash_error. -/
  | flashCmdDone (err : Bool) (data : List Byte)
  /-- R519. Each frame slot the scrub unit reads both planes and reference codes of a frame and repairs, corrects or reports it. -/
  | scrubFrame (q : Fin 4)
  /-- R534. The IDENTITY mailbox command returns the identity block. -/
  | identity (r : Req) (m : Fin 17)
  /-- R543. The TENANT_ENTRY mailbox command verifies a signed entry and applies the tenant's allocation in order. -/
  | tenantEntry (r : Req) (m : Fin 17)
  /-- R544. The TENANT_KEY mailbox command unwraps a tenant root key, derives its keys and loads its sealing key. -/
  | tenantKey (r : Req) (m : Fin 17)
  /-- R545. The OWNER_KEY mailbox command unwraps and stores the battery Owner key. -/
  | ownerKey (r : Req) (m : Fin 17)
  /-- R546. The GRANT mailbox command verifies a debug grant and enters it in the grant table. -/
  | grant (r : Req) (m : Fin 17)
  /-- R547. SESSION fn 0 names a grant and path and returns a single-use nonce. -/
  | sessionOpen (r : Req) (m : Fin 17)
  /-- R547. SESSION fn 1 verifies the debugger's signature over the nonce and opens the session on the path. -/
  | sessionResponse (r : Req) (m : Fin 17)
  /-- R548. The REVOKE mailbox command ends a grant and closes its session. -/
  | revoke (r : Req) (m : Fin 17)
  /-- R549. The ATTEST mailbox command builds and signs an attestation report for the requesting principal. -/
  | attest (r : Req) (m : Fin 17)
  /-- R551. The COX_FW mailbox command verifies a Cox image and writes it to boot flash for the next reset. -/
  | coxFw (r : Req) (m : Fin 17) (x : CoxImage)
  /-- R552. The SYS_FW mailbox command checks a service firmware image and reloads the named roles' engines. -/
  | sysFw (r : Req) (m : Fin 17) (x : CoxImage)
  /-- R530. The FUSE_PROG mailbox command programs a fuse field by its policy, or completes FIELD_LOCKED. -/
  | fuseProg (r : Req) (m : Fin 17) (ok : Bool)
  /-- R554. ZEROISE fn 1 erases Cox key memory, grants and seal-unit keys. -/
  | zeroiseK (r : Req) (m : Fin 17)
  /-- R554. ZEROISE fn 2 erases scope K and all battery memory except counters. -/
  | zeroiseB (r : Req) (m : Fin 17)
  /-- R554. ZEROISE fn 3 erases scope B, zeroises every island, zero-fills every granule and invalidates the cache. -/
  | zeroiseD (r : Req) (m : Fin 17)
  /-- R319. The READMIT mailbox command gives a fenced unit a new epoch and returns a system engine as a spare. -/
  | readmit (r : Req) (m : Fin 17)
  /-- R533. The BB_INIT mailbox command reinitialises lost battery memory with new counters. -/
  | bbInit (r : Req) (m : Fin 17)
  /-- R526. A mismatch between the Cox cores stops both, clears key memory and enters HALTED. -/
  | lockstepMismatch
  /-- R553. A voltage, clock or temperature glitch sensor zeroises scope K or D and enters TAMPER. -/
  | tamper (k : Fin 3)
  /-- R548. A grant's lifetime expiring ends it and closes its session. -/
  | grantExpiry (g : Fin 32)
  /-- R547. A session nonce expires 1 s after issue. -/
  | nonceExpiry (g : Fin 32)
  /-- R533. The battery supply falling below V_BBLOW records a low-voltage event found at power-on. -/
  | vbattLow
  /-- R614. A write of mark in COX_SVC_CTL takes the selected unit out of service if its condition holds. -/
  | svcMark (r : Req)
  /-- R616. A write of unmark returns the selected unit to service if its condition holds. -/
  | svcUnmark (r : Req)
  /-- R617. A write of test runs the exclusive test of an out-of-service unit. -/
  | svcTest (r : Req)
  /-- R617. An exclusive test completes, recording its result and an event. -/
  | svcTestDone (pass : Bool) (info : BitVec 23)
  /-- R560. A TAP reset selects IDCODE. -/
  | tapReset
  /-- R560. The EXTEST instruction disconnects the core from the pins and drives them from boundary scan. -/
  | extest (cells : List (Nat × BitVec 48 × BitVec 48))
  /-- R560. The SAMPLE/PRELOAD instruction samples or preloads the boundary-scan register. -/
  | samplePreload (cells : List (Nat × BitVec 48 × BitVec 48))
  /-- R561. The IDCODE instruction selects the 32-bit identification register. -/
  | idcode
  /-- R560. The CLAMP instruction holds the pins from boundary scan with bypass selected. -/
  | clamp
  /-- R560. The HIGHZ instruction puts the outputs in high impedance with bypass selected. -/
  | highz
  /-- R403. The IEEE 1149.6 EXTEST_PULSE instruction tests AC-coupled lanes, suspending their function. -/
  | extestPulse (cells : List (Nat × BitVec 48 × BitVec 48))
  /-- R403. The IEEE 1149.6 EXTEST_TRAIN instruction tests AC-coupled lanes, suspending their function. -/
  | extestTrain (cells : List (Nat × BitVec 48 × BitVec 48))
  /-- R562. The COX_MBX instruction selects the access register reaching mailbox slot 16. -/
  | coxMbx
  /-- R562. The DBG_ACCESS instruction selects the access register reaching the JTAG access port. -/
  | dbgAccess
  /-- R563. The CFG_STREAM instruction passes one 128-bit stream word per Update-DR to the configuration controller, or discards it. -/
  | cfgStream (w : W128) (ok : Bool)
  /-- R560. BYPASS and every unlisted opcode select the bypass register. -/
  | bypass
  /-- R562. Update-DR of the 64-bit access register starts a read or write in its target area unless busy. -/
  | jtagUpdateDr (v : W64)
  /-- R566. A go in DBG_AP_CTL checks the target against the session's grant and issues one NoC request as its principal. -/
  | apGo (r : Req) (k : Fin 18) (c : BitVec 3)
  /-- R567. A write of DBG_FF_SEL starts a read of the selected cluster's 64 flip-flops. -/
  | ffRead (r : Req) (i : Isl) (v : Word)
  /-- R567. A committed write of DBG_FF_DATA starts a write of the selected cluster's flip-flops. -/
  | ffWrite (r : Req) (i : Isl) (v : Word)
  /-- R567. A write of DBG_FRAME_SEL starts a read-back of one configuration frame word. -/
  | frameReadback (r : Req) (i : Isl) (v : Word)
  /-- R568. A pending state access is served in island clocks inserted at the next boundary, clearing busy with its status. -/
  | stateAccessServed (i : Isl)
  /-- R578. A write of arm to DBG_TRG_CTL arms the trigger, clears hit and reloads the match count. -/
  | triggerArm (r : Req) (i : Isl)
  /-- R578. A write of disarm to DBG_TRG_CTL disarms the trigger. -/
  | triggerDisarm (r : Req) (i : Isl)
  /-- R574. A write of halt to DBG_HALT_CTL begins the principal's debug halt with its freezes and cross actions. -/
  | debugHalt (r : Req) (t : Fin 16)
  /-- R574. A write of resume to DBG_HALT_CTL lifts the freezes, resumes halted engines and resumes feathered islands. -/
  | debugResume (r : Req) (t : Fin 16)
  /-- R586. An asserted enabled source becomes pending for the next enabled member of its group or its directed target. -/
  | signalDeliver (k : Fin 4095)
  /-- R586. A pending source that deasserts, is disabled or loses its target returns to idle. -/
  | signalWithdraw (k : Fin 4095)
  /-- R590. A write to SIG_CLAIM takes a source pending for the target into service, or leaves the result 4,095. -/
  | sigClaim (r : Req) (j : Fin 530) (v : Word)
  /-- R586. A write to SIG_DONE returns a held source to idle, or sets done_error if not held. -/
  | sigDone (r : Req) (j : Fin 530) (v : Word)
  /-- R588. A write of SIG_MODE changes the delivery mode, withdrawing and redelivering pending sources. -/
  | sigModeWrite (r : Req) (v : Word)
  /-- R585. A write of SIG_TGT_GRP sets group membership, refused for a group of another principal. -/
  | sigTgtGrpWrite (r : Req) (j : Fin 530) (v : Word)
  /-- R585. A write of SIG_SRC_CFG sets a source's group, target and enable, refused for another tenant's group or target. -/
  | sigSrcCfgWrite (r : Req) (k : Fin 4095) (v : Word)
  /-- R585. A write of SIG_GRP_CFG sets a group's principal and enable, refusing a principal change while it has members or sources. -/
  | sigGrpCfgWrite (r : Req) (g : Fin 64) (v : Word)
  /-- R597. A record arriving at the event log is charged to its budget and stored with the next seq, or suppressed and counted. -/
  | eventRecord (e : Ev)
  /-- R602. The log copy to flash completes, setting flash_copied or flash_copy_failed. -/
  | flashCopyDone (ok : Bool)
  /-- R598. The commit write of LOG_WR_0 stores an engine-written record of classes 12 to 15, or discards it with bad_write. -/
  | logWr (r : Req) (v : Word)
  /-- R600. At the end of each 1 ms window the log writes suppression summaries and restarts its budgets. -/
  | logWindowEnd
  /-- R597. A write of clear in LOG_CTL empties both areas and stores the Log cleared record. -/
  | logClear (r : Req)
  /-- R601. A write of LOG_RD_SEQ selects a record for reading, filtered for the reader. -/
  | logRdSeq (r : Req) (v : Word)
  /-- R630. Release of PWRON_RST_N latches MODE and CREW_ID and starts the Cox self-test, boot source selection and start-up. -/
  | powerOnResetRelease (u : StartUp)
  /-- R638. Assertion of PWRON_RST_N resets the whole device, keeping the event log while VCC_HUB stays up. -/
  | powerOnResetAssert
  /-- R644. Loss of VCC_AUX with core rails up resets the device and puts outputs in high impedance. -/
  | vccAuxLoss
  /-- R611. Loss of VCC_HUB, REFCLK_CORE or a quarter rail loses the device, timing out requests to it. -/
  | railLoss (r : Fin 6)
  /-- R644. A bank supply leaving its range while in use sets its IO_EVENTS bit and records an event. -/
  | vccioOutOfRange (n : Fin 30) (mv : BitVec 12)
  /-- R79. An active edge of a group clock on a cluster clock line of a joined group makes its flip-flops, memory ports, slices, engine ports, free-channel FIFOs, fabric NoC port, lane FIFOs and probe sampling act. -/
  | groupClockEdge (g : BitVec 6) (clocks : BitVec 16) (rising : Bool) (pins : List (Nat × BitVec 48)) (late pops : List (Nat × Nat)) (pushes : List (Nat × Nat × W128))
  /-- R119. A transition on a routing wire that drives a pair's CK pin, or a memory or slice CK pin, clocks the flip-flops, port or slice on it. -/
  | wireClockEdge (i : Isl) (what : CkPin) (rising : Bool)
  /-- R81. In joined mode an asserted asynchronous SR forces every flip-flop of the pair to its srval at once and holds it until released. -/
  | asyncSetReset (i : Isl) (clu : Fin 4800) (p : Fin 16)
  /-- R408. At each word boundary of a fabric-mode lane a word leaves the transmit FIFO, or the alternating pattern is sent with tx_underrun, and a received word enters the receive FIFO or is discarded with rx_overrun. -/
  | laneWordClock (g : LaneIx) (rxw : W128)
  /-- R459. A PCIe completion from the host for a device-issued host-memory read, descriptor fetch or copy part arrives and answers its request OK, ABORTED or UNCORRECTABLE. -/
  | hostCompletion (tag : Nat) (how : Fin 3) (data : List Byte)
  /-- R609. The host PCIe link completes training and comes up, so host traffic and channel inputs flow again. -/
  | hostLinkUp (rate : Fin 5) (width : Fin 5)
  /-- R609. A DPLL loses lock or a GCIN source stops, so locked reads 0 and the joined groups on those clocks stop. -/
  | groupClockSourceLost (n : Fin 24)
  /-- R609. A bit of a block memory half is disturbed, to be corrected or reported uncorrectable at its next read. -/
  | blockMemoryUpset (i : Isl) (m : MemIx) (row : Fin 512) (col : Fin 144)
  /-- R313. A bit of an engine instruction or data SRAM word is disturbed, to be corrected or reported at its next use or patrol. -/
  | engineSramUpset (e : EngIx) (instr : Bool) (w : Fin 16384) (b : Fin 39)
  /-- R374. Stored DRAM data is corrupted on one or more pin groups, to be corrected, reported uncorrectable or cause a freeze at its next read. -/
  | dramError (n : DramIx) (b : Nat) (pattern : BitVec 640)
deriving DecidableEq, Repr

end Sys2Proof
end

