-- ==== Sys2Proof/Decode.lean ====
section
/-! DEFINITION. The words that spell commands: spec/opcode_table.json gives no row any bits (every row's fields are empty), so
no word spells a command. The words of the Scull engines' own instruction set (R287, R288, R291 to R296, R306), which are part
of the block's state, are encoded and decoded here. -/

namespace Sys2Proof

/-- The command a word spells by the table's bits: none, since the table gives no row bits. DESIGN CHOICE: log entry 4. -/
def decodeTableWord (_nbits _w : Nat) : Option Instr := none

/-! ### Engine words -/

/-- Immediate-format opcodes (R288). -/
def immOps : List (BitVec 6) :=
  [0x01, 0x02, 0x03, 0x04, 0x05, 0x06, 0x07, 0x10, 0x11, 0x12, 0x13, 0x14, 0x18, 0x19, 0x1A, 0x2A]

/-- The word of an instruction (R287, R291, R295, R296). -/
def EngInstr.encode : EngInstr → Word
  | .alu fn rd ra rb => 0x00#6 ++ rd ++ ra ++ rb ++ 0#7 ++ fn
  | .imm op rd ra i => op ++ rd ++ ra ++ i
  | .shi k rd ra sh => 0x08#6 ++ rd ++ ra ++ 0#9 ++ k ++ sh
  | .branch k ra rb off => 0x4#3 ++ k ++ ra ++ rb ++ off
  | .jump link off => (if link then 0x29#6 else 0x28#6) ++ off
  | .amo add rd ra rb => 0x2C#6 ++ rd ++ ra ++ rb ++ (if add then 1#11 else 0#11)
  | .send rd ra vs n kind => 0x2E#6 ++ rd ++ ra ++ vs ++ n ++ kind ++ 0#7
  | .wait rd mask => 0x30#6 ++ rd ++ 0#5 ++ 0#8 ++ mask
  | .status fn r ix => 0x31#6 ++ (if fn = 0 then r else 0#5) ++ (if fn = 0 then 0#5 else r) ++ (0#1 ++ fn) ++ 0#7 ++ ix
  | .fence => 0x34#6 ++ 0#26
  | .eret => 0x35#6 ++ 0#26
  | .brk => 0x3E#6 ++ 0#26
  | .vop fn vd va vb lw i => 0x38#6 ++ vd ++ va ++ vb ++ lw ++ fn ++ i
  | .vxfer fn v g lw ix => 0x39#6 ++ v ++ g ++ lw ++ (0#1 ++ fn) ++ 0#6 ++ ix
  | .vmem st v ra i => 0x3A#6 ++ v ++ ra ++ (if st then 1#1 else 0#1) ++ i
  | .vport fn v p n rd set => 0x3B#6 ++ v ++ p ++ fn ++ n ++ rd ++ (if set then 1#1 else 0#1) ++ 0#6
  | .vcrc fn v g => 0x3C#6 ++ v ++ g ++ fn ++ 0#15

/-- Lanes of a lane-width code (R296). -/
def lanesOf (lw : BitVec 2) : Nat := 16 / 2 ^ lw.toNat

/-- Whether an instruction is one the spec lists, with every field it does not use 0; any other raises exception 1 (R287,
R288, R291, R294, R296, R306). -/
def EngInstr.legal : EngInstr → Bool
  | .alu fn _ _ _ => fn ≤ 14
  | .imm op _ ra _ => immOps.contains op && (op ≠ 0x07 || ra = 0)
  | .shi k _ _ _ => k ≤ 2
  | .branch k _ _ _ => k ≤ 5
  | .jump _ _ => true
  | .amo _ _ _ _ => true
  | .send rd _ vs n kind => vs.toNat + n.toNat + 1 ≤ 16 && (kind ≠ 0 || rd = 0)
  | .wait _ mask => mask ≠ 0
  | .status _ _ _ => true
  | .fence => true
  | .eret => true
  | .brk => true
  | .vop fn _ _ vb lw i =>
    fn ≤ 19 && ((10 ≤ fn && fn ≤ 12) || i = 0) && (!(10 ≤ fn && fn ≤ 12) && fn ≤ 17 || vb = 0) && (fn ≠ 17 || lw ≠ 0)
      && (fn < 18 || lw ≠ 3)
  | .vxfer fn _ _ lw ix => lw ≠ 3 && (if fn ≤ 1 then ix.toNat < lanesOf lw else ix = 0)
  | .vmem _ _ _ _ => true
  | .vport fn v p n rd _ =>
    if fn = 0 then rd = 0 && p.toNat + n.toNat + 1 ≤ 16 && v.toNat + n.toNat + 1 ≤ 16
    else if fn = 1 then n = 0 else fn = 2 && n = 0 && v = 0
  | .vcrc fn v g => fn ≤ 2 && (fn = 1 || v = 0) && (fn ≠ 1 || g = 0)

/-- The fields of a word, by its opcode; none where no format has that opcode. -/
def EngInstr.fields (w : Word) : Option EngInstr :=
  let f (lo n : Nat) : BitVec n := w.extractLsb' lo n
  let op : BitVec 6 := f 26 6
  let a : BitVec 5 := f 21 5
  let b : BitVec 5 := f 16 5
  if op = 0x00 then some (.alu (f 0 4) a b (f 11 5))
  else if immOps.contains op then some (.imm op a b (f 0 16))
  else if op = 0x08 then some (.shi (f 5 2) a b (f 0 5))
  else if 0x20 ≤ op ∧ op ≤ 0x25 then some (.branch (f 26 3) a b (f 0 16))
  else if op = 0x28 then some (.jump false (f 0 26))
  else if op = 0x29 then some (.jump true (f 0 26))
  else if op = 0x2C then some (.amo (w.getLsbD 0) a b (f 11 5))
  else if op = 0x2E then some (.send a b (f 12 4) (f 9 3) (f 7 2))
  else if op = 0x30 then some (.wait a (f 0 8))
  else if op = 0x31 then some (.status (f 13 2) (if f 13 2 = 0#2 then a else b) (f 0 6))
  else if op = 0x34 then some .fence
  else if op = 0x35 then some .eret
  else if op = 0x3E then some .brk
  else if op = 0x38 then some (.vop (f 6 6) (f 22 4) (f 18 4) (f 14 4) (f 12 2) (f 0 6))
  else if op = 0x39 then some (.vxfer (f 12 2) (f 22 4) (f 17 5) (f 15 2) (f 0 6))
  else if op = 0x3A then some (.vmem (w.getLsbD 16) (f 22 4) (f 17 5) (f 0 16))
  else if op = 0x3B then some (.vport (f 16 2) (f 22 4) (f 18 4) (f 12 4) (f 7 5) (w.getLsbD 6))
  else if op = 0x3C then some (.vcrc (f 15 2) (f 22 4) (f 17 5))
  else none

/-- The instruction a word spells; none where it raises exception 1. -/
def EngInstr.decode (w : Word) : Option EngInstr :=
  match EngInstr.fields w with
  | some i => if i.legal && i.encode = w then some i else none
  | none => none

end Sys2Proof
end

