-- ==== Sys2Proof/Machine/Regs.lean ====
section
/-! DEFINITION. The software-visible register definitions, node kind by node kind, from the register maps of the spec's
chapters: offset in the node window, count and stride of an array, words of a wide value (R13, R14), class (R11), and the
masks of the bits that store, clear by writing 1, clear on reading, and act as commands (R9). Bits in no mask are read-only or
reserved. A line's comment names the rule that gives the register. -/

namespace Sys2Proof.Machine

def islRegsA : List RegDef := [
  ⟨0, 1, 0, 1, 1, .pub, 0, 0, 0, 0, 0⟩,  -- ISL_ID R208
  ⟨4, 1, 0, 1, 1, .ten, 0, 0, 0, 0, 0⟩,  -- ISL_OWNER R208
  ⟨8, 1, 0, 1, 1, .ten, 0, 0, 0, 0, 0⟩,  -- ISL_STATUS R208
  ⟨0xc, 1, 0, 1, 1, .ten, 0, 0, 0, 3, 0⟩,  -- ISL_PWR_CMD R208
  ⟨0x10, 1, 0, 1, 1, .ten, 0xfff, 0, 0, 0, 0⟩,  -- ISL_CLK_REQ R208
  ⟨0x14, 1, 0, 1, 1, .own, 0xfff, 0, 0, 0, 0x2bc⟩,  -- ISL_CLK_LIMIT R208
  ⟨0x18, 1, 0, 1, 1, .ten, 0, 0, 0, 0, 0⟩,  -- ISL_CLK_NOW R208
  ⟨0x1c, 1, 0, 1, 1, .ten, 0, 0, 0, 0, 0⟩,  -- ISL_SETUP_INFO R208
  ⟨0x20, 1, 0, 1, 1, .pub, 0, 0, 0, 0, 0⟩,  -- ISL_EPOCH R208
  ⟨0x24, 1, 0, 1, 1, .ten, 0, 0xff, 0, 0, 0⟩,  -- ISL_SIG_CAUSE R208
  ⟨0x28, 1, 0, 1, 1, .ten, 0xff, 0, 0, 0, 0⟩,  -- ISL_SIG_EN R208
  ⟨0x1000, 1, 0, 1, 1, .ten, 0, 0, 0, 0, 0⟩,  -- STK_STATUS R250
  ⟨0x1004, 1, 0, 1, 1, .ten, 0, 0, 0, 7, 0⟩,  -- STK_CTL R250
  ⟨0x1008, 1, 0, 2, 1, .ten, 0, 0, 0, 0, 0⟩,  -- STK_COUNT R250
  ⟨0x1010, 1, 0, 2, 1, .prv, 0xffffffff, 0, 0, 0, 0xffffffff⟩,  -- STK_LIMIT R250
  ⟨0x1018, 1, 0, 2, 1, .own, 0xffffffff, 0, 0, 0, 0xffffffff⟩,  -- STK_HOLD R250
  ⟨0x1020, 1, 0, 1, 1, .prv, 0xff, 0, 0, 0, 0⟩,  -- STK_SETTLE R250
  ⟨0x1024, 1, 0, 1, 1, .prv, 3, 0, 0, 0, 0⟩,  -- STK_MON_CTL R250
  ⟨0x1028, 1, 0, 1, 1, .ten, 0, 0, 0, 0, 0⟩,  -- STK_MON_PORT R250
  ⟨0x102c, 1, 0, 2, 1, .ten, 0, 0, 0, 0, 0⟩,  -- STK_MON_STROKE R250
  ⟨0x1034, 1, 0, 1, 1, .ten, 0xffff, 0, 0, 0, 0x3e8⟩,  -- STK_STALL_CFG R250
  ⟨0x1038, 1, 0, 1, 1, .ten, 0, 0, 0, 0, 0⟩,  -- STK_STALL_IN R250
  ⟨0x103c, 1, 0, 1, 1, .ten, 0, 0, 0, 0, 0⟩,  -- STK_STALL_OUT R250
  ⟨0x1040, 1, 0, 1, 1, .ten, 0, 0x7f, 0, 0, 0⟩,  -- STK_EVENTS R250
  ⟨0x1044, 1, 0, 1, 1, .ten, 0, 0, 0xffffffff, 0, 0⟩,  -- STK_WAIT_IN R250
  ⟨0x1048, 1, 0, 1, 1, .ten, 0, 0, 0xffffffff, 0, 0⟩,  -- STK_WAIT_OUT R250
  ⟨0x104c, 1, 0, 1, 1, .prv, 0, 0, 0, 0, 0⟩,  -- STK_DCLK_EN R250
  ⟨0x1080, 16, 4, 1, 1, .prv, 0, 0, 0, 0, 0⟩,  -- STK_DCLK R250
  ⟨0x2000, 1, 0, 1, 1, .ten, 0, 0, 0, 0, 0⟩,  -- CAT_STATUS R279
  ⟨0x2004, 1, 0, 1, 1, .ten, 0, 0, 0, 0, 0⟩,  -- CAT_PRESERVE R279
  ⟨0x2008, 1, 0, 1, 1, .ten, 0, 0x3ff, 0, 0, 0⟩,  -- CAT_EVENTS R279
  ⟨0x200c, 1, 0, 1, 1, .prv, 0xb, 0, 0, 4, 0⟩,  -- CAT_LOG_CTL R279
  ⟨0x2010, 1, 0, 2, 1, .prv, 0xffffffff, 0, 0, 0, 0⟩,  -- CAT_LOG_BASE R279
  ⟨0x2018, 1, 0, 1, 1, .prv, 0xffffff, 0, 0, 0, 0⟩,  -- CAT_LOG_SIZE R279
  ⟨0x201c, 1, 0, 1, 1, .prv, 0, 0, 0, 0, 0⟩,  -- CAT_LOG_HEAD R279
  ⟨0x2020, 1, 0, 1, 1, .prv, 0xffffff, 0, 0, 0, 0⟩,  -- CAT_LOG_TAIL R279
  ⟨0x2024, 1, 0, 1, 1, .prv, 0, 0, 0, 0, 0⟩,  -- CAT_LOG_SEQ R279
  ⟨0x2028, 1, 0, 2, 1, .prv, 0xffffffff, 0, 0, 0, 0xffffffff⟩,  -- CAT_REPLAY_END R279
  ⟨0x2030, 1, 0, 2, 1, .ten, 0, 0, 0, 0, 0⟩,  -- CAT_LAST_STROKE R279
  ⟨0x2038, 1, 0, 1, 1, .ten, 0, 0, 0, 0, 0⟩]  -- CAT_LAST_ID R279

def islRegsB : List RegDef := [
  ⟨0x203c, 1, 0, 1, 1, .ten, 0, 0, 0xffffffff, 0, 0⟩,  -- CAT_HOLD_CLOCKS R279
  ⟨0x4000, 96, 0x40, 1, 1, .prv, 0, 0, 0, 0, 0⟩,  -- MEM_CFG R162
  ⟨0x4004, 96, 0x40, 1, 1, .ten, 0, 7, 0, 0x100, 0⟩,  -- MEM_STATUS R162
  ⟨0x4008, 96, 0x40, 1, 1, .ten, 0, 0, 0, 0, 0⟩,  -- MEM_ECC_COUNT R162
  ⟨0x400c, 96, 0x40, 1, 1, .ten, 0, 0, 0, 0, 0⟩,  -- MEM_ECC_ADDR R162
  ⟨0x4010, 96, 0x40, 1, 1, .prv, 0x7ff, 0, 0, 0x800, 0x1000⟩,  -- MEM_DBG_CTL R162
  ⟨0x4014, 96, 0x40, 1, 1, .prv, 0xffff, 0, 0, 0, 0⟩,  -- MEM_DBG_XDATA R162
  ⟨0x4018, 96, 0x40, 1, 1, .ten, 0xffff, 0, 0, 0, 0x13⟩,  -- MEM_PATROL R162
  ⟨0x401c, 96, 0x40, 1, 1, .prv, 0xfff, 0, 0, 0x1000, 0⟩,  -- QCT_CTL R162
  ⟨0x4020, 96, 0x40, 4, 1, .prv, 0xffffffff, 0, 0, 0, 0⟩,  -- MEM_DBG_DATA R162
  ⟨0x4030, 96, 0x40, 2, 1, .prv, 0, 0, 0, 0, 0⟩,  -- QCT_SNAP R162
  ⟨0x4038, 96, 0x40, 1, 1, .prv, 0x1fff1fff, 0, 0, 0, 0⟩,  -- QCT_THRESH R162
  ⟨0x403c, 96, 0x40, 1, 1, .prv, 0, 0x1f00, 0, 0, 5⟩,  -- QCT_FLAGS R162
  ⟨0x6000, 48, 0x40, 1, 1, .prv, 0, 0, 0, 0, 0⟩,  -- ARS_CFG R187
  ⟨0x6004, 48, 0x40, 1, 1, .prv, 0, 0, 0, 0, 0⟩,  -- ARS_OUT_CFG R187
  ⟨0x6008, 48, 0x40, 1, 1, .prv, 0, 0, 0, 0, 0⟩,  -- ARS_DET_CFG R187
  ⟨0x600c, 48, 0x40, 1, 1, .prv, 0, 0x1f, 0, 0, 0⟩,  -- ARS_STATUS R187
  ⟨0x6010, 48, 0x40, 4, 1, .prv, 0xffffffff, 0, 0, 0, 0⟩,  -- ARS_ACC R187
  ⟨0x6020, 48, 0x40, 2, 1, .prv, 0, 0, 0, 0, 0⟩,  -- ARS_MIN R187
  ⟨0x6028, 48, 0x40, 2, 1, .prv, 0, 0, 0, 0, 0⟩,  -- ARS_MAX R187
  ⟨0x6030, 48, 0x40, 1, 1, .prv, 0, 0, 0, 0, 0⟩,  -- ARS_MM_IDX R187
  ⟨0x6034, 48, 0x40, 1, 1, .prv, 0, 0, 0, 0, 0⟩,  -- ARS_MM_CNT R187
  ⟨0x6038, 48, 0x40, 1, 1, .prv, 0, 0, 0, 0, 0⟩,  -- ARS_BEXP R187
  ⟨0x8000, 32, 0x20, 1, 1, .prv, 0, 0, 0, 0, 0⟩,  -- XCH_XO_CFG R251
  ⟨0x8004, 32, 0x20, 1, 1, .prv, 0, 0, 0, 0, 0⟩,  -- XCH_XO_DEST R251
  ⟨0x8008, 32, 0x20, 1, 1, .ten, 0, 0, 0, 0, 0⟩,  -- XCH_XO_STATUS R251
  ⟨0x800c, 32, 0x20, 1, 1, .ten, 0, 0, 0, 0, 0⟩,  -- XCH_XO_WORDS R251
  ⟨0x8400, 32, 0x20, 1, 1, .prv, 0, 0, 0, 0, 0⟩,  -- XCH_XI_CFG R251
  ⟨0x8404, 32, 0x20, 1, 1, .prv, 0, 0, 0, 0, 0⟩,  -- XCH_XI_SRC R251
  ⟨0x8408, 32, 0x20, 1, 1, .ten, 0, 0, 0, 0, 0⟩,  -- XCH_XI_STATUS R251
  ⟨0x840c, 32, 0x20, 1, 1, .ten, 0, 0, 0, 0, 0⟩,  -- XCH_XI_DISCARDS R251
  ⟨0x8410, 32, 0x20, 1, 1, .ten, 0, 0, 0, 0, 0⟩,  -- XCH_XI_WORDS R251
  ⟨0x8800, 1, 0, 1, 1, .prv, 0x1ff, 0, 0, 0, 0⟩,  -- XCH_PEEK_CTL R251
  ⟨0x8804, 1, 0, 4, 1, .prv, 0, 0, 0, 0, 0⟩,  -- XCH_PEEK R251
  ⟨0x8820, 1, 0, 1, 1, .ten, 0, 0xf, 0, 0, 0⟩,  -- XCH_EVENTS R251
  ⟨0x8824, 1, 0, 1, 1, .ten, 0, 0xffffffff, 0, 0, 0⟩,  -- XCH_DENIED_PORTS R251
  ⟨0x9000, 1, 0, 1, 1, .ten, 0, 0, 0, 0, 0⟩,  -- PWR_ISL_CURRENT R209
  ⟨0x9004, 1, 0, 1, 1, .ten, 0, 0, 0, 0, 0⟩,  -- PWR_ISL_POWER R209
  ⟨0x9008, 1, 0, 2, 1, .ten, 0, 0, 0, 0, 0⟩,  -- PWR_ISL_ENERGY R209
  ⟨0x9010, 1, 0, 1, 1, .ten, 0, 0, 0, 0, 0⟩]  -- PWR_ISL_TEMP R209

def islRegsC : List RegDef := [
  ⟨0x9014, 1, 0, 1, 1, .ten, 0, 0xf, 0, 0, 0⟩,  -- PWR_ISL_ALARM R209
  ⟨0x9018, 1, 0, 1, 1, .own, 0xffff, 0, 0, 0, 0xffff⟩,  -- PWR_ISL_CUR_LIMIT R209
  ⟨0x7000, 1, 0, 1, 1, .prv, 0, 0, 0, 3, 0⟩,  -- DBG_TRG_CTL R578
  ⟨0x7004, 1, 0, 1, 1, .prv, 0x3ffff, 0, 0, 0, 0⟩,  -- DBG_TRG_COND R578
  ⟨0x7008, 1, 0, 1, 1, .prv, 0xffff, 0, 0, 0, 0⟩,  -- DBG_TRG_COUNT R578
  ⟨0x700c, 1, 0, 1, 1, .prv, 0xff, 0, 0, 0, 0⟩,  -- DBG_TRG_ACTION R578
  ⟨0x7010, 1, 0, 2, 1, .prv, 0, 0, 0, 0, 0⟩,  -- DBG_TRG_STROKE R578
  ⟨0x7018, 1, 0, 1, 1, .prv, 0, 0x500, 0, 0, 0⟩,  -- DBG_TRG_STATUS R578
  ⟨0x7020, 1, 0, 4, 1, .prv, 0, 0, 0, 0, 0⟩,  -- DBG_TRG_CAPT R578
  ⟨0x7100, 8, 0x40, 1, 1, .prv, 0x7f, 0, 0, 0, 0⟩,  -- DBG_CMP_CFG R578
  ⟨0x7110, 8, 0x40, 4, 1, .prv, 0xffffffff, 0, 0, 0, 0⟩,  -- DBG_CMP_VAL R578
  ⟨0x7120, 8, 0x40, 4, 1, .prv, 0xffffffff, 0, 0, 0, 0⟩,  -- DBG_CMP_MASK R578
  ⟨0x7400, 1, 0, 1, 1, .prv, 0x1fff, 0, 0, 0, 0⟩,  -- DBG_FF_SEL R578
  ⟨0x7408, 1, 0, 2, 1, .prv, 0xffffffff, 0, 0, 0, 0⟩,  -- DBG_FF_DATA R578
  ⟨0x7410, 1, 0, 1, 1, .prv, 0x3ffff, 0, 0, 0, 0⟩,  -- DBG_FRAME_SEL R578
  ⟨0x7420, 1, 0, 4, 1, .prv, 0, 0, 0, 0, 0⟩,  -- DBG_FRAME_DATA R578
  ⟨0x743c, 1, 0, 1, 1, .prv, 7, 0, 0, 0, 0⟩,  -- DBG_PROBE_SEL R578
  ⟨0x7440, 1, 0, 4, 1, .prv, 0, 0, 0, 0, 0⟩,  -- DBG_PROBE R578
  ⟨0x7450, 1, 0, 1, 1, .prv, 0, 0x20, 0, 0, 0⟩,  -- DBG_ACC_STATUS R578
  ⟨0x3000, 2, 0x800, 1, 1, .pub, 0, 0, 0, 0, 0⟩,  -- SCL_ID R321
  ⟨0x3004, 2, 0x800, 1, 1, .ten, 0, 0, 0, 0, 0⟩,  -- SCL_STATUS R321
  ⟨0x3008, 2, 0x800, 1, 1, .prv, 0, 0, 0, 0x1f, 0⟩,  -- SCL_CTL R321
  ⟨0x300c, 2, 0x800, 1, 1, .prv, 0xffffffff, 0, 0, 0, 0⟩,  -- SCL_PC R321
  ⟨0x3010, 2, 0x800, 1, 1, .prv, 0xfffffffc, 0, 0, 0, 0⟩,  -- SCL_START R321
  ⟨0x3014, 2, 0x800, 1, 1, .prv, 0x1fffc, 0, 0, 0, 0⟩,  -- SCL_MEM_ADDR R321
  ⟨0x3018, 2, 0x800, 1, 1, .prv, 0xffffffff, 0, 0, 0, 0⟩,  -- SCL_MEM_DATA R321
  ⟨0x301c, 2, 0x800, 1, 1, .prv, 0xff, 0, 0, 0, 0⟩,  -- SCL_REG_SEL R321
  ⟨0x3020, 2, 0x800, 4, 1, .prv, 0xffffffff, 0, 0, 0, 0⟩,  -- SCL_REG_DATA R321
  ⟨0x3030, 2, 0x800, 1, 1, .ten, 0, 0x1ff, 0, 0, 0⟩,  -- SCL_EVENTS R321
  ⟨0x3034, 2, 0x800, 1, 1, .ten, 3, 0, 0, 0, 0⟩,  -- SCL_SIG_EN R321
  ⟨0x3038, 2, 0x800, 1, 1, .ten, 0, 0, 0, 0, 0⟩,  -- SCL_ECC R321
  ⟨0x303c, 2, 0x800, 1, 1, .prv, 0xffffff, 0, 0, 0, 0⟩,  -- SCL_WDOG R321
  ⟨0x3040, 2, 0x800, 1, 1, .prv, 3, 0, 0, 0, 2⟩,  -- SCL_PORT_MAP R321
  ⟨0x3044, 2, 0x800, 1, 1, .ten, 0, 0, 0, 0, 0⟩,  -- SCL_PORT_STATUS R321
  ⟨0x3048, 2, 0x800, 2, 1, .ten, 0, 0, 0, 0, 0⟩,  -- SCL_INSTR R321
  ⟨0x3400, 2, 0x800, 1, 256, .prv, 0xffffffff, 0, 0, 0, 0⟩]  -- SCL_MAILBOX R321

def islRegs : List RegDef := islRegsA ++ islRegsB ++ islRegsC

def dramRegsA : List RegDef := [
  ⟨0, 1, 0, 1, 1, .pub, 0, 0, 0, 0, 0⟩,  -- DDR_ID R389
  ⟨4, 1, 0, 1, 1, .pub, 0, 0, 0, 0, 0⟩,  -- DDR_STATUS R389
  ⟨8, 1, 0, 1, 1, .own, 0, 0, 0, 0x1f, 0⟩,  -- DDR_CTL R389
  ⟨0xc, 1, 0, 1, 1, .own, 0x3f7, 0, 0, 0, 0x280⟩,  -- DDR_DEV_CFG R389
  ⟨0x10, 1, 0, 1, 1, .own, 0xfff1, 0, 0, 0, 0x640⟩,  -- DDR_PAGE_CFG R389
  ⟨0x14, 1, 0, 1, 1, .own, 0x3f, 0, 0, 0, 0x18⟩,  -- DDR_REF_CFG R389
  ⟨0x18, 1, 0, 1, 1, .own, 0xffff, 0, 0, 0, 0x18⟩,  -- DDR_PATROL R389
  ⟨0x1c, 1, 0, 1, 1, .own, 0xffff0001, 0, 0, 0, 0⟩,  -- DDR_PART R389
  ⟨0x20, 1, 0, 1, 1, .own, 0xffff, 0, 0, 0, 0x7d0⟩,  -- DDR_AGE_0 R389
  ⟨0x24, 1, 0, 1, 1, .own, 0xffff, 0, 0, 0, 0x1f4⟩,  -- DDR_AGE_1 R389
  ⟨0x28, 1, 0, 1, 1, .own, 0xffff, 0, 0, 0, 0xc8⟩,  -- DDR_AGE_2 R389
  ⟨0x2c, 1, 0, 1, 1, .own, 0xffff, 0, 0, 0, 0x64⟩,  -- DDR_AGE_3 R389
  ⟨0x30, 1, 0, 1, 1, .own, 0, 0, 0xffffffff, 0, 0⟩,  -- DDR_ECC_COUNT R389
  ⟨0x34, 1, 0, 2, 1, .own, 0, 0, 0, 0, 0⟩,  -- DDR_ERR_ADDR R389
  ⟨0x3c, 1, 0, 1, 1, .own, 0, 0x80000000, 0, 0, 0⟩,  -- DDR_ERR_INFO R389
  ⟨0x40, 1, 0, 1, 1, .own, 0, 0x7ff, 0, 0, 0⟩,  -- DDR_EVENTS R389
  ⟨0x44, 1, 0, 1, 1, .own, 0xff, 0, 0, 0, 0⟩,  -- DDR_SIG_EN R389
  ⟨0x48, 1, 0, 1, 1, .own, 0, 0, 0, 0, 0⟩,  -- DDR_FRZ_INFO R389
  ⟨0x4c, 1, 0, 2, 1, .own, 0, 0, 0, 0, 0⟩,  -- DDR_FRZ_ADDR R389
  ⟨0x54, 1, 0, 1, 1, .own, 0, 0, 0, 0x800003ff, 0⟩,  -- DDR_ZF_CMD R389
  ⟨0x58, 1, 0, 1, 1, .own, 0, 0, 0, 0, 0⟩,  -- DDR_ZF_STATUS R389
  ⟨0x60, 8, 4, 1, 1, .own, 0xffffffff, 0, 0, 0, 0⟩,  -- DDR_TIM R389
  ⟨0x80, 16, 4, 1, 1, .ten, 0xff, 0, 0, 0, 0⟩,  -- DDR_SLOT R389
  ⟨0xc0, 16, 8, 2, 1, .ten, 0, 0, 0, 0, 0⟩,  -- DDR_TEN_ERR R389
  ⟨0x140, 16, 4, 1, 1, .own, 0, 0, 0, 0, 0⟩,  -- DDR_POISON R389
  ⟨0x200, 1, 0, 1, 1, .own, 0x3f, 0, 0, 0x40, 0x80⟩,  -- DDR_TRN_CMD R389
  ⟨0x204, 1, 0, 1, 1, .own, 0xffffffff, 0, 0, 0, 0⟩,  -- DDR_TRN_ARG R389
  ⟨0x210, 1, 0, 4, 1, .own, 0, 0, 0, 0, 0⟩,  -- DDR_TRN_RESULT R389
  ⟨0x220, 1, 0, 4, 1, .own, 0xffffffff, 0, 0, 0, 0⟩,  -- DDR_TRN_PAT R389
  ⟨0x230, 1, 0, 1, 1, .own, 0xfff, 0, 0, 0, 0⟩,  -- DDR_DLY_SEL R389
  ⟨0x234, 1, 0, 1, 1, .own, 0x3ff, 0, 0, 0, 0⟩,  -- DDR_DLY_DATA R389
  ⟨0x300, 8, 8, 1, 1, .own, 0x1fffffff, 0, 0, 0, 0⟩,  -- DDR_ISET_A R390
  ⟨0x304, 8, 8, 1, 1, .own, 0x7f, 0, 0, 0, 0⟩,  -- DDR_ISET_B R390
  ⟨0x340, 1, 0, 1, 1, .own, 0, 0, 0, 1, 0⟩,  -- DDR_ISET_CTL R390
  ⟨0x400, 32, 4, 1, 1, .own, 0xffffffff, 0, 0, 0, 0⟩]  -- DDR_ZF_MASK R389

def dramRegs : List RegDef := dramRegsA

def linkRegsA : List RegDef := [
  ⟨0, 1, 0, 1, 1, .pub, 0, 0, 0, 0, 0⟩,  -- LNK_ID R450
  ⟨4, 1, 0, 1, 1, .own, 0x1f, 0, 0, 0, 0x1c⟩,  -- LNK_CFG R450
  ⟨8, 1, 0, 1, 1, .own, 0, 0, 0, 7, 0⟩,  -- LNK_CTL R450
  ⟨0xc, 1, 0, 1, 1, .pub, 0, 0, 0, 0, 0xff0⟩,  -- LNK_STATUS R450
  ⟨0x10, 1, 0, 1, 1, .pub, 0, 0, 0, 0, 0⟩,  -- LNK_PEER_INFO R450
  ⟨0x14, 1, 0, 1, 1, .own, 0, 0x3fff, 0, 0, 0⟩,  -- LNK_EVENTS R450
  ⟨0x18, 1, 0, 1, 1, .own, 0xf, 0, 0, 0, 0⟩,  -- LNK_SIG_EN R450
  ⟨0x1c, 1, 0, 1, 1, .own, 0, 0, 0xffffffff, 0, 0⟩,  -- LNK_RETRIES R450
  ⟨0x20, 1, 0, 1, 1, .own, 0, 0, 0xffffffff, 0, 0⟩,  -- LNK_CRC_ERRS R450
  ⟨0x24, 1, 0, 1, 1, .own, 0, 0, 0xffffffff, 0, 0⟩,  -- LNK_FEC_CORR R450
  ⟨0x28, 1, 0, 1, 1, .own, 0, 0, 0xffffffff, 0, 0⟩,  -- LNK_FEC_UNCORR R450
  ⟨0x2c, 1, 0, 1, 1, .own, 0, 0, 0, 0, 0⟩,  -- LNK_PROXY R450
  ⟨0x30, 4, 4, 1, 1, .own, 0, 0, 0, 0, 0⟩,  -- LNK_SHARE R450
  ⟨0x40, 1, 0, 2, 1, .own, 0, 0, 0, 0, 0⟩,  -- LNK_TX_FLITS R450
  ⟨0x48, 1, 0, 2, 1, .own, 0, 0, 0, 0, 0⟩,  -- LNK_RX_FLITS R450
  ⟨0x80, 12, 4, 1, 1, .pub, 0, 0, 0, 0, 0⟩,  -- LNK_PEER_HASH R450
  ⟨0x1000, 1024, 8, 2, 1, .ten, 0, 0, 0, 0, 0⟩,  -- LNK_TX_MAP R450
  ⟨0x3000, 1024, 8, 2, 1, .ten, 0, 0, 0, 0, 0⟩,  -- LNK_RX_MAP R450
  ⟨0x8000, 1, 0, 1, 1, .pub, 0, 0, 0, 0, 0⟩,  -- LANE_GRP_ID R413
  ⟨0x8004, 1, 0, 1, 1, .own, 0xf, 0, 0, 0, 0⟩,  -- LANE_GRP_CFG R413
  ⟨0x8008, 1, 0, 1, 1, .ten, 0xffff00ff, 0, 0, 0, 0xb3⟩,  -- LANE_PLL_MULT R413
  ⟨0x800c, 1, 0, 1, 1, .ten, 0x3f, 0, 0, 0x100, 0x28⟩,  -- LANE_PLL_CFG R413
  ⟨0x8010, 1, 0, 1, 1, .ten, 0, 0, 0, 0, 0⟩,  -- LANE_PLL_STATUS R413
  ⟨0x8100, 9, 0x80, 1, 1, .ten, 0x1f, 0, 0, 0x20, 0x10⟩,  -- LANE_CTL R413
  ⟨0x8104, 9, 0x80, 1, 1, .ten, 0x1f0f, 0, 0, 0, 0x3f0000⟩,  -- LANE_TX_COEF R413
  ⟨0x8108, 9, 0x80, 1, 1, .ten, 0xf07, 0, 0, 0, 0x200⟩,  -- LANE_RX_CFG R413
  ⟨0x810c, 9, 0x80, 1, 1, .ten, 0, 0, 0, 0, 3⟩,  -- LANE_STATUS R413
  ⟨0x8110, 9, 0x80, 1, 1, .ten, 0, 0x1ff, 0, 0, 0⟩,  -- LANE_EVENTS R413
  ⟨0x8114, 9, 0x80, 1, 1, .ten, 0xff, 0, 0, 0, 0⟩,  -- LANE_SIG_EN R413
  ⟨0x8118, 9, 0x80, 1, 1, .ten, 0x7ff7, 0, 0, 0x30000, 0⟩,  -- LANE_TEST_CTL R413
  ⟨0x811c, 9, 0x80, 2, 1, .ten, 0, 0, 0, 0, 0⟩,  -- LANE_PRBS_ERR R413
  ⟨0x8124, 9, 0x80, 2, 1, .ten, 0, 0, 0, 0, 0⟩,  -- LANE_PRBS_BITS R413
  ⟨0x812c, 9, 0x80, 1, 1, .ten, 0, 0, 0, 0, 0⟩]  -- LANE_INJ_COUNT R413

def linkRegs : List RegDef := linkRegsA

def hifRegsA : List RegDef := [
  ⟨0, 1, 0, 1, 1, .pub, 0, 0, 0, 0, 0x51011⟩,  -- HIF_ID R487
  ⟨4, 1, 0, 1, 1, .pub, 0, 0, 0, 0, 0⟩,  -- HIF_LINK R487
  ⟨8, 1, 0, 1, 1, .own, 0xff, 0, 0, 0, 0⟩,  -- HIF_BAR_CFG R487
  ⟨0xc, 1, 0, 1, 1, .own, 0, 0x1f, 0, 0, 0⟩,  -- HIF_EVENTS R487
  ⟨0x10, 1, 0, 1, 1, .own, 0xffff, 0, 0, 0, 0x28⟩,  -- HIF_MMIO_TIMEOUT R487
  ⟨0x14, 1, 0, 1, 1, .own, 0xfffff, 0, 0, 0, 0x1f4⟩,  -- HIF_HOST_TIMEOUT R487
  ⟨0x18, 1, 0, 1, 1, .own, 0xffff, 0, 0, 0, 1⟩,  -- HIF_POLL R487
  ⟨0x1c, 1, 0, 1, 1, .pub, 0, 0, 0, 0, 0⟩,  -- HIF_TAGS R487
  ⟨0x20, 1, 0, 1, 1, .own, 0, 0xffff, 0, 0, 0⟩,  -- HIF_LANE_ERRS R487
  ⟨0x24, 1, 0, 1, 1, .own, 0, 0, 0xffffffff, 0, 0⟩,  -- HIF_NOTIFY_DROPS R487
  ⟨0x40, 16, 4, 1, 1, .own, 0, 0, 0, 0, 0⟩,  -- HIF_VF_TENANT R487
  ⟨0x100, 64, 4, 1, 1, .own, 0x1f1f1f1f, 0, 0, 0, 0x1f1f1f1f⟩,  -- HIF_BLK_MAP R487
  ⟨0x200, 17, 0x10, 1, 1, .own, 0xfff07ff, 0, 0, 0, 0⟩,  -- HIF_FN_VEC R487
  ⟨0x204, 17, 0x10, 1, 1, .own, 0x7ff00ff, 0, 0, 0, 1⟩,  -- HIF_FN_ARB R487
  ⟨0x1000, 256, 0x10, 1, 1, .own, 0x8000001f, 0, 0, 0, 0⟩,  -- HIF_HWIN_FN R487
  ⟨0x1008, 256, 0x10, 2, 1, .prv, 0xfffff001, 0, 0, 0, 0⟩,  -- HIF_HWIN_BASE R487
  ⟨0x2000, 17, 0x100, 1, 1, .ten, 0, 0, 0, 0, 0⟩,  -- HIF_FN_STATUS R487
  ⟨0x2004, 17, 0x100, 1, 1, .ten, 0x3f, 0, 0, 0, 0⟩,  -- HIF_CREW_SEL R487
  ⟨0x2008, 17, 0x100, 1, 1, .ten, 0, 0x80000000, 0, 0, 0⟩,  -- HIF_FN_ERR R487
  ⟨0x200c, 17, 0x100, 2, 1, .ten, 0, 0, 0, 0, 0⟩,  -- HIF_FN_ERR_ADDR R487
  ⟨0x2014, 17, 0x100, 1, 1, .ten, 0, 0x3f, 0, 0, 0⟩,  -- HIF_FN_EVENTS R487
  ⟨0x2018, 17, 0x100, 1, 1, .ten, 0, 0, 0xffffffff, 0, 0⟩,  -- HIF_FN_DB_IGNORED R487
  ⟨0x2020, 17, 0x100, 1, 1, .prv, 0xffff, 0, 0, 0, 0⟩,  -- HIF_CH_SEL R487
  ⟨0x2024, 17, 0x100, 1, 1, .prv, 0xfffff, 0, 0, 0, 0⟩,  -- HIF_CH_CFG R487
  ⟨0x2028, 17, 0x100, 2, 1, .prv, 0xffffffff, 0, 0, 0, 0⟩,  -- HIF_CH_SQ_BASE R487
  ⟨0x2030, 17, 0x100, 2, 1, .prv, 0xffffffff, 0, 0, 0, 0⟩,  -- HIF_CH_CQ_BASE R487
  ⟨0x2038, 17, 0x100, 1, 1, .prv, 0xffff, 0, 0, 0, 0x2710⟩,  -- HIF_CH_TIMEOUT R487
  ⟨0x203c, 17, 0x100, 1, 1, .prv, 0, 0, 0, 7, 0⟩,  -- HIF_CH_CTL R487
  ⟨0x2040, 17, 0x100, 1, 1, .ten, 0, 0, 0, 0, 0⟩,  -- HIF_CH_STATE R487
  ⟨0x2044, 17, 0x100, 1, 1, .ten, 0, 0, 0, 0, 0⟩,  -- HIF_CH_PTRS R487
  ⟨0x2048, 17, 0x100, 1, 1, .ten, 0, 0, 0, 0, 0x10000⟩,  -- HIF_CH_CQ R487
  ⟨0x204c, 17, 0x100, 1, 1, .ten, 0, 0x80000000, 0, 0, 0⟩,  -- HIF_CH_ERR R487
  ⟨0x2050, 17, 0x100, 2, 1, .ten, 0, 0, 0, 0, 0⟩,  -- HIF_CH_DONE R487
  ⟨0x4000, 2048, 0x10, 1, 1, .ten, 0xfffffffc, 0, 0, 0, 0⟩,  -- HIF_MSIX_ADDR R487
  ⟨0x4004, 2048, 0x10, 1, 1, .ten, 0xffffffff, 0, 0, 0, 0⟩,  -- HIF_MSIX_UPPER R487
  ⟨0x4008, 2048, 0x10, 1, 1, .ten, 0xffffffff, 0, 0, 0, 0⟩,  -- HIF_MSIX_DATA R487
  ⟨0x400c, 2048, 0x10, 1, 1, .ten, 1, 0, 0, 0, 1⟩,  -- HIF_MSIX_CTL R487
  ⟨0xc000, 64, 4, 1, 1, .ten, 0, 0, 0, 0, 0⟩,  -- HIF_PBA R487
  ⟨0xd000, 2048, 4, 1, 1, .ten, 0xffffff, 0, 0, 0, 0x101⟩]  -- HIF_VEC_MOD R487

def hifRegs : List RegDef := hifRegsA

def coxRegsA : List RegDef := [
  ⟨0, 1, 0, 1, 1, .pub, 0, 0, 0, 0, 0⟩,  -- COX_ID R556
  ⟨4, 1, 0, 1, 1, .pub, 0, 0, 0, 0, 0xf0⟩,  -- COX_STATUS R556
  ⟨8, 1, 0, 1, 1, .own, 0, 0x3ff, 0, 0, 0⟩,  -- COX_EVENTS R556
  ⟨0xc, 1, 0, 1, 1, .own, 0x3ff, 0, 0, 0, 0⟩,  -- COX_SIG_EN R556
  ⟨0x10, 1, 0, 2, 1, .pub, 0, 0, 0, 0, 0⟩,  -- COX_ARC R556
  ⟨0x18, 1, 0, 1, 1, .pub, 0, 0, 0, 0, 0⟩,  -- COX_SYS_FW R556
  ⟨0x48, 15, 8, 1, 1, .ten, 0, 0, 0, 0, 0⟩,  -- COX_TEN_W0 R556
  ⟨0x4c, 15, 8, 1, 1, .ten, 0, 0, 0, 0, 0⟩,  -- COX_TEN_W1 R556
  ⟨0xc8, 15, 8, 2, 1, .ten, 0, 0, 0, 0, 0⟩,  -- COX_TCNT R556
  ⟨0x140, 32, 4, 1, 1, .own, 0, 0, 0, 0, 0⟩,  -- COX_GMAP R556
  ⟨0x200, 24, 4, 1, 1, .pub, 0, 0, 0, 0, 0⟩,  -- COX_AK_PUB R556
  ⟨0x260, 24, 4, 1, 1, .pub, 0, 0, 0, 0, 0⟩,  -- COX_KK_PUB R556
  ⟨0x2c0, 12, 4, 1, 1, .pub, 0, 0, 0, 0, 0⟩,  -- COX_DEVHASH R556
  ⟨0x300, 32, 8, 1, 1, .ten, 0, 0, 0, 0, 0⟩,  -- COX_GRANT_W0 R556
  ⟨0x304, 32, 8, 1, 1, .ten, 0, 0, 0, 0, 0⟩,  -- COX_GRANT_W1 R556
  ⟨0x400, 1, 0, 1, 1, .own, 0x3ffff, 0, 0, 0, 0⟩,  -- COX_SVC_SEL R623
  ⟨0x404, 1, 0, 1, 1, .own, 0, 0, 0, 7, 0⟩,  -- COX_SVC_CTL R623
  ⟨0x408, 1, 0, 1, 1, .own, 0, 0, 0, 0, 0⟩,  -- COX_SVC_STATUS R623
  ⟨0x40c, 1, 0, 1, 1, .own, 0, 0, 0, 0, 0⟩,  -- COX_SVC_INFO R623
  ⟨0x410, 5, 4, 1, 1, .own, 0, 0, 0, 0, 0⟩,  -- COX_SVC_COUNT R623
  ⟨0x1000, 5, 8, 2, 1, .pub, 0, 0, 0, 0, 0⟩,  -- FUS_DIE R557
  ⟨0x1028, 1, 0, 1, 1, .pub, 0, 0, 0, 0, 1⟩,  -- FUS_DEV R557
  ⟨0x102c, 1, 0, 1, 1, .pub, 0, 0, 0, 0, 0⟩,  -- FUS_POLICY R557
  ⟨0x1030, 1, 0, 2, 1, .pub, 0, 0, 0, 0, 0⟩,  -- FUS_COX_ARC R557
  ⟨0x1038, 1, 0, 1, 1, .pub, 0, 0, 0, 0, 0x8000⟩,  -- FUS_LOCK R557
  ⟨0x1040, 4, 0x30, 1, 12, .pub, 0, 0, 0, 0, 0⟩,  -- FUS_OWNER_HASH R557
  ⟨0x1100, 8, 4, 1, 1, .own, 0, 0, 0, 0, 0⟩,  -- FUS_OWNER_GP R557
  ⟨0x1120, 1, 0, 1, 1, .pub, 0, 0, 0, 0, 0⟩,  -- FUS_VALID R557
  ⟨0x4000, 17, 0x800, 1, 1, .prv, 0xf01f, 0, 0, 0x20, 0x40⟩,  -- COX_MBX_CTL R558
  ⟨0x4004, 17, 0x800, 1, 1, .prv, 0x7ff, 0, 0, 0, 0⟩,  -- COX_MBX_LEN R558
  ⟨0x4008, 17, 0x800, 2, 1, .prv, 0xffffffff, 0, 0, 0, 0⟩,  -- COX_MBX_ADDR R558
  ⟨0x4010, 17, 0x800, 1, 1, .prv, 0xffffff, 0, 0, 0, 0⟩,  -- COX_MBX_XLEN R558
  ⟨0x4400, 17, 0x800, 1, 256, .prv, 0xffffffff, 0, 0, 0, 0⟩]  -- COX_MBX_DATA R558

def coxRegs : List RegDef := coxRegsA

def cfgRegsA : List RegDef := [
  ⟨0, 1, 0, 1, 1, .pub, 0, 0, 0, 0, 0⟩,  -- CFG_STATUS R523
  ⟨4, 1, 0, 1, 1, .own, 0, 0, 0, 3, 0⟩,  -- CFG_CTL R523
  ⟨8, 1, 0, 1, 1, .own, 0, 0, 0, 0, 0⟩,  -- CFG_ABORT R523
  ⟨0xc, 1, 0, 2, 1, .own, 0, 0, 0, 0, 0⟩,  -- CFG_ABORT_OFF R523
  ⟨0x14, 1, 0, 2, 1, .pub, 0, 0, 0, 0, 0⟩,  -- CFG_WORDS R523
  ⟨0x1c, 1, 0, 1, 1, .own, 0x800003ff, 0, 0, 0, 0⟩,  -- CFG_CACHE_CFG R523
  ⟨0x20, 1, 0, 1, 1, .own, 0, 0x7f, 0, 0, 0⟩,  -- CFG_EVENTS R523
  ⟨0x24, 1, 0, 1, 1, .own, 0x3f, 0, 0, 0, 0⟩,  -- CFG_SIG_EN R523
  ⟨0x1000, 1, 0, 1, 1, .own, 0xff000f, 0, 0, 0x100, 0x200⟩,  -- CFG_FLASH_CMD R523
  ⟨0x1004, 1, 0, 1, 1, .own, 0xffffffff, 0, 0, 0, 0⟩,  -- CFG_FLASH_ADDR R523
  ⟨0x1008, 1, 0, 1, 1, .own, 0, 0, 0, 0, 0⟩,  -- CFG_FLASH_ID R523
  ⟨0x1100, 64, 4, 1, 1, .own, 0xffffffff, 0, 0, 0, 0⟩,  -- CFG_FLASH_BUF R523
  ⟨0x2000, 30, 0x10, 1, 1, .pub, 0, 0, 0, 0, 0⟩,  -- IO_BANK_STATUS R643
  ⟨0x2004, 30, 0x10, 1, 1, .own, 1, 0, 0, 0, 0⟩,  -- IO_BANK_CTL R643
  ⟨0x2400, 1, 0, 1, 1, .own, 0, 0x3fffffff, 0, 0, 0⟩,  -- IO_EVENTS R643
  ⟨0x2404, 1, 0, 1, 1, .own, 0, 0, 0, 0, 0⟩,  -- IO_SIG_EN R643
  ⟨0x4000, 1, 0, 1, 1, .pub, 0, 0, 0, 0, 0⟩,  -- CRW_ID R451
  ⟨0x4004, 1, 0, 1, 1, .own, 0, 0x3f, 0, 0, 0⟩,  -- CRW_EVENTS R451
  ⟨0x4008, 1, 0, 1, 1, .own, 0xfffff, 0, 0, 0, 0x2710⟩,  -- CRW_CMD_TIMEOUT R451
  ⟨0x4010, 1, 0, 1, 1, .own, 0x13f, 0, 0, 0, 0x100⟩,  -- CRW_TIME_CFG R451
  ⟨0x4014, 1, 0, 1, 1, .pub, 0, 0, 0, 0, 0⟩,  -- CRW_TIME_STATUS R451
  ⟨0x4018, 1, 0, 1, 1, .pub, 0, 0, 0, 0, 0⟩,  -- CRW_TIME_OFFSET R451
  ⟨0x4020, 1, 0, 2, 1, .pub, 0, 0, 0, 0, 0⟩,  -- CRW_DTIME R451
  ⟨0x4028, 1, 0, 2, 1, .own, 0xffffffff, 0, 0, 0, 0⟩,  -- CRW_DTIME_SET R451
  ⟨0x4080, 16, 4, 1, 1, .pub, 0, 0, 0, 0xffffffff, 0⟩,  -- CRW_MSG R451
  ⟨0x4100, 16, 0x40, 1, 1, .prv, 0x300f, 0, 0, 0x10, 0⟩,  -- CRW_CMD_CTL R451
  ⟨0x4108, 16, 0x40, 2, 1, .prv, 0xffffffff, 0, 0, 0, 0⟩,  -- CRW_CMD_DEVS R451
  ⟨0x4110, 16, 0x40, 2, 1, .prv, 0xffffffff, 0, 0, 0, 0⟩,  -- CRW_CMD_TABLE R451
  ⟨0x4118, 16, 0x40, 2, 1, .prv, 0xffffffff, 0, 0, 0, 0⟩,  -- CRW_CMD_ARG R451
  ⟨0x4120, 16, 0x40, 2, 1, .prv, 0, 0, 0, 0, 0⟩,  -- CRW_CMD_RESULT R451
  ⟨0x4128, 16, 0x40, 2, 1, .prv, 0, 0, 0, 0, 0⟩,  -- CRW_CMD_N R451
  ⟨0x4600, 64, 4, 1, 1, .own, 0x8000001f, 0, 0, 0, 0⟩,  -- CRW_ROUTE R451
  ⟨0x4800, 64, 4, 1, 1, .pub, 0, 0, 0, 0, 0⟩,  -- CRW_DEV_EPOCH R451
  ⟨0x5000, 512, 4, 1, 1, .pub, 0, 0, 0, 0, 0⟩,  -- CRW_LP_EPOCH R451
  ⟨0x6000, 256, 0x30, 12, 1, .prv, 0, 0, 0, 0, 0⟩]  -- CFG_ISL_HASH R523

def cfgRegs : List RegDef := cfgRegsA

def dbghRegsA : List RegDef := [
  ⟨0, 1, 0, 1, 1, .pub, 0, 0, 0, 0, 0x12⟩,  -- DBG_HUB_ID R579
  ⟨4, 1, 0, 1, 1, .pub, 0, 0, 0, 0, 0⟩,  -- DBG_HUB_STATUS R579
  ⟨8, 1, 0, 1, 1, .own, 0, 0x3f, 0, 0, 0⟩,  -- DBG_HUB_EVENTS R579
  ⟨0x100, 16, 0x20, 1, 1, .prv, 0, 0, 0, 3, 0⟩,  -- DBG_HALT_CTL R579
  ⟨0x104, 16, 0x20, 1, 1, .prv, 7, 0, 0, 0, 0⟩,  -- DBG_HALT_CFG R579
  ⟨0x108, 16, 0x20, 1, 1, .prv, 0, 0, 0, 0, 0⟩,  -- DBG_HALT_STATUS R579
  ⟨0x10c, 16, 0x20, 1, 1, .prv, 0x7f, 0, 0, 0, 7⟩,  -- DBG_FOH R579
  ⟨0x110, 16, 0x20, 1, 1, .prv, 1, 0, 0, 0, 0⟩,  -- DBG_ATTACHED R579
  ⟨0x114, 16, 0x20, 1, 1, .prv, 0, 0, 0, 0, 0⟩,  -- DBG_XTRG_STATUS R579
  ⟨0x118, 16, 0x20, 2, 1, .prv, 0, 0, 0, 0, 0⟩,  -- DBG_XTRG_N R579
  ⟨0x400, 16, 0x20, 1, 8, .prv, 0xffffffff, 0, 0, 0, 0⟩,  -- DBG_XTRG_MASK R579
  ⟨0x1000, 18, 0x80, 1, 1, .pub, 7, 0, 0, 8, 0x10⟩,  -- DBG_AP_CTL R579
  ⟨0x1004, 18, 0x80, 1, 1, .pub, 0, 0, 0, 0, 0⟩,  -- DBG_AP_SESS R579
  ⟨0x1008, 18, 0x80, 2, 1, .pub, 0xffffffff, 0, 0, 0, 0⟩,  -- DBG_AP_ADDR R579
  ⟨0x1010, 18, 0x80, 4, 1, .pub, 0xffffffff, 0, 0, 0, 0⟩]  -- DBG_AP_DATA R579

def dbghRegs : List RegDef := dbghRegsA

def sigRegsA : List RegDef := [
  ⟨0, 1, 0, 1, 1, .own, 1, 0, 0, 0, 1⟩,  -- SIG_MODE R604
  ⟨4, 1, 0, 1, 1, .pub, 0, 0, 0, 0, 0⟩,  -- SIG_STATUS R604
  ⟨8, 1, 0, 1, 1, .own, 0, 3, 0, 0, 0⟩,  -- SIG_EVENTS R604
  ⟨0xc, 1, 0, 1, 1, .own, 0x800007ff, 0, 0, 0, 0⟩,  -- SIG_HOST_CFG R604
  ⟨0x100, 64, 8, 1, 1, .own, 0x8000000f, 0, 0, 0, 0⟩,  -- SIG_GRP_CFG R604
  ⟨0x104, 64, 8, 1, 1, .ten, 0, 0, 0, 0, 0⟩,  -- SIG_GRP_STATUS R604
  ⟨0x400, 530, 8, 2, 1, .ten, 0xffffffff, 0, 0, 0, 0⟩,  -- SIG_TGT_GRP R604
  ⟨0x2000, 4095, 4, 1, 1, .ten, 0x1ffff, 0, 0, 0, 0x8400⟩,  -- SIG_SRC_CFG R604
  ⟨0x6000, 530, 0x40, 4, 1, .ten, 0, 0, 0, 0, 0⟩,  -- SIG_SUM R604
  ⟨0x6010, 530, 0x40, 1, 1, .ten, 0x7f, 0, 0, 0, 0⟩,  -- SIG_PEND_SEL R604
  ⟨0x6014, 530, 0x40, 1, 1, .ten, 0, 0, 0, 0, 0⟩,  -- SIG_PEND R604
  ⟨0x6018, 530, 0x40, 1, 1, .ten, 0, 0, 0, 0xfff, 0⟩,  -- SIG_CLAIM R604
  ⟨0x601c, 530, 0x40, 1, 1, .ten, 0, 0, 0, 0, 0xfff⟩,  -- SIG_CLAIM_RESULT R604
  ⟨0x6020, 530, 0x40, 1, 1, .ten, 0, 0, 0, 0xfff, 0⟩,  -- SIG_DONE R604
  ⟨0x6024, 530, 0x40, 1, 1, .ten, 0, 0xc0000000, 0, 0, 0⟩]  -- SIG_TGT_STATUS R604

def sigRegs : List RegDef := sigRegsA

def logRegsA : List RegDef := [
  ⟨0, 1, 0, 1, 1, .own, 1, 0, 0, 0, 1⟩,  -- LOG_CFG R605
  ⟨4, 1, 0, 1, 1, .own, 0, 0, 0, 1, 0⟩,  -- LOG_CTL R605
  ⟨8, 1, 0, 1, 1, .pub, 0, 0, 0, 0, 0⟩,  -- LOG_STATUS R605
  ⟨0xc, 1, 0, 1, 1, .own, 0, 0x7f, 0, 0, 0⟩,  -- LOG_EVENTS R605
  ⟨0x10, 1, 0, 1, 1, .own, 0x3f, 0, 0, 0, 0⟩,  -- LOG_SIG_EN R605
  ⟨0x14, 1, 0, 1, 1, .pub, 0, 0, 0, 0, 0⟩,  -- LOG_NEXT_SEQ R605
  ⟨0x18, 1, 0, 1, 1, .pub, 0, 0, 0, 0, 0⟩,  -- LOG_FIRST_SEQ R605
  ⟨0x1c, 1, 0, 1, 1, .pub, 0, 0, 0, 0, 0⟩,  -- LOG_CIRC_OLDEST R605
  ⟨0x20, 1, 0, 1, 1, .own, 0, 0, 0, 0, 0⟩,  -- LOG_FLASH_SEQ R605
  ⟨0x40, 16, 4, 1, 1, .own, 0xff, 0, 0, 0, 0x10⟩,  -- LOG_CLASS_BUDGET R605
  ⟨0x80, 1, 0, 1, 1, .pub, 0xffffffff, 0, 0, 0, 0⟩,  -- LOG_RD_SEQ R605
  ⟨0x84, 1, 0, 1, 1, .pub, 0, 0, 0, 0, 0⟩,  -- LOG_RD_INFO R605
  ⟨0xa0, 1, 0, 8, 1, .pub, 0, 0, 0, 0, 0⟩,  -- LOG_RD_DATA R605
  ⟨0x100, 1, 0, 8, 1, .pub, 0, 0, 0, 0xffffffff, 0⟩,  -- LOG_WR R605
  ⟨0x800, 512, 4, 1, 1, .own, 0x80ffffff, 0, 0, 0, 0x100000⟩]  -- LOG_RATE R605

def logRegs : List RegDef := logRegsA

def pwrRegsA : List RegDef := [
  ⟨0, 1, 0, 1, 1, .pub, 0, 0, 0, 0, 0⟩,  -- PWR_DEV_STATE R210
  ⟨4, 1, 0, 1, 1, .own, 3, 0, 0, 0, 0⟩,  -- PWR_DEV_CTL R210
  ⟨8, 1, 0, 1, 1, .pub, 0, 0, 0, 0, 0⟩,  -- PWR_DEV_POWER R210
  ⟨0xc, 1, 0, 1, 1, .own, 0xffff, 0, 0, 0, 0x1194⟩,  -- PWR_CAP R210
  ⟨0x10, 1, 0, 1, 1, .own, 0xffff, 0, 0, 0, 0x500⟩,  -- PWR_NONISL_BUDGET R210
  ⟨0x14, 11, 4, 1, 1, .own, 0, 0, 0, 0, 0⟩,  -- PWR_RAIL R210
  ⟨0x40, 16, 4, 1, 1, .ten, 0, 0, 0, 0, 0⟩,  -- PWR_TEN_POWER R210
  ⟨0x80, 16, 4, 1, 1, .ten, 0, 0, 0, 0, 0⟩,  -- PWR_TEN_CAP R210
  ⟨0xc0, 1, 0, 1, 1, .own, 0xffff, 0, 0, 0, 0x645f⟩,  -- PWR_THERM_CFG R210
  ⟨0xc4, 1, 0, 1, 1, .pub, 0, 0, 0, 0, 0⟩,  -- PWR_THERM_STATUS R210
  ⟨0xc8, 1, 0, 1, 1, .own, 0, 0x3ff, 0, 0, 0⟩,  -- PWR_ALARM R210
  ⟨0xcc, 4, 4, 1, 1, .own, 0xffff, 0, 0, 0, 0x1770⟩,  -- PWR_EMERG_CFG R210
  ⟨0x100, 64, 4, 1, 1, .own, 0, 0, 0, 0, 0⟩,  -- PWR_TS R210
  ⟨0x200, 8, 0x10, 1, 1, .ten, 0x3f01, 0, 0, 0, 0⟩,  -- PWR_DPLL_CTL R210
  ⟨0x204, 8, 0x10, 1, 1, .ten, 0xffffff, 0, 0, 0, 0⟩,  -- PWR_DPLL_FRAC R210
  ⟨0x208, 8, 0x10, 1, 1, .ten, 0x1fff1fff, 0, 0, 0, 0x40004⟩,  -- PWR_DPLL_DIV R210
  ⟨0x20c, 8, 0x10, 1, 1, .ten, 0, 0, 0, 0, 0⟩,  -- PWR_DPLL_STATUS R210
  ⟨0x300, 16, 4, 1, 1, .ten, 0x1f, 0, 0, 0, 0⟩]  -- PWR_GC_SEL R210

def pwrRegs : List RegDef := pwrRegsA

def sysRegsA : List RegDef := [
  ⟨0, 1, 0x800, 1, 1, .pub, 0, 0, 0, 0, 0⟩,  -- SCL_ID R321
  ⟨4, 1, 0x800, 1, 1, .ten, 0, 0, 0, 0, 0⟩,  -- SCL_STATUS R321
  ⟨8, 1, 0x800, 1, 1, .prv, 0, 0, 0, 0x1f, 0⟩,  -- SCL_CTL R321
  ⟨0xc, 1, 0x800, 1, 1, .prv, 0xffffffff, 0, 0, 0, 0⟩,  -- SCL_PC R321
  ⟨0x10, 1, 0x800, 1, 1, .prv, 0xfffffffc, 0, 0, 0, 0⟩,  -- SCL_START R321
  ⟨0x14, 1, 0x800, 1, 1, .prv, 0x1fffc, 0, 0, 0, 0⟩,  -- SCL_MEM_ADDR R321
  ⟨0x18, 1, 0x800, 1, 1, .prv, 0xffffffff, 0, 0, 0, 0⟩,  -- SCL_MEM_DATA R321
  ⟨0x1c, 1, 0x800, 1, 1, .prv, 0xff, 0, 0, 0, 0⟩,  -- SCL_REG_SEL R321
  ⟨0x20, 1, 0x800, 4, 1, .prv, 0xffffffff, 0, 0, 0, 0⟩,  -- SCL_REG_DATA R321
  ⟨0x30, 1, 0x800, 1, 1, .ten, 0, 0x1ff, 0, 0, 0⟩,  -- SCL_EVENTS R321
  ⟨0x34, 1, 0x800, 1, 1, .ten, 3, 0, 0, 0, 0⟩,  -- SCL_SIG_EN R321
  ⟨0x38, 1, 0x800, 1, 1, .ten, 0, 0, 0, 0, 0⟩,  -- SCL_ECC R321
  ⟨0x3c, 1, 0x800, 1, 1, .prv, 0xffffff, 0, 0, 0, 0⟩,  -- SCL_WDOG R321
  ⟨0x40, 1, 0x800, 1, 1, .prv, 3, 0, 0, 0, 0⟩,  -- SCL_PORT_MAP R321
  ⟨0x44, 1, 0x800, 1, 1, .ten, 0, 0, 0, 0, 0⟩,  -- SCL_PORT_STATUS R321
  ⟨0x48, 1, 0x800, 2, 1, .ten, 0, 0, 0, 0, 0⟩,  -- SCL_INSTR R321
  ⟨0x400, 1, 0x800, 1, 256, .prv, 0xffffffff, 0, 0, 0, 0⟩,  -- SCL_MAILBOX R321
  ⟨0x800, 1, 0, 1, 1, .own, 0, 0, 0, 0, 0⟩,  -- SCL_SYS_ROLE R322
  ⟨0x804, 1, 0, 1, 1, .own, 0, 0, 0, 0, 0⟩,  -- SCL_SYS_FW R322
  ⟨0x808, 1, 0, 1, 1, .pub, 0, 0, 0, 0, 0⟩,  -- SCL_SYS_EPOCH R322
  ⟨0x840, 16, 4, 1, 1, .own, 0, 0, 0, 0, 0⟩]  -- SCL_SYS_ROLEDIR R322

def sysRegs : List RegDef := sysRegsA

def sealRegsA : List RegDef := [
  ⟨0, 1, 0, 1, 1, .pub, 0, 0, 0, 0, 0⟩,  -- CAT_SEAL_STATUS R280
  ⟨4, 1, 0, 1, 1, .own, 0, 0, 0, 0, 0⟩,  -- CAT_SEAL_KEYS R280
  ⟨8, 1, 0, 1, 1, .own, 0, 7, 0, 0, 0⟩,  -- CAT_SEAL_ERR R280
  ⟨0x40, 16, 8, 2, 1, .ten, 0, 0, 0, 0, 0⟩]  -- CAT_SEAL_BYTES R280

def sealRegs : List RegDef := sealRegsA

def scrubRegsA : List RegDef := [
  ⟨0, 1, 0, 1, 1, .own, 1, 0, 0, 0, 1⟩,  -- SCB_CTL R524
  ⟨4, 1, 0, 1, 1, .own, 0xffffff, 0, 0, 0, 0xc350⟩,  -- SCB_PASS R524
  ⟨8, 1, 0, 1, 1, .pub, 0, 0, 0, 0, 0⟩,  -- SCB_STATUS R524
  ⟨0xc, 1, 0, 1, 1, .own, 0, 0xf, 0, 0, 0⟩,  -- SCB_EVENTS R524
  ⟨0x10, 1, 0, 1, 1, .own, 0xf, 0, 0, 0, 0⟩,  -- SCB_SIG_EN R524
  ⟨0x14, 1, 0, 1, 1, .own, 0, 0, 0, 0, 0⟩,  -- SCB_PASSES R524
  ⟨0x18, 1, 0, 1, 1, .own, 0, 0, 0xffffffff, 0, 0⟩,  -- SCB_REPAIRS R524
  ⟨0x1c, 1, 0, 1, 1, .own, 0, 0, 0xffffffff, 0, 0⟩,  -- SCB_UPSETS R524
  ⟨0x20, 1, 0, 1, 1, .own, 0, 0, 0, 0, 0⟩,  -- SCB_LAST R524
  ⟨0x24, 1, 0, 1, 1, .own, 0, 0x80000000, 0, 0, 0⟩,  -- SCB_LAST_INFO R524
  ⟨0x40, 8, 4, 1, 1, .own, 0, 0, 0, 0, 0⟩,  -- SCB_UE R524
  ⟨0x100, 64, 4, 1, 1, .ten, 0, 0, 0, 0, 0⟩]  -- SCB_ISL R524

def scrubRegs : List RegDef := scrubRegsA

def nocRegsA : List RegDef := [
  ⟨0xf000, 1, 0, 1, 1, .pub, 0, 0, 0, 0, 0⟩,  -- NOC_NODE_INFO R360
  ⟨0xf004, 1, 0, 1, 1, .pub, 0, 0, 0, 0, 0⟩,  -- NOC_EPOCH R360
  ⟨0xf008, 1, 0, 1, 1, .own, 0xfffff, 0, 0, 0, 0x3e8⟩,  -- NOC_TIMEOUT R360
  ⟨0xf00c, 1, 0, 1, 1, .own, 0xfff, 0, 0, 0, 0x100⟩,  -- NOC_AGE R360
  ⟨0xf010, 1, 0, 1, 1, .own, 0xfffff, 0, 0, 0, 0x3e8⟩,  -- NOC_STAT_WIN R360
  ⟨0xf014, 1, 0, 1, 1, .ten, 0, 0x1ff, 0, 0, 0⟩,  -- NOC_EVENTS R360
  ⟨0xf018, 1, 0, 1, 1, .ten, 0, 0, 0xffffffff, 0, 0⟩,  -- NOC_DISCARDS R360
  ⟨0xf020, 1, 0, 2, 1, .own, 0, 0, 0, 0, 0⟩,  -- NOC_BAD_HDR R360
  ⟨0xf028, 1, 0, 1, 1, .own, 0, 0x80000000, 0, 0, 0⟩,  -- NOC_BAD_INFO R360
  ⟨0xf040, 16, 8, 1, 1, .own, 0, 0, 0, 0, 0x820400⟩,  -- NOC_BKT_CFG R360
  ⟨0xf044, 16, 8, 1, 1, .ten, 0, 0, 0, 0, 0x82⟩,  -- NOC_BKT_STATE R360
  ⟨0xf100, 256, 4, 1, 1, .pub, 0, 0, 0, 0, 0⟩,  -- NOC_EPOCH_TAB R360
  ⟨0xf500, 7, 4, 1, 1, .own, 0, 0, 0, 0, 0⟩,  -- NOC_RTR_UTIL R360
  ⟨0xf800, 32, 0x40, 1, 1, .ten, 0, 0, 0, 0, 0⟩,  -- NOC_ST_REQS R360
  ⟨0xf804, 32, 0x40, 1, 1, .ten, 0, 0, 0, 0, 0⟩,  -- NOC_ST_NP R360
  ⟨0xf808, 32, 0x40, 2, 1, .ten, 0, 0, 0, 0, 0⟩,  -- NOC_ST_BYTES R360
  ⟨0xf810, 32, 0x40, 1, 8, .ten, 0, 0, 0, 0, 0⟩,  -- NOC_ST_HIST R360
  ⟨0xf830, 32, 0x40, 1, 1, .ten, 0, 0, 0, 0, 0⟩,  -- NOC_ST_MAX R360
  ⟨0xf834, 32, 0x40, 1, 1, .ten, 0, 0, 0, 0, 0⟩]  -- NOC_ST_CUR R360

def nocRegs : List RegDef := nocRegsA

/-! Offsets by name (an array is named by its first element). -/
namespace R
def ISL_ID : Nat := 0x0
def ISL_OWNER : Nat := 0x4
def ISL_STATUS : Nat := 0x8
def ISL_PWR_CMD : Nat := 0xc
def ISL_CLK_REQ : Nat := 0x10
def ISL_CLK_LIMIT : Nat := 0x14
def ISL_CLK_NOW : Nat := 0x18
def ISL_SETUP_INFO : Nat := 0x1c
def ISL_EPOCH : Nat := 0x20
def ISL_SIG_CAUSE : Nat := 0x24
def ISL_SIG_EN : Nat := 0x28
def STK_STATUS : Nat := 0x1000
def STK_CTL : Nat := 0x1004
def STK_COUNT : Nat := 0x1008
def STK_LIMIT : Nat := 0x1010
def STK_HOLD : Nat := 0x1018
def STK_SETTLE : Nat := 0x1020
def STK_MON_CTL : Nat := 0x1024
def STK_MON_PORT : Nat := 0x1028
def STK_MON_STROKE : Nat := 0x102c
def STK_STALL_CFG : Nat := 0x1034
def STK_STALL_IN : Nat := 0x1038
def STK_STALL_OUT : Nat := 0x103c
def STK_EVENTS : Nat := 0x1040
def STK_WAIT_IN : Nat := 0x1044
def STK_WAIT_OUT : Nat := 0x1048
def STK_DCLK_EN : Nat := 0x104c
def STK_DCLK : Nat := 0x1080
def CAT_STATUS : Nat := 0x2000
def CAT_PRESERVE : Nat := 0x2004
def CAT_EVENTS : Nat := 0x2008
def CAT_LOG_CTL : Nat := 0x200c
def CAT_LOG_BASE : Nat := 0x2010
def CAT_LOG_SIZE : Nat := 0x2018
def CAT_LOG_HEAD : Nat := 0x201c
def CAT_LOG_TAIL : Nat := 0x2020
def CAT_LOG_SEQ : Nat := 0x2024
def CAT_REPLAY_END : Nat := 0x2028
def CAT_LAST_STROKE : Nat := 0x2030
def CAT_LAST_ID : Nat := 0x2038
def CAT_HOLD_CLOCKS : Nat := 0x203c
def MEM_CFG : Nat := 0x4000
def MEM_STATUS : Nat := 0x4004
def MEM_ECC_COUNT : Nat := 0x4008
def MEM_ECC_ADDR : Nat := 0x400c
def MEM_DBG_CTL : Nat := 0x4010
def MEM_DBG_XDATA : Nat := 0x4014
def MEM_PATROL : Nat := 0x4018
def QCT_CTL : Nat := 0x401c
def MEM_DBG_DATA : Nat := 0x4020
def QCT_SNAP : Nat := 0x4030
def QCT_THRESH : Nat := 0x4038
def QCT_FLAGS : Nat := 0x403c
def ARS_CFG : Nat := 0x6000
def ARS_OUT_CFG : Nat := 0x6004
def ARS_DET_CFG : Nat := 0x6008
def ARS_STATUS : Nat := 0x600c
def ARS_ACC : Nat := 0x6010
def ARS_MIN : Nat := 0x6020
def ARS_MAX : Nat := 0x6028
def ARS_MM_IDX : Nat := 0x6030
def ARS_MM_CNT : Nat := 0x6034
def ARS_BEXP : Nat := 0x6038
def XCH_XO_CFG : Nat := 0x8000
def XCH_XO_DEST : Nat := 0x8004
def XCH_XO_STATUS : Nat := 0x8008
def XCH_XO_WORDS : Nat := 0x800c
def XCH_XI_CFG : Nat := 0x8400
def XCH_XI_SRC : Nat := 0x8404
def XCH_XI_STATUS : Nat := 0x8408
def XCH_XI_DISCARDS : Nat := 0x840c
def XCH_XI_WORDS : Nat := 0x8410
def XCH_PEEK_CTL : Nat := 0x8800
def XCH_PEEK : Nat := 0x8804
def XCH_EVENTS : Nat := 0x8820
def XCH_DENIED_PORTS : Nat := 0x8824
def PWR_ISL_CURRENT : Nat := 0x9000
def PWR_ISL_POWER : Nat := 0x9004
def PWR_ISL_ENERGY : Nat := 0x9008
def PWR_ISL_TEMP : Nat := 0x9010
def PWR_ISL_ALARM : Nat := 0x9014
def PWR_ISL_CUR_LIMIT : Nat := 0x9018
def DBG_TRG_CTL : Nat := 0x7000
def DBG_TRG_COND : Nat := 0x7004
def DBG_TRG_COUNT : Nat := 0x7008
def DBG_TRG_ACTION : Nat := 0x700c
def DBG_TRG_STROKE : Nat := 0x7010
def DBG_TRG_STATUS : Nat := 0x7018
def DBG_TRG_CAPT : Nat := 0x7020
def DBG_CMP_CFG : Nat := 0x7100
def DBG_CMP_VAL : Nat := 0x7110
def DBG_CMP_MASK : Nat := 0x7120
def DBG_FF_SEL : Nat := 0x7400
def DBG_FF_DATA : Nat := 0x7408
def DBG_FRAME_SEL : Nat := 0x7410
def DBG_FRAME_DATA : Nat := 0x7420
def DBG_PROBE_SEL : Nat := 0x743c
def DBG_PROBE : Nat := 0x7440
def DBG_ACC_STATUS : Nat := 0x7450
def SCL_ID : Nat := 0x3000
def SCL_STATUS : Nat := 0x3004
def SCL_CTL : Nat := 0x3008
def SCL_PC : Nat := 0x300c
def SCL_START : Nat := 0x3010
def SCL_MEM_ADDR : Nat := 0x3014
def SCL_MEM_DATA : Nat := 0x3018
def SCL_REG_SEL : Nat := 0x301c
def SCL_REG_DATA : Nat := 0x3020
def SCL_EVENTS : Nat := 0x3030
def SCL_SIG_EN : Nat := 0x3034
def SCL_ECC : Nat := 0x3038
def SCL_WDOG : Nat := 0x303c
def SCL_PORT_MAP : Nat := 0x3040
def SCL_PORT_STATUS : Nat := 0x3044
def SCL_INSTR : Nat := 0x3048
def SCL_MAILBOX : Nat := 0x3400
def DDR_ID : Nat := 0x0
def DDR_STATUS : Nat := 0x4
def DDR_CTL : Nat := 0x8
def DDR_DEV_CFG : Nat := 0xc
def DDR_PAGE_CFG : Nat := 0x10
def DDR_REF_CFG : Nat := 0x14
def DDR_PATROL : Nat := 0x18
def DDR_PART : Nat := 0x1c
def DDR_AGE_0 : Nat := 0x20
def DDR_AGE_1 : Nat := 0x24
def DDR_AGE_2 : Nat := 0x28
def DDR_AGE_3 : Nat := 0x2c
def DDR_ECC_COUNT : Nat := 0x30
def DDR_ERR_ADDR : Nat := 0x34
def DDR_ERR_INFO : Nat := 0x3c
def DDR_EVENTS : Nat := 0x40
def DDR_SIG_EN : Nat := 0x44
def DDR_FRZ_INFO : Nat := 0x48
def DDR_FRZ_ADDR : Nat := 0x4c
def DDR_ZF_CMD : Nat := 0x54
def DDR_ZF_STATUS : Nat := 0x58
def DDR_TIM : Nat := 0x60
def DDR_SLOT : Nat := 0x80
def DDR_TEN_ERR : Nat := 0xc0
def DDR_POISON : Nat := 0x140
def DDR_TRN_CMD : Nat := 0x200
def DDR_TRN_ARG : Nat := 0x204
def DDR_TRN_RESULT : Nat := 0x210
def DDR_TRN_PAT : Nat := 0x220
def DDR_DLY_SEL : Nat := 0x230
def DDR_DLY_DATA : Nat := 0x234
def DDR_ISET_A : Nat := 0x300
def DDR_ISET_B : Nat := 0x304
def DDR_ISET_CTL : Nat := 0x340
def DDR_ZF_MASK : Nat := 0x400
def LNK_ID : Nat := 0x0
def LNK_CFG : Nat := 0x4
def LNK_CTL : Nat := 0x8
def LNK_STATUS : Nat := 0xc
def LNK_PEER_INFO : Nat := 0x10
def LNK_EVENTS : Nat := 0x14
def LNK_SIG_EN : Nat := 0x18
def LNK_RETRIES : Nat := 0x1c
def LNK_CRC_ERRS : Nat := 0x20
def LNK_FEC_CORR : Nat := 0x24
def LNK_FEC_UNCORR : Nat := 0x28
def LNK_PROXY : Nat := 0x2c
def LNK_SHARE : Nat := 0x30
def LNK_TX_FLITS : Nat := 0x40
def LNK_RX_FLITS : Nat := 0x48
def LNK_PEER_HASH : Nat := 0x80
def LNK_TX_MAP : Nat := 0x1000
def LNK_RX_MAP : Nat := 0x3000
def LANE_GRP_ID : Nat := 0x8000
def LANE_GRP_CFG : Nat := 0x8004
def LANE_PLL_MULT : Nat := 0x8008
def LANE_PLL_CFG : Nat := 0x800c
def LANE_PLL_STATUS : Nat := 0x8010
def LANE_CTL : Nat := 0x8100
def LANE_TX_COEF : Nat := 0x8104
def LANE_RX_CFG : Nat := 0x8108
def LANE_STATUS : Nat := 0x810c
def LANE_EVENTS : Nat := 0x8110
def LANE_SIG_EN : Nat := 0x8114
def LANE_TEST_CTL : Nat := 0x8118
def LANE_PRBS_ERR : Nat := 0x811c
def LANE_PRBS_BITS : Nat := 0x8124
def LANE_INJ_COUNT : Nat := 0x812c
def HIF_ID : Nat := 0x0
def HIF_LINK : Nat := 0x4
def HIF_BAR_CFG : Nat := 0x8
def HIF_EVENTS : Nat := 0xc
def HIF_MMIO_TIMEOUT : Nat := 0x10
def HIF_HOST_TIMEOUT : Nat := 0x14
def HIF_POLL : Nat := 0x18
def HIF_TAGS : Nat := 0x1c
def HIF_LANE_ERRS : Nat := 0x20
def HIF_NOTIFY_DROPS : Nat := 0x24
def HIF_VF_TENANT : Nat := 0x40
def HIF_BLK_MAP : Nat := 0x100
def HIF_FN_VEC : Nat := 0x200
def HIF_FN_ARB : Nat := 0x204
def HIF_HWIN_FN : Nat := 0x1000
def HIF_HWIN_BASE : Nat := 0x1008
def HIF_FN_STATUS : Nat := 0x2000
def HIF_CREW_SEL : Nat := 0x2004
def HIF_FN_ERR : Nat := 0x2008
def HIF_FN_ERR_ADDR : Nat := 0x200c
def HIF_FN_EVENTS : Nat := 0x2014
def HIF_FN_DB_IGNORED : Nat := 0x2018
def HIF_CH_SEL : Nat := 0x2020
def HIF_CH_CFG : Nat := 0x2024
def HIF_CH_SQ_BASE : Nat := 0x2028
def HIF_CH_CQ_BASE : Nat := 0x2030
def HIF_CH_TIMEOUT : Nat := 0x2038
def HIF_CH_CTL : Nat := 0x203c
def HIF_CH_STATE : Nat := 0x2040
def HIF_CH_PTRS : Nat := 0x2044
def HIF_CH_CQ : Nat := 0x2048
def HIF_CH_ERR : Nat := 0x204c
def HIF_CH_DONE : Nat := 0x2050
def HIF_MSIX_ADDR : Nat := 0x4000
def HIF_MSIX_UPPER : Nat := 0x4004
def HIF_MSIX_DATA : Nat := 0x4008
def HIF_MSIX_CTL : Nat := 0x400c
def HIF_PBA : Nat := 0xc000
def HIF_VEC_MOD : Nat := 0xd000
def COX_ID : Nat := 0x0
def COX_STATUS : Nat := 0x4
def COX_EVENTS : Nat := 0x8
def COX_SIG_EN : Nat := 0xc
def COX_ARC : Nat := 0x10
def COX_SYS_FW : Nat := 0x18
def COX_TEN_W0 : Nat := 0x48
def COX_TEN_W1 : Nat := 0x4c
def COX_TCNT : Nat := 0xc8
def COX_GMAP : Nat := 0x140
def COX_AK_PUB : Nat := 0x200
def COX_KK_PUB : Nat := 0x260
def COX_DEVHASH : Nat := 0x2c0
def COX_GRANT_W0 : Nat := 0x300
def COX_GRANT_W1 : Nat := 0x304
def COX_SVC_SEL : Nat := 0x400
def COX_SVC_CTL : Nat := 0x404
def COX_SVC_STATUS : Nat := 0x408
def COX_SVC_INFO : Nat := 0x40c
def COX_SVC_COUNT : Nat := 0x410
def FUS_DIE : Nat := 0x1000
def FUS_DEV : Nat := 0x1028
def FUS_POLICY : Nat := 0x102c
def FUS_COX_ARC : Nat := 0x1030
def FUS_LOCK : Nat := 0x1038
def FUS_OWNER_HASH : Nat := 0x1040
def FUS_OWNER_GP : Nat := 0x1100
def FUS_VALID : Nat := 0x1120
def COX_MBX_CTL : Nat := 0x4000
def COX_MBX_LEN : Nat := 0x4004
def COX_MBX_ADDR : Nat := 0x4008
def COX_MBX_XLEN : Nat := 0x4010
def COX_MBX_DATA : Nat := 0x4400
def CFG_STATUS : Nat := 0x0
def CFG_CTL : Nat := 0x4
def CFG_ABORT : Nat := 0x8
def CFG_ABORT_OFF : Nat := 0xc
def CFG_WORDS : Nat := 0x14
def CFG_CACHE_CFG : Nat := 0x1c
def CFG_EVENTS : Nat := 0x20
def CFG_SIG_EN : Nat := 0x24
def CFG_FLASH_CMD : Nat := 0x1000
def CFG_FLASH_ADDR : Nat := 0x1004
def CFG_FLASH_ID : Nat := 0x1008
def CFG_FLASH_BUF : Nat := 0x1100
def IO_BANK_STATUS : Nat := 0x2000
def IO_BANK_CTL : Nat := 0x2004
def IO_EVENTS : Nat := 0x2400
def IO_SIG_EN : Nat := 0x2404
def CRW_ID : Nat := 0x4000
def CRW_EVENTS : Nat := 0x4004
def CRW_CMD_TIMEOUT : Nat := 0x4008
def CRW_TIME_CFG : Nat := 0x4010
def CRW_TIME_STATUS : Nat := 0x4014
def CRW_TIME_OFFSET : Nat := 0x4018
def CRW_DTIME : Nat := 0x4020
def CRW_DTIME_SET : Nat := 0x4028
def CRW_MSG : Nat := 0x4080
def CRW_CMD_CTL : Nat := 0x4100
def CRW_CMD_DEVS : Nat := 0x4108
def CRW_CMD_TABLE : Nat := 0x4110
def CRW_CMD_ARG : Nat := 0x4118
def CRW_CMD_RESULT : Nat := 0x4120
def CRW_CMD_N : Nat := 0x4128
def CRW_ROUTE : Nat := 0x4600
def CRW_DEV_EPOCH : Nat := 0x4800
def CRW_LP_EPOCH : Nat := 0x5000
def CFG_ISL_HASH : Nat := 0x6000
def DBG_HUB_ID : Nat := 0x0
def DBG_HUB_STATUS : Nat := 0x4
def DBG_HUB_EVENTS : Nat := 0x8
def DBG_HALT_CTL : Nat := 0x100
def DBG_HALT_CFG : Nat := 0x104
def DBG_HALT_STATUS : Nat := 0x108
def DBG_FOH : Nat := 0x10c
def DBG_ATTACHED : Nat := 0x110
def DBG_XTRG_STATUS : Nat := 0x114
def DBG_XTRG_N : Nat := 0x118
def DBG_XTRG_MASK : Nat := 0x400
def DBG_AP_CTL : Nat := 0x1000
def DBG_AP_SESS : Nat := 0x1004
def DBG_AP_ADDR : Nat := 0x1008
def DBG_AP_DATA : Nat := 0x1010
def SIG_MODE : Nat := 0x0
def SIG_STATUS : Nat := 0x4
def SIG_EVENTS : Nat := 0x8
def SIG_HOST_CFG : Nat := 0xc
def SIG_GRP_CFG : Nat := 0x100
def SIG_GRP_STATUS : Nat := 0x104
def SIG_TGT_GRP : Nat := 0x400
def SIG_SRC_CFG : Nat := 0x2000
def SIG_SUM : Nat := 0x6000
def SIG_PEND_SEL : Nat := 0x6010
def SIG_PEND : Nat := 0x6014
def SIG_CLAIM : Nat := 0x6018
def SIG_CLAIM_RESULT : Nat := 0x601c
def SIG_DONE : Nat := 0x6020
def SIG_TGT_STATUS : Nat := 0x6024
def LOG_CFG : Nat := 0x0
def LOG_CTL : Nat := 0x4
def LOG_STATUS : Nat := 0x8
def LOG_EVENTS : Nat := 0xc
def LOG_SIG_EN : Nat := 0x10
def LOG_NEXT_SEQ : Nat := 0x14
def LOG_FIRST_SEQ : Nat := 0x18
def LOG_CIRC_OLDEST : Nat := 0x1c
def LOG_FLASH_SEQ : Nat := 0x20
def LOG_CLASS_BUDGET : Nat := 0x40
def LOG_RD_SEQ : Nat := 0x80
def LOG_RD_INFO : Nat := 0x84
def LOG_RD_DATA : Nat := 0xa0
def LOG_WR : Nat := 0x100
def LOG_RATE : Nat := 0x800
def PWR_DEV_STATE : Nat := 0x0
def PWR_DEV_CTL : Nat := 0x4
def PWR_DEV_POWER : Nat := 0x8
def PWR_CAP : Nat := 0xc
def PWR_NONISL_BUDGET : Nat := 0x10
def PWR_RAIL : Nat := 0x14
def PWR_TEN_POWER : Nat := 0x40
def PWR_TEN_CAP : Nat := 0x80
def PWR_THERM_CFG : Nat := 0xc0
def PWR_THERM_STATUS : Nat := 0xc4
def PWR_ALARM : Nat := 0xc8
def PWR_EMERG_CFG : Nat := 0xcc
def PWR_TS : Nat := 0x100
def PWR_DPLL_CTL : Nat := 0x200
def PWR_DPLL_FRAC : Nat := 0x204
def PWR_DPLL_DIV : Nat := 0x208
def PWR_DPLL_STATUS : Nat := 0x20c
def PWR_GC_SEL : Nat := 0x300
def SYS_SCL_ID : Nat := 0x0
def SYS_SCL_STATUS : Nat := 0x4
def SYS_SCL_CTL : Nat := 0x8
def SYS_SCL_PC : Nat := 0xc
def SYS_SCL_START : Nat := 0x10
def SYS_SCL_MEM_ADDR : Nat := 0x14
def SYS_SCL_MEM_DATA : Nat := 0x18
def SYS_SCL_REG_SEL : Nat := 0x1c
def SYS_SCL_REG_DATA : Nat := 0x20
def SYS_SCL_EVENTS : Nat := 0x30
def SYS_SCL_SIG_EN : Nat := 0x34
def SYS_SCL_ECC : Nat := 0x38
def SYS_SCL_WDOG : Nat := 0x3c
def SYS_SCL_PORT_MAP : Nat := 0x40
def SYS_SCL_PORT_STATUS : Nat := 0x44
def SYS_SCL_INSTR : Nat := 0x48
def SYS_SCL_MAILBOX : Nat := 0x400
def SCL_SYS_ROLE : Nat := 0x800
def SCL_SYS_FW : Nat := 0x804
def SCL_SYS_EPOCH : Nat := 0x808
def SCL_SYS_ROLEDIR : Nat := 0x840
def CAT_SEAL_STATUS : Nat := 0x0
def CAT_SEAL_KEYS : Nat := 0x4
def CAT_SEAL_ERR : Nat := 0x8
def CAT_SEAL_BYTES : Nat := 0x40
def SCB_CTL : Nat := 0x0
def SCB_PASS : Nat := 0x4
def SCB_STATUS : Nat := 0x8
def SCB_EVENTS : Nat := 0xc
def SCB_SIG_EN : Nat := 0x10
def SCB_PASSES : Nat := 0x14
def SCB_REPAIRS : Nat := 0x18
def SCB_UPSETS : Nat := 0x1c
def SCB_LAST : Nat := 0x20
def SCB_LAST_INFO : Nat := 0x24
def SCB_UE : Nat := 0x40
def SCB_ISL : Nat := 0x100
def NOC_NODE_INFO : Nat := 0xf000
def NOC_EPOCH : Nat := 0xf004
def NOC_TIMEOUT : Nat := 0xf008
def NOC_AGE : Nat := 0xf00c
def NOC_STAT_WIN : Nat := 0xf010
def NOC_EVENTS : Nat := 0xf014
def NOC_DISCARDS : Nat := 0xf018
def NOC_BAD_HDR : Nat := 0xf020
def NOC_BAD_INFO : Nat := 0xf028
def NOC_BKT_CFG : Nat := 0xf040
def NOC_BKT_STATE : Nat := 0xf044
def NOC_EPOCH_TAB : Nat := 0xf100
def NOC_RTR_UTIL : Nat := 0xf500
def NOC_ST_REQS : Nat := 0xf800
def NOC_ST_NP : Nat := 0xf804
def NOC_ST_BYTES : Nat := 0xf808
def NOC_ST_HIST : Nat := 0xf810
def NOC_ST_MAX : Nat := 0xf830
def NOC_ST_CUR : Nat := 0xf834
end R

end Sys2Proof.Machine
end

