-- ==== Sys2Proof/Config.lean ====
section
/-! DEFINITION. What the spec leaves open: opaque constants that nothing can evaluate. A value the spec calls undefined,
indeterminate or does not state is one of these, applied to the model's counter `Dev.free` (a fresh value at each draw) or to
the operands it depends on; cryptographic functions whose algorithms the spec names but does not define are opaque functions
of their inputs. -/

namespace Sys2Proof.Config

/-- An undefined value as a natural number; a field of w bits takes it modulo 2^w. DESIGN CHOICE: log entry 8. -/
opaque freeNat : Nat → Nat

/-- The undefined value of one net at one moment: by the counter and the net's number. DESIGN CHOICE: log entry 8. -/
opaque freeBit : Nat → Nat → Bool

/-- SHA-384 of a byte string given as a number and its length (R263, R505, R509, R527): the spec names the algorithm.
DESIGN CHOICE: log entry 9. -/
opaque sha384 : Nat → Nat → BitVec 384

/-- HMAC-SHA-384 of a byte string under a key, each given as a number, byte 0 lowest, and its length (R528). DESIGN CHOICE: log entry 9. -/
opaque hmacSha384 : Nat → Nat → Nat → Nat → BitVec 384

/-- Unit k of the key stream of AES-256-GCM under a key and an IV: the XOR of plaintext and ciphertext (R528). DESIGN CHOICE: log entry 9. -/
opaque gcmStream : BitVec 256 → BitVec 96 → Nat → W128

/-- The tag of AES-256-GCM: key, IV, additional data and ciphertext, each as a number and its length (R528). DESIGN CHOICE: log entry 9. -/
opaque gcmTag : BitVec 256 → BitVec 96 → Nat → Nat → Nat → Nat → W128

/-- HKDF-SHA-384 to 32 bytes: IKM, salt, info as a number and its length (R528, R544). DESIGN CHOICE: log entry 9. -/
opaque hkdfSha384 : BitVec 384 → BitVec 384 → Nat → Nat → BitVec 256

/-- P-384 (R528): the order n of its base point; d × G, x then y, byte 0 lowest; the x-coordinate of d × Q. DESIGN CHOICE: log entry 9. -/
opaque p384Order : Nat
/-- DESIGN CHOICE: log entry 9. -/
opaque p384Base : Nat → BitVec 768
/-- DESIGN CHOICE: log entry 9. -/
opaque p384Mul : Nat → BitVec 768 → BitVec 384

/-- The device secret of the fuses (R529): no command, register or debug path reads it. DESIGN CHOICE: log entry 9. -/
opaque deviceSecret : BitVec 256

/-- ECDSA on P-384 (R528): public key, digest, signature. DESIGN CHOICE: log entry 9. -/
opaque ecdsaOk : BitVec 768 → BitVec 384 → BitVec 768 → Bool

/-- A 48-byte value from the DRBG (R547), by the counter of free values. DESIGN CHOICE: log entry 9. -/
opaque nonce : Nat → BitVec 384
/-- The ECDSA signature r, s of a digest under a private scalar, with the value drawn for it (R528, R549). DESIGN CHOICE: log entry 9. -/
opaque ecdsaSign : Nat → BitVec 384 → Nat → BitVec 768

/-- Words of a memory that the model does not hold, by the counter of free values. DESIGN CHOICE: log entry 8. -/
opaque freeWord : Nat → Nat → W128

end Sys2Proof.Config
end

