-- ==== Sys2Proof/Machine/State.lean ====
section
/-! DEFINITION. The state of the device as plain data: everything the spec gives it, unit by unit, and the queue of waiting
commands. A table (Tab) lists only what differs from its default, so that a state can be written out and compared.
Registers that software can see live in `Dev.regs`, one home each; hidden state lives in the structures below. -/

namespace Sys2Proof.Machine

/-- Why a step stops the machine. No command of this device stops it: every rule of the spec answers, refuses by status,
or completes. The constructor is here so that the type is closed and not empty; nothing raises it. Safe. -/
inductive Fault where
  | unreachable
deriving DecidableEq, Repr

/-- Why a command has no meaning. `notModelled` names a row of the opcode table whose arm is not written yet; raised only
in Machine/Dispatch.lean. Safe: it stops where the device would go on. -/
inductive Refusal where
  | notModelled (mnemonic : String)
deriving DecidableEq, Repr

/-- Who waits for a region, catch or restore command: a channel, a crew command slot, a crew message of an issuing device, a
cross-trigger or debug halt of a principal, Standby, a mailbox slot (R238, R241, R445, R542, R572). -/
inductive Origin where
  | channel (c : Nat)
  | slot (t : Nat)
  | message (dev slot id : Nat)
  | xtrigger (t : Nat)
  | halt (t : Nat)
  | standby
  | mailbox (s : Nat)
deriving DecidableEq, Repr

/-- Something the device sent out: the model's own record of its outputs, newest first in `Dev.out`. -/
inductive Emit where
  /-- a NoC packet leaving its node (R328) -/
  | pkt (p : Pkt)
  /-- a request of a unit of the hub or a scrub unit that is answered inside the command that makes it -/
  | asked (p : Pkt)
  /-- an event record on its way to the log (R593) -/
  | ev (e : Ev)
  /-- the answer to a register access command: register node and offset, status, value read -/
  | ans (r : Req) (node off : Nat) (st : Status) (v : Word)
  /-- a packet forwarded by router `r` through output port `port` (R337) -/
  | routed (r port : Nat) (p : Pkt)
  /-- a word on a neighbour path: from island, to island, XI port, tenant, epoch, tag, word (R218, R221) -/
  | nbrWord (src dst port tenant epoch tag : Nat) (free : Bool) (w : W128)
  /-- acknowledgement and credit on a neighbour path to XO `port` of island `dst` (R220) -/
  | nbrAck (src dst port acked credits : Nat)
  /-- the pins of a bank change: levels and enables (R231) -/
  | pins (bank : Nat) (level enable : BitVec 48)
  /-- a region, catch or restore command ended: who waits, status, N -/
  | complete (o : Origin) (st : Status) (n : W64)
  /-- a PCIe read completion or write to the host, per function: tag or address and bytes -/
  | pcieRead (fn tag : Nat) (v : Word)
  | pcieData (fn tag off : Nat) (data : List Byte)
  | hostWrite (fn addr : Nat) (data : List Byte)
  | hostRead (fn addr len tag : Nat)
  | msix (fn vec : Nat) (addr : W64) (data : Word)
  /-- a power management event of a function (R482) -/
  | pme (fn : Nat)
  /-- an initiator's request completed locally or by response: node, unit, tag, status, data -/
  | done (node unit tag : Nat) (st : Status) (data : List W128)
  /-- a link flit, a training action, a lane word -/
  | flit (link : Nat) (f : Flit)
  | linkTrain (link : Nat)
  | trainFrame (link lane : Nat) (f : BitVec 288)
  | laneWord (lane : Nat) (w : W128)
  /-- a crew message of a type to a device (R446) -/
  | crew (dev kind : Nat) (m : CrewMsg)
  /-- a command to a DRAM device of channel `n` (R381) -/
  | dramCmd (n op rank arg : Nat)
  /-- a JTAG or debug answer -/
  | jtag (w : W64)
  /-- a pin of the package: name code and level (THERMTRIP_N, CFG_ERR_N and so on) -/
  | pin (name : Nat) (level : Bool)
  /-- bytes written to boot flash: chip select, address -/
  | flashOp (cs op addr : Nat) (data : List Byte)
  /-- the log as copied to the end of the CS0 boot flash, and whether the copy succeeded (R602) -/
  | flashLog (ok : Bool) (slots : List LogSlot)
deriving DecidableEq, Repr

/-! ### The packet network (R324 to R360) -/

/-- An outstanding non-posted request of an initiator (R342, R344): node, unit, tag, command, address, Answer units. -/
structure Outst where
  node : Nat
  unit : Nat
  tag : Nat
  cmd : Nat
  addr : Nat
  answer : Nat
deriving DecidableEq, Repr

/-- A packet held at a router output, its input port and whether it has aged (R340). -/
structure Waiting where
  router : Nat
  inPort : Nat
  outPort : Nat
  aged : Bool
  pkt : Pkt
deriving DecidableEq, Repr

/-- One initiator unit's statistics counts in the current window (R355). -/
structure StatAcc where
  reqs : Nat := 0
  np : Nat := 0
  bytes : Nat := 0
  hist : List Nat := [0, 0, 0, 0, 0, 0, 0, 0]
  max : Nat := 0
deriving DecidableEq, Repr

/-- The fabric NoC port of an island (R345 to R348): responses held and the header of the request being taken. -/
structure FabPort where
  inHdr : Option W128 := none
  inData : List W128 := []
  /-- beats of held responses: (header?, unit, last) -/
  beats : List (Bool × W128 × Bool) := []
  hdrs : Nat := 0
  units : Nat := 0
deriving DecidableEq, Repr

structure Noc where
  outst : List Outst := []
  /-- timed-out tags kept out of use: (node, unit, tag) (R344) -/
  quarantine : List (Nat × Nat × Nat) := []
  waiting : List Waiting := []
  /-- requests of a node's units not yet injected: (node, unit, packet), oldest first (R357) -/
  inject : List (Nat × Nat × Pkt) := []
  /-- the input port last served, by (router × 8 + output) × 4 + class (R340) -/
  lastIn : Tab Nat := []
  /-- injection buckets, in 1/5,120 of a token, by node × 16 + tenant (R357); reset 130 tokens -/
  bucket : Tab Int := []
  /-- statistics counts by node × 32 + unit -/
  stat : Tab StatAcc := []
  /-- units sent by router output, by router × 8 + port, in the current window (R360) -/
  util : Tab Nat := []
  /-- headers of DRAM requests injected and not yet arrived, and of those injected under an earlier interleave table, with it (R365) -/
  flight : List W128 := []
  flightOld : List (W128 × List (Nat × Nat × Nat × Nat)) := []
deriving DecidableEq, Repr

/-! ### Block memories and queue controllers (R122 to R163) -/

/-- A ring push accepted and not yet released: entries, entries written, the request to answer (R152, R154). -/
structure Push where
  n : Nat
  written : Nat
  req : Pkt
deriving DecidableEq, Repr

/-- One port's read latch and output register with their error reports (R128, R131). -/
structure BramPort where
  latch : Row := 0
  latchErr : BitVec 2 := 0
  outReg : Row := 0
  outErr : BitVec 2 := 0
deriving DecidableEq, Repr

structure Bram where
  /-- MEM_CFG (R162), from the frames and MEMORY_INIT -/
  cfg : Word := 0
  portA : BramPort := {}
  portB : BramPort := {}
  /-- pointers with wrap bit (R148), entries the read side can pop, accepted entries not yet released -/
  rd : Nat := 0
  wr : Nat := 0
  level : Nat := 0
  pending : Nat := 0
  pushes : List Push := []
  /-- data units of accepted pushes not yet written -/
  incoming : List W128 := []
  /-- ring from fabric: entries popped and not yet visible as space to the design (R154) -/
  freed : Nat := 0
  /-- synchroniser stages of the write and the read pointer (R148) -/
  wrSync : List Nat := [0, 0, 0]
  rdSync : List Nat := [0, 0, 0]
  /-- registered flags (R148) -/
  emptyF : Bool := true
  fullF : Bool := false
  aemptyF : Bool := true
  afullF : Bool := false
  /-- halves waiting for ECC write-back: row × 2 + half (R136) -/
  writeBack : List Nat := []
  patrolRow : Nat := 0
  /-- rows already drained during a catch (bit per row) (R257) -/
  drained : BitVec 512 := 0
  outOfService : Bool := false
  /-- operation granted through MEM_DBG_CTL and not yet served -/
  dbgBusy : Bool := false
  /-- the last edge of one port alone outside a stroke: the port, its word address, whether it wrote, and when (R130) -/
  lastEdge : Option (Bool × Nat × Bool × W64) := none
deriving DecidableEq, Repr

/-! ### Arithmetic slices (R164 to R188) -/

structure Slice where
  cfg : Word := 0
  outCfg : Word := 0
  detCfg : Word := 0
  a : BitVec 36 := 0
  b : BitVec 36 := 0
  d : BitVec 36 := 0
  c : BitVec 64 := 0
  /-- control values in flight at the input, M, ACC and P stages, 16 bits each (R267) -/
  flIn : BitVec 16 := 0
  flM : BitVec 16 := 0
  flAcc : BitVec 16 := 0
  flP : BitVec 16 := 0
  m : BitVec 73 := 0
  /-- the addend travelling with M -/
  cM : BitVec 64 := 0
  acc : BitVec 128 := 0
  accOvf : Bool := false
  accOvf1 : Bool := false
  p : BitVec 64 := 0
  satOut : Bool := false
  ovfOut : Bool := false
  min : BitVec 64 := 0
  max : BitVec 64 := 0
  minIdx : BitVec 16 := 0
  maxIdx : BitVec 16 := 0
  /-- MIN_IDX and MAX_IDX as presented with P (R180) -/
  minIdxOut : BitVec 16 := 0
  maxIdxOut : BitVec 16 := 0
  count : BitVec 16 := 0
  valid : Bool := false
  blkCount : BitVec 16 := 0
  runMin : BitVec 7 := 0
  exp : BitVec 7 := 0
  expValid : Bool := false
  expPulse : Bool := false
  outOfService : Bool := false
deriving DecidableEq, Repr

/-! ### Crossing ports, strokes, catch and the input log (R211 to R281) -/

structure XiPort where
  /-- accepted words not yet presented, each with its consumer stroke (R217, R219) -/
  buf : List (Nat × W128) := []
  expect : Nat := 0
  got : Nat := 0
  /-- words presented at the last step 2 -/
  shown : List W128 := []
  valid : BitVec 8 := 0
  /-- credits owed for words discarded in replay (R233) -/
  owed : Nat := 0
  /-- words of strokes below this one are preload and hold no credit (R217, R219) -/
  preUntil : Nat := 0
deriving DecidableEq, Repr

structure XoPort where
  outst : Nat := 0
  undel : Nat := 0
  /-- words sampled at the last step 4, each with its place in the stroke, and those of them not yet sent -/
  last : List (Nat × W128) := []
  toSend : List W128 := []
  /-- joined-mode free channel: words pushed and not yet sent -/
  fifo : List W128 := []
deriving DecidableEq, Repr

/-- A closed log block in its staging buffer (R272, R274): its number, its records, how many strokes it and the blocks before it cover,
the 256 units it is sealed into, and the status of a write of it that failed. -/
structure LogBlk where
  num : Nat
  recs : List LogRec
  covered : Nat
  units : List W128 := []
  bad : Option Status := none
deriving DecidableEq, Repr

structure IslLog where
  openRecs : List LogRec := []
  staging : List LogBlk := []
  sinceClose : Nat := 0
  /-- a close is due once a block and a buffer are free: strokes it covers (R272, R274) -/
  closeDue : Option Nat := none
  /-- block whose write failed and is retried, and the status it failed with (R275) -/
  failed : Option LogBlk := none
  failedSt : Status := .ok
  /-- the next pin sample is logged whatever it is (R273) -/
  forcePin : Bool := true
  lastPin : Tab (BitVec 48) := []
deriving DecidableEq, Repr

/-- Replay state of an island (R276). -/
structure Replay where
  recs : List LogRec := []
  covered : Nat := 0
  /-- seq expected next; none until the CATCH_MARK is found -/
  nextSeq : Option Nat := none
  markId : Nat := 0
  markSeq : Nat := 0
  nextBlk : Nat := 0
  searched : Nat := 0
  fin : W64 := 0
  /-- the caught island and its device, which the block headers name -/
  srcIsland : Nat := 0
  srcDevice : Nat := 0
  /-- block nextBlk is being read, and the status of a read of it that failed -/
  reading : Bool := false
  readBad : Option Status := none
deriving DecidableEq, Repr

/-- The shadow nodes of an island: its section as copied at one stroke boundary, with the rows drained so far (R255). -/
structure Shadow where
  catchId : Nat
  sec : ImgSection
  /-- parts of the section read from the shadow nodes so far, of 5 (R258) -/
  part : Nat := 0
  /-- preserve buffer: (memory, row number, row) (R257) -/
  preserve : List (Nat × Nat × Row) := []
  /-- rows overwritten with no entry free, memory × 512 + row: what the image holds of them is open -/
  spoiled : List Nat := []
deriving DecidableEq, Repr

inductive IslState where
  | idle | loaded | running | feathered | catching | restoring | sleep | evicting
deriving DecidableEq, Repr

/-- What ISLAND_SETUP loads and no register holds (R502). -/
structure Setup where
  fabricRoute : Bool := false
  groupId : BitVec 6 := 0
  gcMask : BitVec 16 := 0
  fClose : Nat := 0
  nocPort : Bool := false
  laneAttach : Bool := false
  catchPeers : BitVec 16 := 0
  run0 : Bool := false
  run1 : Bool := false
  /-- the peer tenant that each XO port names (R54) -/
  xoPeers : List Nat := []
deriving DecidableEq, Repr

/-- A port set of engine ports: staging entries (first port, words), up FIFOs by port, D_DATA (R306, R307). -/
structure PortSet where
  staging : List (Nat × List W128) := []
  /-- joined mode: words of the head entry already taken (R309) -/
  taken : BitVec 16 := 0
  /-- words sampled at step 4 whose up FIFO is full: (port, word) (R307) -/
  upPend : List (Nat × W128) := []
  /-- the stroke those words were sampled in -/
  upStroke : W64 := 0
  up : Tab (List (W128 × W64)) := []
  down : Tab W128 := []
  downValid : BitVec 16 := 0
  /-- joined mode: entries that have left, words taken by the engine by port, and what each port's synchroniser of two edges shows of
  the entries appended and of the words taken (R309) -/
  gone : Nat := 0
  pops : Tab Nat := []
  seen : Tab (Nat × Nat) := []
  popSeen : Tab (Nat × Nat) := []
deriving DecidableEq, Repr

structure Island where
  state : IslState := .idle
  count : W64 := 0
  phase : Nat := 0
  atLimit : Bool := false
  atHold : Bool := false
  monOn : Bool := false
  /-- the re-sample of the current stroke has been taken (R235) -/
  monDone : Bool := false
  /-- pairs whose SR was sampled asserted at step 4, as cluster × 16 + pair (R81) -/
  srSet : List Nat := []
  /-- words driven to the pins, sampled at step 4 (R231) -/
  pinWords : List (Nat × W128) := []
  waitReported : Bool := false
  /-- group clocks gated at this island's cluster clock lines (R243) -/
  gated : Bool := false
  drainActive : Bool := false
  prBusy : Bool := false
  cacheValid : Bool := false
  throttleOc : Bool := false
  throttleTh : Bool := false
  clkClamped : Bool := false
  fEff : Nat := 0
  sleepEmulated : Bool := false
  /-- asleep: the state slept from, and whether the power domain is gated (R197) -/
  sleptFrom : IslState := .idle
  powerGated : Bool := false
  wireRegs : Tab Bool := []
  /-- waking: power is up and the reload from the cache is awaited (R198) -/
  waking : Bool := false
  /-- energy below one µJ not yet counted, in 0.01 µJ (R201) -/
  energyFrac : Nat := 0
  xi : Tab XiPort := []
  xo : Tab XoPort := []
  log : IslLog := {}
  replay : Option Replay := none
  shadow : Option Shadow := none
  preserveHold : Bool := false
  logHold : Bool := false
  logWait : Bool := false
  logEverOn : Bool := false
  setup : Setup := {}
  ps0 : PortSet := {}
  ps1 : PortSet := {}
  fab : FabPort := {}
  /-- configuration hash (R509) -/
  hash : BitVec 384 := 0
  zeroising : Bool := false
  /-- the trigger unit is armed; probe samples by port (R569, R571) -/
  armed : Bool := false
  probe : Tab W128 := []
  /-- samples taken since arming, and whether term A has been true in one of them -/
  trgSamples : Nat := 0
  trgA : Bool := false
  /-- matches still needed (R571) -/
  trgNeed : Nat := 0
  /-- a state access awaiting service: 1 FF read, 2 FF write, 3 frame read-back, 4 ACC access (R568) -/
  stateAccess : Nat := 0
  /-- island clocks inserted at this boundary for state accesses (R568) -/
  inserted : Nat := 0
  /-- feathered by Standby entry, by a debug halt (R205, R575) -/
  featheredByStandby : Bool := false
  featheredByHalt : Bool := false
  /-- the frame being written by a partial reconfiguration, blank until loaded again -/
  touched : Bool := false
  /-- the sections of its loads, as a new START applies them (R158, R217, R271): type and body -/
  inits : List (Nat × List W128) := []
deriving DecidableEq, Repr

/-- A frame's configuration nodes: the logical content, the nodes of planes A and B disturbed, and the disturbance of the
two copies of the reference code (R85, R518). -/
structure FrameNodes where
  bits : Frame := 0
  badA : Frame := 0
  badB : Frame := 0
  refBadA : BitVec 13 := 0
  refBadB : BitVec 13 := 0
deriving DecidableEq, Repr

/-- Region operations (R238). -/
inductive RegionOp where
  | feather | resume | limit | step | catchAt
deriving DecidableEq, Repr

/-- A region command in progress (R238). -/
structure RegionCmd where
  op : RegionOp
  tenant : Nat
  islands : List Nat
  arg : W64
  /-- each island's bound before the command -/
  saved : List (Nat × W64)
  /-- the decided N; none while collecting -/
  n : Option W64
  origin : Origin
  /-- how it ended, once it has -/
  ended : Option Status
  /-- crew-wide: N comes from the issuing device (R241); this device has reported its highest count -/
  crew : Bool
  counted : Bool := false
  /-- it has reported every island FEATHERED at N and quiet -/
  atN : Bool := false
deriving DecidableEq, Repr

/-- An island of an image being written: the flags of its directory entry and island record, the seq of its CATCH_MARK, its
configuration hash, the offset and length of its section, and whether that has been drained (R263 to R265). -/
structure ImgEnt where
  isl : Nat
  wire : Bool
  joined : Bool
  logOn : Bool
  ue : Bool
  seq : Nat
  hash : BitVec 384
  off : Nat
  len : Nat
  drained : Bool
deriving DecidableEq, Repr

/-- An image being written: its owner tag, address, catch_id, the value drawn for its IVs, and its islands, ascending (R253, R263, R266). -/
structure ImgPlan where
  tenant : Nat
  addr : Nat
  id : Nat
  rnd : W64
  ents : List ImgEnt
deriving DecidableEq, Repr

/-- What a request of a seal unit serves: an image of a catch, or the image of a restore, by the command's waiter and islands; a block of
an island's log, by its number; the log block that an island's replay reads. -/
inductive SealUse where
  | image (o : Origin) (l : List Nat)
  | restore (o : Origin) (l : List Nat)
  | log (i num : Nat)
  | replay (i : Nat)
deriving DecidableEq, Repr

/-- A unit of at most 4 KiB that waits for its turn in the seal unit of quarter `q` (R262): the tenant served, the tenant field, the
address, the sealed units to write, or how many are to be read, and the bytes sealed or unsealed. -/
structure SealJob where
  q : Nat
  owner : Nat
  tenant : Nat
  addr : Nat
  data : List W128
  reads : Nat := 0
  bytes : Nat
  use : SealUse
deriving DecidableEq, Repr

/-- A catch or restore in progress on this device (R254, R270). -/
structure CatchCmd where
  restore : Bool
  /-- the issuer -/
  tenant : Nat
  islands : List Nat
  base : Nat
  origin : Origin
  stay : Bool := false
  replay : Bool := false
  crew : Bool := false
  n : W64 := 0
  copied : Bool := false
  resumed : Bool := false
  /-- islands whose drain has ended -/
  ended : List Nat := []
  /-- images being written, and DTIME at the shadow copy -/
  images : List ImgPlan := []
  dtime : W64 := 0
  /-- the final headers are on their way; a write or read was answered with another status than OK -/
  final : Bool := false
  bad : Option Status := none
  /-- a restore's image, target island by directory entry, and E -/
  image : Option CatchImage := none
  fin : W64 := 0
deriving DecidableEq, Repr

/-- A command that has ended and whose issuer has not taken the outcome yet: who waits, status, N (R238, R254, R270). -/
structure Finished where
  origin : Origin
  status : Status
  n : W64
deriving DecidableEq, Repr

/-! ### Serial lanes (R392 to R414) -/

structure Lane where
  /-- transmit FIFO: word and word clocks still to pass before the lane sees it (R408) -/
  tx : List (Nat × W128) := []
  /-- receive FIFO: word and CL0 edges still to pass before the design sees it -/
  rx : List (Nat × W128) := []
  /-- space freed in the transmit FIFO not yet seen by the design, in the receive FIFO not yet seen by the lane: edges left -/
  txFreed : List Nat := []
  rxFreed : List Nat := []
  /-- word boundary position in bits after the first received word's (R409), where the last word ended, and the received word before -/
  slip : Nat := 0
  rxAt : Nat := 0
  rxPrev : W128 := 0
  /-- generator register and bits generated since it was turned on (R400) -/
  gen : Nat := 0
  genBits : Nat := 0
  /-- inverted bits asked for and not yet sent: single (counted when sent), periodic (counted already) (R401) -/
  injSingle : Bool := false
  injPeriodic : Nat := 0
  /-- checker: received bits, newest at bit 0, how many, matches in a row, mismatch marks of the last 64 bits (R400) -/
  chk : BitVec 31 := 0
  chkHave : Nat := 0
  chkRun : Nat := 0
  chkMiss : BitVec 64 := 0
deriving DecidableEq, Repr

/-! ### Scull engines (R282 to R323) -/

structure Engine where
  /-- run state as SCL_STATUS codes it: 0 held in reset, 1 running, 2 in WAIT, 3 stalled, 4 halted, 5 faulted -/
  run : Nat := 0
  haltCause : Nat := 0
  lastCause : Nat := 0
  g : Tab Word := []
  v : Tab W128 := []
  crc : Word := 0
  /-- status registers that hold a value, by index (R303) -/
  sr : Tab Word := []
  pc : Word := 0
  /-- the instruction waiting in WAIT, FENCE, VPUT, for a response or for posted-queue space -/
  pend : Option EngInstr := none
  /-- one instruction is being stepped; a halt waits for the instruction in progress (R312, R320) -/
  stepping : Bool := false
  haltReq : Bool := false
  /-- TIMER and the device time at which it held that value (R303) -/
  timer : Word := 0
  timerAt : W64 := 0
  /-- engine clocks since release from reset (R303) -/
  cycles : W64 := 0
  /-- device time of the last WDOG_PET write -/
  petAt : W64 := 0
  instrs : W64 := 0
  /-- instruction and data SRAM, by word, with the disturbed bits of each word (38 to 32 its check bits) (R313) -/
  imem : Tab Word := []
  dmem : Tab Word := []
  ierr : Tab (BitVec 39) := []
  derr : Tab (BitVec 39) := []
  patrol : Nat := 0
  mbx : Bool := false
  upStroke : W64 := 0
  /-- latched high words of status pairs, by index of the low word (R295) -/
  srLatch : Tab (Option Word) := []
  /-- halted by its principal's debug halt (R574) -/
  byDebug : Bool := false
  outOfService : Bool := false
  /-- run bit of the configuration (R311) -/
  runBit : Bool := false
deriving DecidableEq, Repr

/-! ### Signal sources (R586): 0 idle, 1 pending, 2 in service, for target `tgt` -/

structure SigSrc where
  st : Nat := 0
  tgt : Nat := 0
deriving DecidableEq, Repr



/-! ### DRAM controllers (R361 to R391) -/

/-- A queued request: its packet, the channel-local address and length of its bytes, the subchannels still to serve it, units read
so far by unit, and whether a burst was uncorrectable. -/
structure DramReq where
  pkt : Pkt
  loc : Nat
  len : Nat
  todo : List Nat
  promoted : Bool := false
  got : Tab W128 := []
  ue : Bool := false
deriving DecidableEq, Repr

structure Dram where
  /-- state as R379 codes it, and the state Standby left -/
  state : Nat := 0
  before : Nat := 0
  /-- requests in order of arrival; entries kept unexecuted by a freeze -/
  queue : List DramReq := []
  kept : List DramReq := []
  /-- content by channel-local address / 16, in canonical form: an unlisted unit reads 0 -/
  data : Tab W128 := []
  /-- disturbed bits of a burst's codeword, by channel-local address / 64: symbol σ at bits 8σ (R373) -/
  errs : Tab (BitVec 640) := []
  /-- open row plus one, by subchannel × 64 + rank × 32 + bank × 8 + bank group -/
  rows : Tab Nat := []
  patrolPos : Nat := 0
  /-- granule being zero-filled -/
  zf : Option Nat := none
  /-- a training primitive waits for the next refresh of its rank -/
  trn : Bool := false
  /-- delay store, and the settings applied, by DDR_DLY_SEL -/
  dly : Tab Word := []
  dlyOn : Tab Word := []
  hot : Bool := false
  /-- marked out of service (R614) -/
  oos : Bool := false
  /-- partitioned mode: slots by subchannel, service frames since the last refresh frame, whether a refresh frame runs, shares and
  lend mask of the frame -/
  slot : Nat := 0
  frames : Nat := 0
  refreshing : Bool := false
  shares : Tab Nat := []
  lend : Nat := 0
deriving DecidableEq, Repr

/-! ### Talux Links (R415 to R452) -/

/-- A packet waiting to leave on a link: its vc, header priority, source node, tenant and the units still to send. -/
structure LinkPkt where
  vc : Nat
  prio : Nat
  src : Nat
  tenant : Nat
  units : List W128
deriving DecidableEq, Repr

/-- A proxy record (R437): the request's tunnel sender, its original source, tag and header. -/
structure Proxy where
  dev : Nat
  hdr : W128
deriving DecidableEq, Repr

structure LinkSt where
  /-- sequenced flits sent and not acknowledged, oldest first, and how many of the newest of them wait to be sent again -/
  replay : List Flit := []
  resend : Nat := 0
  txSeq : Nat := 0
  /-- credit held, by vc, in flits -/
  credit : Tab Nat := []
  /-- replays from one number without an ack advancing -/
  stuck : Nat := 0
  strokeQ : List LinkPkt := []
  tunnelQ : List LinkPkt := []
  /-- packets being sent: the stroke packet and the tunnel packet begun -/
  curStroke : Option LinkPkt := none
  curTunnel : Option LinkPkt := none
  /-- last source served, by vc -/
  lastSrc : Tab Nat := []
  /-- stroke grants of the round, by principal -/
  grants : Tab Nat := []
  /-- a nak, a swap request, a time request, a time response are due; accepted flits not yet acknowledged; credit to return -/
  nakDue : Bool := false
  swapDue : Option Nat := none
  reqDue : Bool := false
  rspDue : Option W64 := none
  owed : Nat := 0
  creditDue : Tab Nat := []
  /-- number expected next; flits are ignored until it arrives -/
  rxSeq : Nat := 0
  ignoring : Bool := false
  /-- units of the packet being received, by vc; packets received whole: vc, units, flits they took -/
  asm : Tab (List W128) := []
  asmFlits : Tab Nat := []
  rxq : List (Nat × List W128 × Nat) := []
  /-- proxy records by tag h × 128 + i -/
  proxies : Tab Proxy := []
  /-- training: lanes confirmed, the partner's frame fields (bytes 2 to 10) and identity chunks -/
  lanesOk : List Nat := []
  peer : Option (BitVec 288) := none
  chunks : Tab W128 := []
  /-- time exchange (R443): transmit time of the time_req, offsets of the exchanges so far in 2^-8 ns -/
  t1 : W64 := 0
  samples : List Int := []
deriving DecidableEq, Repr

/-! ### Crew-wide commands (R445 to R447) -/

/-- A crew-wide command at the device that issues it: op, command id, the devices of its mask, the table entries of those still in it,
argument, flags; its phase (1 COUNT, 2 AT_N, 3 COPIED, 4 DONE, 5 ACK awaited), who has answered that phase, counts reported, devices
that are done and those whose result bit is 1, refusals, N, and who waits. -/
structure CrewCmd where
  op : Nat
  id : Nat
  devs : List Nat
  ents : List CrewEnt
  arg : W64
  stay : Bool
  replay : Bool
  phase : Nat
  answered : List Nat := []
  counts : List (Nat × W64) := []
  finished : List Nat := []
  good : List Nat := []
  refusals : List Status := []
  n : W64 := 0
  origin : Option Origin := none
deriving DecidableEq, Repr

/-! ### Host interface (R453 to R488) -/

/-- A vector's moderation: completions counted, and the device time at which its timer started (R481). -/
structure Vec where
  c : Nat := 0
  timer : Option W64 := none
deriving DecidableEq, Repr

/-- A fetched descriptor (R465): its submission index and 32 bytes; how far it has gone; parts issued and unanswered (offset, bytes);
parts that failed; a stream's free-space estimate, whether no push has used it yet, and whether it waits; a control command's number on its channel; and, once it has
finished, its status, first failed part's status, bytes and detail (R477, R478). -/
structure Job where
  idx : Nat
  raw : BitVec 256
  started : Bool := false
  next : Nat := 0
  parts : List (Nat × Nat) := []
  okParts : Nat := 0
  moved : Nat := 0
  fails : List (Nat × Status) := []
  est : Nat := 0
  fresh : Bool := false
  polling : Bool := false
  waiting : Bool := false
  cmd : Option Nat := none
  /-- words of a stream read from the host and not yet pushed; a batch's entries: address, value, op -/
  words : List W128 := []
  batch : List (Nat × Word × Nat) := []
  result : Option (Status × Status × Nat × Nat) := none
deriving DecidableEq, Repr

/-- A channel (R460 to R479): state as R461 codes it, settings, pointers, and its fetched descriptors, oldest first. -/
structure Chan where
  state : Nat := 0
  cfg : Word := 0
  sqBase : W64 := 0
  cqBase : W64 := 0
  timeout : Word := 0x2710
  sqTail : Nat := 0
  sqHead : Nat := 0
  cqTail : Nat := 0
  cqHead : Nat := 0
  phase : Bool := true
  cqFull : Bool := false
  err : Word := 0
  done : W64 := 0
  fetching : Bool := false
  jobs : List Job := []
  /-- control commands handed on by this channel so far -/
  cmds : Nat := 0
deriving DecidableEq, Repr

/-- What a device-issued host-memory access serves: a NoC request, a descriptor fetch, a part of a channel's descriptor (channel,
descriptor index, offset), what a descriptor writes back beside its parts. -/
inductive HostUse where
  | noc (p : Pkt)
  | fetch (c first n : Nat)
  | part (c idx off : Nat)
  | back (c idx : Nat)
deriving DecidableEq, Repr

/-- A device-issued access to host memory: tag, function, direction, bus address, length, write data, whether it has been sent. -/
structure HostAcc where
  tag : Nat
  fn : Nat
  write : Bool
  addr : Nat
  len : Nat
  data : List Byte
  use : HostUse
  sent : Bool
deriving DecidableEq, Repr

/-- What a NoC request of the host interface serves, by its tag: a BAR0 read or write (PCIe tag, BAR offset), a BAR2 one, a copy's
device read or write, a stream's push, pop or snapshot read, a batch entry. -/
inductive HifUse where
  | bar0Read (fn pcie off : Nat)
  | bar0Write (fn off : Nat)
  | bar2Read (fn pcie off len : Nat)
  | bar2Write (fn off : Nat)
  | copyIn (c idx off len : Nat)
  | copyOut (c idx off len : Nat)
  | push (c idx off len : Nat)
  | pop (c idx off : Nat)
  | snap (c idx : Nat)
  | batch (c idx k : Nat)
deriving DecidableEq, Repr

/-- A BAR2 read that waits for earlier BAR2 writes of its function (R457): function, PCIe tag, BAR offset, length. -/
structure Bar2Wait where
  fn : Nat
  pcie : Nat
  off : Nat
  len : Nat
deriving DecidableEq, Repr

/-! ### Event log (R593 to R603) -/

structure EvLog where
  /-- the first-kept area in slot order, and the circulating area, oldest first (R597) -/
  first : List LogSlot := []
  circ : List LogSlot := []
  next : Word := 0
  /-- records stored and suppressed in the window, by budget: (rate entry, or 512 + class) × 16 + principal tag (R599) -/
  used : Tab Nat := []
  suppressed : Tab Nat := []
  /-- LOG_RATE entries in force for the window (R603) -/
  rates : Tab Word := []
  /-- seq of the fatal record being copied to flash, the next one waiting, records lost meanwhile (R602) -/
  copying : Option Word := none
  copyNext : Option Word := none
  copyLost : Nat := 0
  /-- seq of the fatal record whose copy waits for the next reset (copy_pending) -/
  copyPending : Option Word := none
  /-- LOG_RD_SEQ by accessing node × 32 + function (R601) -/
  sel : Tab Word := []
deriving DecidableEq, Repr

/-! ### The Cox (R526 to R559) and evictions (R61) -/

/-- What the Cox erases islands and granules for: an eviction, of everything a tenant holds or of what a new entry removes; the
giving of resources that a new entry adds; ZEROISE of scope D. -/
inductive WipeKind where
  | evict (whole : Bool)
  | assign
  | all
deriving DecidableEq, Repr

/-- Erasure in progress: its resources (channel blocks among them), what is still to be erased, whether step 5 has been reached, who waits,
and the entry to apply once it is over, with its mailbox slot (R543). -/
structure Wipe where
  kind : WipeKind
  tenant : Nat
  islands : List Nat
  grans : List Nat
  vfs : List Nat := []
  blocks : List Nat := []
  zeroing : List Nat
  filling : List Nat
  /-- step 3 has been reached -/
  stopped : Bool := false
  quiet : Bool := false
  origin : Option Origin := none
  next : Option TenEntry := none
deriving DecidableEq, Repr

/-- A grant in the grant table (R546 to R548): its rights, its counter, the device time at which it ends, the path of its open session
and the nonce given out for one with the time it was given. -/
structure Grant where
  prin : Nat
  paths : Nat
  rights : Nat
  islands : BitVec 256
  granules : BitVec 1024
  key : BitVec 768
  counter : W64
  until_ : W64
  sess : Option Nat := none
  nonce : Option (Nat × BitVec 384 × W64) := none
deriving DecidableEq, Repr

/-- Battery-backed memory (R532): tenant keys and the Owner key as stored, and whether a low-voltage event has been recorded. Counters
and the granule map stand in their registers. -/
structure Battery where
  keys : Tab (Option (BitVec 256)) := []
  low : Bool := false
deriving DecidableEq, Repr

/-! ### Configuration (R489 to R525) -/

/-- An open container or encrypted section: type, word offset of its header, where its children end, its principal, whether its tag
verifies, whether no child has come yet, its header and first body word, and the hashes of its manifest still to come. -/
structure Box where
  typ : Nat
  off : Nat
  stop : Nat
  prin : Nat
  tagOk : Bool := true
  fresh : Bool := true
  head : List W128 := []
  hashes : Option (List (BitVec 384)) := none
deriving DecidableEq, Repr

/-- An island that a load has taken: whether it was IDLE, the section's principal, the offset of the first section, and the sections so
far, type and body. -/
structure Taken where
  isl : Nat
  idle : Bool
  prin : Nat
  off : Nat
  secs : List (Nat × List W128) := []
deriving DecidableEq, Repr

/-- The load in progress (R506): source as CFG_STATUS codes it; whether it is a boot load; who waits; the tenant of an issuing virtual
function; whether the command is a partial load; words the source holds; word offset of the next header; the running CRC; stated total
length; the STREAM_HEADER's words; the open boxes, innermost first; the Owner manifest's hashes still to come; the words of the level 1
container that is open; islands taken; START masks and LINK_SETUP bodies with principal and offset; a level 1 START has come; words
received one by one that do not yet make a section. -/
structure LoadSt where
  source : Nat
  boot : Bool
  origin : Option Origin := none
  vf : Option Nat := none
  partialLoad : Bool := false
  limit : Option Nat := none
  pos : Nat := 0
  crc : Word := 0xFFFFFFFF
  total : Nat := 0
  hdr : List W128 := []
  boxes : List Box := []
  hashes : Option (List (BitVec 384)) := none
  outer : List W128 := []
  taken : List Taken := []
  starts : List (Nat × Nat × BitVec 256) := []
  links : List (Nat × Nat × List W128) := []
  startSeen : Bool := false
  words : List W128 := []
deriving DecidableEq, Repr

/-! ### JTAG and the debug hub (R560 to R579) -/

/-- The JTAG port: current instruction, out fields of the access register (read data, status of the previous access), the boundary-scan
values preloaded by bank (levels, drive enables). -/
structure Jtag where
  ir : Nat := 2
  data : Word := 0
  status : Nat := 0
  bscanOut : Tab (BitVec 48) := []
  bscanEn : Tab (BitVec 48) := []
deriving DecidableEq, Repr

/-- A register access that waits for a stroke boundary (R184, R251, R568): a command's, or a packet's. -/
inductive StateWait where
  | cmd (r : Req) (off : Nat) (w : Option Word)
  | pkt (p : Pkt)
deriving DecidableEq, Repr

/-! ### The device -/

structure Dev where
  /-- device time count in ns (R443) -/
  dtime : W64 := 0
  /-- the model's own counter of free values drawn: it numbers the opaque constants of Config -/
  free : Nat := 0
  /-- the model's own record of what the device sent out, newest first -/
  out : List Emit := []
  /-- software-visible registers, by control offset; an unlisted one holds its reset value -/
  regs : Tab Word := []
  /-- latched higher words and held higher words, by initiator × 2^26 + control offset (R13, R14) -/
  holdRd : Tab (Option Word) := []
  holdWr : Tab Word := []
  noc : Noc := {}
  /-- by island × 96 + memory; rows by (island × 96 + memory) × 512 + row -/
  brams : Tab Bram := []
  rows : Tab Row := []
  /-- by island × 48 + slice -/
  slices : Tab Slice := []
  islands : Tab Island := []
  /-- by island × 4,608 + frame -/
  frames : Tab FrameNodes := []
  /-- by island × 4,800 + cluster: bit 2k + f is FFf of cell k (R265) -/
  ffs : Tab W64 := []
  /-- disturbed nodes of flip-flops, by (island × 4,800 + cluster) × 64 + bit (R86) -/
  ffUpset : List Nat := []
  /-- Flip-flops, by the same number, before whose next capture a transient stands in the combinational path (R87). -/
  transients : List Nat := []
  regions : List RegionCmd := []
  catches : List CatchCmd := []
  /-- input levels at the 30 banks' pins (R230) -/
  pinLevels : Tab (BitVec 48) := []
  /-- output levels and enables at the banks' pins (R231) -/
  pinOut : Tab (BitVec 48) := []
  pinEn : Tab (BitVec 48) := []
  /-- by global lane number g (R20) -/
  lanes : Tab Lane := []
  /-- by link: the multiplier its group's PLL runs at, LANE_PLL_MULT as the last apply found it (R393) -/
  pllMult : Tab Word := []
  /-- the on-die termination that the claiming load chose for the GCIN pairs (R502, R633) -/
  gcinTerm : BitVec 8 := 0
  /-- by engine number (R20) -/
  engines : Tab Engine := []
  /-- by source number (R21) -/
  sigs : Tab SigSrc := []
  /-- last target each group chose, plus one (R586) -/
  grpLast : Tab Nat := []
  /-- committed interleave sets: base granule, count, channel mask, local base in GiB (R363, R365) -/
  isets : List (Nat × Nat × Nat × Nat) := []
  /-- a thermal trip stopped every island and group clock (R200); every island clock of a lost quarter, or of a lost device (R611) -/
  thermTrip : Bool := false
  lostQuarters : List Nat := []
  lost : Bool := false
  /-- Standby entry is in progress; the entry is the emulated one (R205, R576) -/
  standbyEntering : Bool := false
  standbyEmulated : Bool := false
  /-- links whose training an exit from Standby awaits before islands resume (R205) -/
  standbyLinks : List Nat := []
  /-- edges of a group clock passed or swallowed under a throttle, by group × 16 + clock (R200) -/
  gcEdges : Tab Nat := []
  /-- configuration cache entries by island: the place in the slot and the header word of each ENCRYPTED section written (R512) -/
  cfgCache : Tab (List (Nat × List W128)) := []
  /-- commands ended, oldest first -/
  finished : List Finished := []
  /-- catch_id counters by owner tag (R263) -/
  catchIds : Tab Nat := []
  drams : Tab Dram := []
  /-- interleave table staged by a commit (R365) -/
  isetNext : Option (List (Nat × Nat × Nat × Nat)) := none
  links : Tab LinkSt := []
  /-- partner identity a LINK_SETUP named, by link × 16 + tenant (R55, R503), and the map entries it loaded: transmit at
  (link × 1,024 + channel) × 2, receive one above; their words lie in LNK_TX_MAP and LNK_RX_MAP -/
  linkIds : Tab (BitVec 384) := []
  linkChans : List Nat := []
  /-- device time: rate against nominal in ppm, fraction in 10^-6 ns, means in a row within 1 ns (R443) -/
  ppm : Int := 0
  tickFrac : Nat := 0
  goodMeans : Nat := 0
  /-- crew-wide commands issued here, by slot, and the last command id -/
  crewCmds : Tab (Option CrewCmd) := []
  crewId : Nat := 0
  /-- epochs sent crew-wide and not yet acknowledged: device, node, epoch (R442) -/
  epochWait : List (Nat × Nat × Nat) := []
  /-- tenant table entries in force, by tenant (R49) -/
  tenants : Tab TenEntry := []
  /-- functions with PME_En set; VF Enable; vectors by number -/
  pmeEn : List Nat := []
  vfEn : Bool := false
  vecs : Tab Vec := []
  chans : Tab Chan := []
  hostAccs : List HostAcc := []
  hifUses : Tab HifUse := []
  bar2Waits : List Bar2Wait := []
  /-- the host's rounds (R485): turns taken, and the channel last served plus one, by direction × 32 + function -/
  hostTurns : Tab Nat := []
  hostLast : Tab Nat := []
  evlog : EvLog := {}
  wipes : List Wipe := []
  /-- granule parts the Cox has still to fill: (channel, granule), oldest first -/
  fills : List (Nat × Nat) := []
  /-- mapped granules not yet filled since the last reset (R60) -/
  unfilled : List Nat := []
  /-- image of each role as loaded: its entry address and words (R317, R552) -/
  roleImg : Tab (Word × List W128) := []
  /-- the exclusive test in progress, and the last result of each unit since it was marked, by kind × 2^15 + index (R617) -/
  svcTest : Option (Nat × Nat) := none
  svcPass : Tab (Option Bool) := []
  /-- root keys held in key memory, by principal (R537, R538), and the principals whose sealing key the seal units hold -/
  roots : Tab (Option (BitVec 256)) := []
  /-- sealing keys in the seal units, by quarter × 16 + principal (R537, R538) -/
  sealKeys : Tab (Option (BitVec 256)) := []
  /-- seal units: work waiting, requests outstanding by node and tag, and the tenant served last plus one, by quarter (R262) -/
  sealQ : List SealJob := []
  sealOut : List (Nat × Nat × SealUse) := []
  sealLast : Tab Nat := []
  /-- last entry version accepted, by tenant (R49) -/
  versions : Tab Nat := []
  grants : Tab Grant := []
  battery : Battery := {}
  /-- the Owner key field of the fuses, and whether its check matches (R529) -/
  fuseKey : Option (BitVec 256) := none
  fuseKeyOk : Bool := false
  load : Option LoadSt := none
  /-- the boot load waits for the first CFG_LOAD of any function (R489); flash entries still to be tried, best first -/
  awaitHost : Bool := false
  bootTries : List (Nat × Nat) := []
  /-- a boot load has completed or finally failed: CFG_DONE is released (R517) -/
  cfgDone : Bool := false
  /-- the flash command in progress (R516): op, address, bytes -/
  flashCmd : Option (Nat × Nat × Nat) := none
  /-- wake reloads wait behind a load in order of request (R508) -/
  wakeQueue : List Nat := []
  jtag : Jtag := {}
  /-- tag plus one of the request that the operation of an access port has outstanding, by path (R566) -/
  apTag : Tab Nat := []
  /-- accesses to slices and crossing words that wait for an island's next stroke boundary, oldest first -/
  stateWait : List (Nat × StateWait) := []
  /-- wake commands whose island is being reloaded: answered when the reload ends (R198) -/
  wakeWait : List (Nat × StateWait) := []
  /-- cross-triggers waiting for a region command, by principal (R572) -/
  xtrgWait : List Nat := []
deriving DecidableEq, Repr

structure State where
  /-- commands waiting, first in first out -/
  pending : List Instr
  dev : Dev
deriving DecidableEq, Repr

/-- The device right after reset: every field at the value the spec gives, or the log names (notes/assumptions).
DESIGN CHOICE: log entries 5 and 6. -/
def State.reset : State := { pending := [], dev := {} }

end Sys2Proof.Machine
end

