-- ==== Sys2Proof/Machine/Ops.lean ====
section
/-! DEFINITION. The named operations over tables, registers, packets and events that every meaning is written with. -/

namespace Sys2Proof

/-- Bits [lo + w - 1 : lo] of a number. -/
def bitsOf (v lo w : Nat) : Nat := (v >>> lo) % 2 ^ w

/-- A register located: its definition, the array index and the word within a wide value or block. -/
def RegDef.locate (r : RegDef) (off : Nat) : Option (Nat × Nat) :=
  if off < r.off then none
  else
    let rel := off - r.off
    let idx := if r.stride = 0 then 0 else rel / r.stride
    let w := rel - idx * r.stride
    if idx < r.cnt && w < 4 * (r.words * r.blk) then some (idx, w / 4) else none

/-! ### Status codes (R336) -/

def Status.code : Status → Nat
  | .ok => 0 | .partly => 1 | .malformed => 2 | .denied => 3 | .stale => 4 | .unitTest => 5 | .frozen => 6
  | .uncorrectable => 7 | .noTarget => 8 | .timeout => 9 | .aborted => 10 | .notErased => 11 | .fieldLocked => 12
  | .badState => 13 | .authFail => 14

def statusOf (n : Nat) : Status :=
  match n with
  | 0 => .ok | 1 => .partly | 2 => .malformed | 3 => .denied | 4 => .stale | 5 => .unitTest | 6 => .frozen
  | 7 => .uncorrectable | 8 => .noTarget | 9 => .timeout | 10 => .aborted | 11 => .notErased | 12 => .fieldLocked
  | 13 => .badState | _ => .authFail

/-! ### Header fields (R328) -/

def Pkt.f (p : Pkt) (lo w : Nat) : Nat := bitsOf p.hdr.toNat lo w
def Pkt.dest (p : Pkt) : Nat := p.f 0 10
def Pkt.src (p : Pkt) : Nat := p.f 10 10
def Pkt.cmd (p : Pkt) : Nat := p.f 20 6
def Pkt.tag (p : Pkt) : Nat := p.f 26 10
def Pkt.len (p : Pkt) : Nat := p.f 36 8
def Pkt.prio (p : Pkt) : Nat := p.f 44 3
def Pkt.tenant (p : Pkt) : Nat := p.f 47 4
def Pkt.epoch (p : Pkt) : Nat := p.f 51 8
def Pkt.route (p : Pkt) : Nat := p.f 59 2
def Pkt.page (p : Pkt) : Nat := p.f 61 2
def Pkt.rr (p : Pkt) : Bool := p.hdr.getLsbD 63
def Pkt.addr (p : Pkt) : Nat := p.f 64 52
def Pkt.rsvd (p : Pkt) : Nat := p.f 116 4
def Pkt.crc (p : Pkt) : Nat := p.f 120 8

end Sys2Proof

namespace Sys2Proof.Machine

/-! ### Tables in canonical form -/

/-- The value a table holds at a key; an unlisted key holds the default `d`. -/
def tget {α : Type} (t : Tab α) (d : α) (k : Nat) : α :=
  match t with
  | [] => d
  | (i, v) :: r => if i = k then v else tget r d k

/-- Put an entry before the first greater key. -/
def tins {α : Type} (k : Nat) (v : α) : Tab α → Tab α
  | [] => [(k, v)]
  | (i, w) :: r => if k < i then (k, v) :: (i, w) :: r else (i, w) :: tins k v r

/-- Store at a key, keeping keys rising and listing no entry equal to its default `d`. -/
def tput {α : Type} [DecidableEq α] (t : Tab α) (d : α) (k : Nat) (v : α) : Tab α :=
  let r := t.filter (fun e => e.1 ≠ k)
  if v = d then r else tins k v r

/-- Drop every entry whose key satisfies `p`: those keys hold their defaults again. -/
def tdrop {α : Type} (t : Tab α) (p : Nat → Bool) : Tab α := t.filter (fun e => !p e.1)

/-- Keys strictly rising. -/
def Memory.rising {α : Type} : List (Nat × α) → Bool
  | [] => true
  | [_] => true
  | (i, _) :: (j, w) :: r => decide (i < j) && Memory.rising ((j, w) :: r)

/-- The canonical form of a table: keys strictly rising, no entry equal to what an unlisted key holds. -/
def Memory.wf {α : Type} [DecidableEq α] (t : Tab α) (d : α) : Bool := Memory.rising t && t.all (fun e => decide (e.2 ≠ d))

/-! ### Bits -/

/-- Replace bits [lo + w - 1 : lo] of a word. -/
def putBits (v : Word) (lo w x : Nat) : Word :=
  let m : Word := BitVec.ofNat 32 ((2 ^ w - 1) <<< lo)
  (v &&& ~~~m) ||| (BitVec.ofNat 32 (x <<< lo) &&& m)

def bit (n : Nat) : Word := BitVec.ofNat 32 (1 <<< n)
def bn (b : Bool) : Nat := if b then 1 else 0

/-- Counting up to a maximum. -/
def satAdd (v n max : Nat) : Nat := if v + n > max then max else v + n

def allOnes64 : W64 := BitVec.allOnes 64

/-- Little-endian bytes of a number, and back. -/
def toBytes (n : Nat) : Nat → List Byte
  | 0 => []
  | k + 1 => BitVec.ofNat 8 n :: toBytes (n / 256) k

def ofBytes : List Byte → Nat
  | [] => 0
  | b :: r => b.toNat + 256 * ofBytes r

/-- Replace entry n of a list. -/
def listSet {α : Type} (l : List α) (n : Nat) (v : α) : List α := l.set n v

/-! ### Nodes and registers -/

/-- The kind of unit behind a node ID (R22); none for a reserved node. -/
def nodeKind (n : Nat) : Option NodeKind :=
  if n < 0x100 then some .isl
  else if n < 0x108 then some .dram
  else if 0x110 ≤ n ∧ n < 0x130 then some .link
  else if n = 0x140 then some .hif
  else if n = 0x141 then some .cox
  else if n = 0x142 then some .cfg
  else if n = 0x143 then some .dbgh
  else if n = 0x144 then some .sig
  else if n = 0x145 then some .log
  else if n = 0x146 then some .pwr
  else if 0x150 ≤ n ∧ n < 0x160 then some .sys
  else if 0x160 ≤ n ∧ n < 0x164 then some .seal
  else if 0x164 ≤ n ∧ n < 0x168 then some .scrub
  else none

def kindRegs : NodeKind → List RegDef
  | .isl => islRegs
  | .dram => dramRegs
  | .link => linkRegs
  | .hif => hifRegs
  | .cox => coxRegs
  | .cfg => cfgRegs
  | .dbgh => dbghRegs
  | .sig => sigRegs
  | .log => logRegs
  | .pwr => pwrRegs
  | .sys => sysRegs
  | .seal => sealRegs
  | .scrub => scrubRegs

def findReg (l : List RegDef) (off : Nat) : Option (RegDef × Nat × Nat) :=
  match l with
  | [] => none
  | r :: t =>
    match r.locate off with
    | some (i, w) => some (r, i, w)
    | none => findReg t off

/-- The register at an offset of a node's window; none for a reserved offset (R10). The interleave sets lie in D0's window
only (R390), SCL_PORT_MAP in E0's only (R321), NOC_AGE and NOC_RTR_UTIL at router nodes only (R360). -/
def regAt (node off : Nat) : Option (RegDef × Nat × Nat) :=
  match nodeKind node with
  | none => none
  | some k =>
    if off % 4 ≠ 0 then none
    else if off ≥ 0xF000 then
      if (off = R.NOC_AGE || (R.NOC_RTR_UTIL ≤ off && off < 0xF51C)) && k ≠ .isl then none else findReg nocRegs off
    else if k = .dram ∧ 0x300 ≤ off ∧ off < 0x344 ∧ node ≠ 0x100 then none
    else if (k = .isl ∧ off = 0x3840) ∨ (k = .sys ∧ (off = 0x40 ∨ off = 0x44)) then none
    else findReg (kindRegs k) off

/-- A register's value at reset. A die identity carries its position code p in bits [47:45] (R18, R529); what else the fuses hold is the
model's. DESIGN CHOICE: log entry 6. -/
def regReset (node off : Nat) : Word :=
  match regAt node off with
  | some (r, _, _) =>
    if r.rst = 0 ∧ node = 0x141 ∧ off / 8 * 8 + 4 = off ∧ R.FUS_DIE ≤ off ∧ off < R.FUS_DIE + 40 then BitVec.ofNat 32 ((off - R.FUS_DIE) / 8 * 8192)
    else r.rst
  | none => 0

def ctlOff (node off : Nat) : Nat := node * 0x10000 + off

/-- The stored value of a register. -/
def Dev.reg (d : Dev) (node off : Nat) : Word := tget d.regs (regReset node off) (ctlOff node off)

def Dev.setReg (d : Dev) (node off : Nat) (v : Word) : Dev :=
  { d with regs := tput d.regs (regReset node off) (ctlOff node off) v }

/-- A field of a register as a number. -/
def Dev.fld (d : Dev) (node off lo w : Nat) : Nat := bitsOf (d.reg node off).toNat lo w

def Dev.setFld (d : Dev) (node off lo w x : Nat) : Dev := d.setReg node off (putBits (d.reg node off) lo w x)

def Dev.flag (d : Dev) (node off b : Nat) : Bool := (d.reg node off).getLsbD b

/-- Set sticky bits. -/
def Dev.orReg (d : Dev) (node off : Nat) (m : Word) : Dev := d.setReg node off (d.reg node off ||| m)

def Dev.clrReg (d : Dev) (node off : Nat) (m : Word) : Dev := d.setReg node off (d.reg node off &&& ~~~m)

def Dev.reg64 (d : Dev) (node off : Nat) : W64 := d.reg node (off + 4) ++ d.reg node off

def Dev.setReg64 (d : Dev) (node off : Nat) (v : W64) : Dev :=
  (d.setReg node (off + 4) (v.extractLsb' 32 32)).setReg node off (v.extractLsb' 0 32)

def Dev.reg128 (d : Dev) (node off : Nat) : W128 := d.reg64 node (off + 8) ++ d.reg64 node off

def Dev.setReg128 (d : Dev) (node off : Nat) (v : W128) : Dev :=
  (d.setReg64 node (off + 8) (v.extractLsb' 64 64)).setReg64 node off (v.extractLsb' 0 64)

/-- Count up a saturating field. -/
def Dev.countFld (d : Dev) (node off lo w n : Nat) : Dev :=
  d.setFld node off lo w (satAdd (d.fld node off lo w) n (2 ^ w - 1))

/-- Reset a range of a node's registers to their reset values. -/
def Dev.resetRegs (d : Dev) (node lo hi : Nat) : Dev :=
  { d with regs := tdrop d.regs (fun k => ctlOff node lo ≤ k && k < ctlOff node hi) }

/-! ### Islands and their units -/

def Dev.isl (d : Dev) (i : Nat) : Island := tget d.islands {} i
def Dev.setIsl (d : Dev) (i : Nat) (x : Island) : Dev := { d with islands := tput d.islands {} i x }
def Dev.updIsl (d : Dev) (i : Nat) (f : Island → Island) : Dev := d.setIsl i (f (d.isl i))
def Dev.dram (d : Dev) (n : Nat) : Dram := tget d.drams {} n
def Dev.setDram (d : Dev) (n : Nat) (x : Dram) : Dev := { d with drams := tput d.drams {} n x }
def Dev.updDram (d : Dev) (n : Nat) (f : Dram → Dram) : Dev := d.setDram n (f (d.dram n))
def Dev.bram (d : Dev) (k : Nat) : Bram := tget d.brams {} k
def Dev.setBram (d : Dev) (k : Nat) (x : Bram) : Dev := { d with brams := tput d.brams {} k x }
def Dev.slice (d : Dev) (k : Nat) : Slice := tget d.slices {} k
def Dev.setSlice (d : Dev) (k : Nat) (x : Slice) : Dev := { d with slices := tput d.slices {} k x }
def Dev.row (d : Dev) (k r : Nat) : Row := tget d.rows 0 (k * 512 + r)
def Dev.setRow (d : Dev) (k r : Nat) (v : Row) : Dev := { d with rows := tput d.rows 0 (k * 512 + r) v }
def Dev.ff (d : Dev) (i c : Nat) : W64 := tget d.ffs 0 (i * 4800 + c)
def Dev.setFf (d : Dev) (i c : Nat) (v : W64) : Dev := { d with ffs := tput d.ffs 0 (i * 4800 + c) v }
def Dev.frame (d : Dev) (i f : Nat) : FrameNodes := tget d.frames {} (i * 4608 + f)
def Dev.setFrame (d : Dev) (i f : Nat) (v : FrameNodes) : Dev := { d with frames := tput d.frames {} (i * 4608 + f) v }

/-- The owner tag of an island (R52). -/
def Dev.owner (d : Dev) (i : Nat) : Nat := d.fld i R.ISL_OWNER 0 4

/-- The principal of a node for stamping and event tags (R39, R593). -/
def Dev.principal (d : Dev) (node : Nat) : Nat := if node < 256 then d.owner node else 0

/-- The quarter of an island (R19). -/
def quarterOf (i : Nat) : Nat := (i / 16 / 8) * 2 + (i % 16) / 8
/-- The local index of an island within its quarter (R19). -/
def localIx (i : Nat) : Nat := (i / 16 % 8) * 8 + i % 8
/-- The island at local index l of quarter q. -/
def islandAt (q l : Nat) : Nat := ((q / 2) * 8 + l / 8) * 16 + (q % 2) * 8 + l % 8

/-- Draw a free value (Config.freeNat): the counter advances, so each draw is a value of its own. DESIGN CHOICE: log entry 7. -/
def Dev.draw (d : Dev) : Nat × Dev := (Config.freeNat d.free, { d with free := d.free + 1 })

/-- DESIGN CHOICE: log entry 7; DEDUCED: log entry 12. -/
def Dev.emit (d : Dev) (e : Emit) : Dev := { d with out := e :: d.out }

/-- This device's ID (R440). -/
def Dev.devId (d : Dev) : Nat := d.fld 0x142 R.CRW_ID 0 6

/-- A channel's descriptor still waits for its command number `k` (R476, R484). -/
def chanWaits (d : Dev) (c k : Nat) : Bool := (tget d.chans {} c).jobs.any (fun j => j.cmd = some k && j.result.isNone)

/-- A mailbox slot's registers lie at stride 0x800 (R558). -/
def mbxOff (t : Nat) : Nat := R.COX_MBX_CTL + 0x800 * t

/-- The command of a mailbox slot completes: done, status, result bytes (R541, R558). -/
def Dev.mbxEnd (d : Dev) (t : Nat) (st : Status) (len : Nat) : Dev :=
  ((d.setFld 0x141 (mbxOff t) 6 1 1).setFld 0x141 (mbxOff t) 8 4 st.code).setFld 0x141 (mbxOff t + 4) 16 11 len

/-- A command of someone who waits has ended: status and N. An issuing device is told by a DONE message (R446); a descriptor that no
longer waits loses the outcome (R476, R484). DESIGN CHOICE: log entry 7. -/
def Dev.finish (d : Dev) (o : Origin) (st : Status) (n : W64) : Dev :=
  match o with
  | .message v t id => d.emit (.crew v 8 { src := d.devId, slot := t, id := id, n := n, st := st })
  | .mailbox t => (d.emit (.complete o st n)).mbxEnd t st 0
  | .channel k => if chanWaits d (k % 65536) (k / 65536) then { (d.emit (.complete o st n)) with finished := d.finished ++ [⟨o, st, n⟩] } else d
  | _ => { (d.emit (.complete o st n)) with finished := d.finished ++ [⟨o, st, n⟩] }

/-! ### Events and signals (R206, R593 to R596) -/

/-- Severity of a hardware record by class, register and bit (R594, R596). -/
def sevOf (cls reg b : Nat) : Nat :=
  if cls = 0 then 0
  else if cls = 1 then (if reg = 18 ∧ (b = 1 ∨ b = 2 ∨ b = 4) then 3 else if reg = 18 ∧ b = 5 then 2 else 1)
  else if cls = 2 then (if reg = 21 ∧ b ≤ 3 then 5 else if reg = 21 ∧ b = 5 then 3 else 2)
  else if cls = 3 then 1
  else if cls = 4 then 3
  else if cls = 5 then (if reg = 2 ∧ (b = 2 ∨ b = 3 ∨ b = 4 ∨ b = 5) ∨ reg = 5 ∧ 8 ≤ b ∧ b ≤ 11 ∨ reg = 7 ∧ b = 2 then 2 else 1)
  else if cls = 6 then
    (if reg = 3 ∧ (b = 2 ∨ b = 3 ∨ b = 4 ∨ b = 7 ∨ b = 9) ∨ reg = 20 then 3 else if reg = 3 ∧ (b = 5 ∨ b = 6) then 2 else 1)
  else if cls = 7 then
    (if reg = 13 ∧ (b = 2 ∨ b = 3 ∨ b = 10) then 3 else if reg = 13 ∧ (b = 1 ∨ b = 6 ∨ b = 7 ∨ b = 8 ∨ b = 9 ∨ b = 11) then 2 else 1)
  else if cls = 8 then (if reg = 11 ∧ (b = 1 ∨ b = 2 ∨ b = 3 ∨ b = 9) then 3 else 1)
  else if cls = 9 then (if reg = 15 ∧ (b = 0 ∨ b = 2) ∨ reg = 16 ∧ b = 3 then 3 else 2)
  else if cls = 10 then (if reg = 22 ∧ b = 9 then 5 else if reg = 22 ∧ (2 ≤ b ∧ b ≤ 5 ∨ b = 7) ∨ reg = 8 ∧ (b = 1 ∨ b = 2) then 3 else 2)
  else 1

/-- Send an event record with code class, register group and bit, and its parameters (R595). -/
def Dev.eventP (d : Dev) (node sub cls reg b tag : Nat) (p0 p1 p2 p3 : Word) : Dev :=
  d.emit (.ev ⟨node, sub, cls * 4096 + reg * 64 + b, sevOf cls reg b, p0, p1, p2, p3, tag, d.dtime⟩)

/-- A record whose P0 is the register's value and whose tag is the node's principal. -/
def Dev.event (d : Dev) (node cls reg b regOff : Nat) : Dev :=
  d.eventP node 0 cls reg b (d.principal node) (d.reg node regOff) 0 0 0

/-- A sticky bit set with its record: the value in P0 is the register after the event. -/
def Dev.sticky (d : Dev) (node cls reg b regOff : Nat) : Dev :=
  (d.orReg node regOff (bit b)).event node cls reg b regOff

/-- Raise island source k: set its cause bit (R206). -/
def Dev.cause (d : Dev) (i k : Nat) : Dev := d.orReg i R.ISL_SIG_CAUSE (bit k)

/-- A sticky event of an island that also raises source k. -/
def Dev.islEvent (d : Dev) (i k cls reg b regOff : Nat) : Dev := (d.sticky i cls reg b regOff).cause i k

/-- An island changes state: source k = 0 is raised (R206) and a record written. -/
def Dev.goState (d : Dev) (i : Nat) (st : IslState) : Dev :=
  if (d.isl i).state = st then d
  else ((d.updIsl i (fun x => { x with state := st })).cause i 0).event i 5 1 0 R.ISL_SIG_CAUSE

def IslState.code : IslState → Nat
  | .idle => 0 | .loaded => 1 | .running => 2 | .feathered => 3 | .catching => 4 | .restoring => 5 | .sleep => 6 | .evicting => 7

/-! ### Packets (R328 to R335) -/

/-- One byte of CRC-8, polynomial 0x07, most significant bit first (R330). -/
def crc8Byte (c : BitVec 8) (b : BitVec 8) : BitVec 8 :=
  (List.range 8).foldl (fun (x : BitVec 8) _ => if x.getLsbD 7 then (x <<< 1) ^^^ 0x07#8 else x <<< 1) (c ^^^ b)

/-- The header's CRC-8 over bytes 0 to 14 (R330). -/
def hdrCrc (h : W128) : BitVec 8 :=
  (List.range 15).foldl (fun c k => crc8Byte c (h.extractLsb' (8 * k) 8)) 0

/-- A header from its fields, with its crc. -/
def mkHdr (dest src cmd tag len prio tenant epoch route page : Nat) (rr : Bool) (addr : Nat) : W128 :=
  let h : W128 := BitVec.ofNat 128
    (dest % 1024 + (src % 1024) <<< 10 + (cmd % 64) <<< 20 + (tag % 1024) <<< 26 + (len % 256) <<< 36 + (prio % 8) <<< 44
      + (tenant % 16) <<< 47 + (epoch % 256) <<< 51 + (route % 4) <<< 59 + (page % 4) <<< 61 + (if rr then 1 else 0) <<< 63
      + (addr % 2 ^ 52) <<< 64)
  h ||| (hdrCrc h).setWidth 128 <<< 120

/-- A node's stamping epoch and its epoch table entry for a source (R352). -/
def Dev.epoch (d : Dev) (node : Nat) : Nat := d.fld node R.NOC_EPOCH 0 8
def Dev.epochOf (d : Dev) (node src : Nat) : Nat := d.fld node (R.NOC_EPOCH_TAB + (src / 4) * 4) (8 * (src % 4)) 8

/-- The stepping's letter and digit in ASCII, from the die identity fuses (R3, R529). -/
def stepLetter (d : Dev) : Nat := 65 + d.fld 0x141 (R.FUS_DIE + 4) 16 5
def stepDigit (d : Dev) : Nat := 48 + d.fld 0x141 (R.FUS_DIE + 4) 21 4

def Dev.dropped (d : Dev) (node lo : Nat) : Dev := d.countFld node R.NOC_DISCARDS lo 8 1

/-- A sticky event of a node's NOC area with its record: P3 and the tag name the request's source for stale ones (R360, R595). -/
def Dev.nocEvent (d : Dev) (node b src tenant : Nat) : Dev :=
  let d := d.orReg node R.NOC_EVENTS (bit b)
  let st := b = 2
  d.eventP node (if node < 256 then 3 else 0) (if b = 7 then 3 else if b = 2 || b = 3 then 2 else 4) 10 b
    (if st then tenant else d.principal node) (d.reg node R.NOC_EVENTS) 0 0
    (if st then BitVec.ofNat 32 (src % 1024 + tenant % 16 * 65536) else 0)

/-- Tokens of an injection bucket, in 1/5,120 of a token (R357). -/
def bucketFull : Int := 130 * 5120
def bucketKey (node t : Nat) : Nat := node * 16 + t
def bucketOf (d : Dev) (node t : Nat) : Int := tget d.noc.bucket bucketFull (bucketKey node t)
def bucketCfg (d : Dev) (k : Nat) : Word := d.reg (k / 16) (R.NOC_BKT_CFG + 8 * (k % 16))

/-- One nanosecond, 1.6 NoC cycles, of refill of one bucket: at its rate, never beyond its depth (R341, R357). -/
def bucketTick (d : Dev) (t : Tab Int) (k : Nat) : Tab Int :=
  let c := (bucketCfg d k).toNat
  tput t bucketFull k (min (tget t bucketFull k + (8 * min (bitsOf c 0 16) 1024 : Nat)) (bitsOf c 16 16 * 5120 : Nat))

/-- The buckets that a refill may change: those not at their reset level, and those whose depth is not. -/
def bucketKeys (d : Dev) : List Nat :=
  (d.noc.bucket.map (·.1) ++ (d.regs.filter (fun e => R.NOC_BKT_CFG ≤ e.1 % 65536 && e.1 % 65536 < R.NOC_BKT_CFG + 128 && e.1 % 8 = 0)).map
    (fun e => e.1 / 65536 * 16 + (e.1 % 65536 - R.NOC_BKT_CFG) / 8)).eraseDups

/-- DESIGN CHOICE: log entry 2. -/
def Dev.refill (d : Dev) : Dev :=
  { d with noc := { d.noc with bucket := (bucketKeys d).foldl (bucketTick d) d.noc.bucket } }

/-- Answer a request packet from `node` (R335): nothing for a posted request; a response to a replaced initiator is
discarded and counted stale. -/
def Dev.respond (d : Dev) (node : Nat) (p : Pkt) (st : Status) (data : List W128) : Dev :=
  if !p.rr then d
  else if d.epochOf node p.src ≠ p.epoch then (d.dropped node 16).nocEvent node 2 p.src p.tenant
  else
    let data := if st = .ok ∨ st = .uncorrectable then data else []
    d.emit (.pkt ⟨mkHdr p.src node (0x30 + st.code) p.tag data.length p.prio p.tenant (d.epoch node) p.route 0 false p.addr,
      data, false⟩)

/-- A request packet of a unit waits in its node's injection queue (R357). -/
def Dev.inject (d : Dev) (node unit : Nat) (p : Pkt) : Dev := { d with noc := { d.noc with inject := d.noc.inject ++ [(node, unit, p)] } }

/-- Send a packet of a unit's own, stamped by its node (R329, R39). -/
def Dev.send (d : Dev) (node dest cmd tag prio tenant route : Nat) (rr : Bool) (addr : Nat) (data : List W128) (len : Nat) : Dev :=
  d.emit (.pkt ⟨mkHdr dest node cmd tag len prio tenant (d.epoch node) route 0 rr addr, data, false⟩)

/-- The 52-bit address of a control offset on this device (R28, R30). -/
def Dev.ctlAddr (d : Dev) (off : Nat) : Nat := d.devId * 0x400000000000 + 0x3FFFFC000000 + off

/-- Answer a register access command. -/
def Dev.answer (d : Dev) (r : Req) (node off : Nat) (st : Status) (v : Word) : Dev := d.emit (.ans r node off st v)

/-- The core is disconnected from the pins: EXTEST, CLAMP, HIGHZ, EXTEST_PULSE or EXTEST_TRAIN is the current instruction (R561). -/
def bscanActive (d : Dev) : Bool := [0, 3, 4, 8, 9].contains d.jtag.ir

/-- An IEEE 1149.6 instruction drives the lanes, whose own function is suspended (R403). -/
def lanesTested (d : Dev) : Bool := d.jtag.ir = 8 || d.jtag.ir = 9

/-! ### A command's effect on everything but the queue -/

/-- Run a device function as a command: the queue is untouched and the command completes. DESIGN CHOICE: log entry 1. -/
def State.run (s : State) (f : Dev → Dev) : Host.Outcome State Fault Refusal := .next { s with dev := f s.dev }

/-- One nanosecond of the block's own clock: DTIME moves on at its rate, `ppm` off nominal (R443), injection buckets refill
(R357), and a flip-flop's disturbed node is restored by its partners (R86). DESIGN CHOICE: log entry 2. -/
def Dev.tick (d : Dev) : Dev :=
  let f := d.tickFrac + (1000000 + d.ppm).toNat
  { d.refill with dtime := d.dtime + BitVec.ofNat 64 (f / 1000000), tickFrac := f % 1000000, ffUpset := [] }

/-- Run a device function only where its condition holds; an event whose condition does not hold does not happen.
DESIGN CHOICE: log entry 3. -/
def Dev.when (d : Dev) (c : Bool) (f : Dev → Dev) : Dev := if c then f d else d

end Sys2Proof.Machine
end

