-- ==== Sys2Proof/Machine/Access.lean ====
section
/-! DEFINITION. Register access at its target: principals and classes (R11, R12, R57, R58), wide values (R13, R14), access
codes (R9). Every register command, and every register packet, goes through these operations. -/

namespace Sys2Proof.Machine

/-- The island a fabric-mode lane group attaches to (R405). -/
def laneIsland (n : Nat) : Nat :=
  let q := n / 8
  (8 * (q / 2) + n % 8) * 16 + (if q % 2 = 0 then 0 else 15)

/-- The principal whose load holds a group clock, and a DPLL behind one (R117): none while unclaimed. -/
def gcClaimant (d : Dev) (g : Nat) : Option Nat :=
  (d.islands.find? (fun e => e.2.state ≠ .idle && e.2.setup.gcMask.getLsbD g)).map (fun e => d.owner e.1)

def gcSource (d : Dev) (g : Nat) : Nat := d.fld 0x146 (R.PWR_GC_SEL + 4 * g) 0 5

def dpllClaimant (d : Dev) (k : Nat) : Option Nat :=
  (List.range 16).findSome? (fun g => if gcSource d g / 2 = k then gcClaimant d g else none)
/-- The principal whose load holds clock input pair p. A pair that no load claims has its receiver and its termination off (R633). -/
def gcinClaimant (d : Dev) (p : Nat) : Option Nat :=
  (List.range 16).findSome? (fun g => if gcSource d g = 16 + p then gcClaimant d g else none)
def gcinTermOn (d : Dev) (p : Nat) : Bool := (gcinClaimant d p).isSome && d.gcinTerm.getLsbD p

/-- The tenant of a PCIe function: 0 for the physical function and an unassigned virtual function (R454, R487). -/
def fnTenant (d : Dev) (f : Nat) : Nat :=
  if f = 0 || !d.flag 0x140 (R.HIF_VF_TENANT + 4 * (f - 1)) 31 then 0 else d.fld 0x140 (R.HIF_VF_TENANT + 4 * (f - 1)) 0 4

/-- The function whose vector range holds global vector v (R480). -/
def vecFn (d : Dev) (v : Nat) : Option Nat :=
  (List.range 17).find? (fun f =>
    let b := d.fld 0x140 (R.HIF_FN_VEC + 0x10 * f) 0 11
    b ≤ v && v < b + d.fld 0x140 (R.HIF_FN_VEC + 0x10 * f) 16 12)

/-- The principal of an engine (R310). -/
def engPrin (d : Dev) (e : Nat) : Nat := if e < 512 then d.owner (e / 2) else 0

/-- The principal of a signal source (R581) and of a signal target (R584). -/
def srcPrin (d : Dev) (s : Nat) : Nat :=
  if s < 2048 then d.owner (s / 8)
  else if s < 3104 then engPrin d ((s - 2048) / 2)
  else if s < 3232 then 0
  else if s < 3520 then
    let n := (s - 3232) / 9
    if d.fld (0x110 + n) R.LANE_GRP_CFG 0 2 = 2 then d.owner (laneIsland n) else 0
  else if s < 3648 then 0
  else if s < 3776 then (if s - 3648 < 68 then fnTenant d ((s - 3648) / 4) else 0)
  else if 96 ≤ s - 3776 && s - 3776 < 112 then s - 3776 - 96
  else 0

def tgtPrin (d : Dev) (j : Nat) : Nat := if j < 528 then engPrin d j else 0

/-- The tenant to which a register of class TEN or PRV is assigned, by node and offset; 0 is the Owner. -/
def regTenant (d : Dev) (node off : Nat) : Nat :=
  if R.NOC_BKT_CFG ≤ off ∧ off < R.NOC_BKT_CFG + 128 then (off - R.NOC_BKT_CFG) / 8
  else if node = 0x140 ∧ R.NOC_ST_REQS ≤ off then fnTenant d ((off - R.NOC_ST_REQS) / 0x40)
  else match nodeKind node with
  | some .isl => d.owner node
  | some .dram =>
    if R.DDR_SLOT ≤ off ∧ off < R.DDR_SLOT + 64 then (off - R.DDR_SLOT) / 4
    else if R.DDR_TEN_ERR ≤ off ∧ off < R.DDR_TEN_ERR + 128 then (off - R.DDR_TEN_ERR) / 8
    else 0
  | some .link =>
    if 0x1000 ≤ off ∧ off < 0x5000 then d.fld node (off - off % 8) 18 4
    else if 0x8000 ≤ off ∧ off < 0x9000 then
      if d.fld node R.LANE_GRP_CFG 0 2 = 2 then d.owner (laneIsland (node - 0x110)) else 0
    else 0
  | some .hif =>
    if 0x1000 ≤ off ∧ off < 0x2000 then fnTenant d (d.fld 0x140 (R.HIF_HWIN_FN + (off - 0x1000) / 16 * 16) 0 5)
    else if 0x2000 ≤ off ∧ off < 0x3100 then fnTenant d ((off - 0x2000) / 0x100)
    else if 0x4000 ≤ off ∧ off < 0xC000 then ((vecFn d ((off - 0x4000) / 16)).map (fnTenant d)).getD 0
    else if 0xC000 ≤ off ∧ off < 0xC100 then ((vecFn d ((off - 0xC000) * 8)).map (fnTenant d)).getD 0
    else if 0xD000 ≤ off ∧ off < 0xF000 then ((vecFn d ((off - 0xD000) / 4)).map (fnTenant d)).getD 0
    else 0
  | some .cox =>
    if 0x40 ≤ off ∧ off < 0xC0 then (off - 0x40) / 8
    else if 0xC0 ≤ off ∧ off < 0x140 then (off - 0xC0) / 8
    else if 0x300 ≤ off ∧ off < 0x400 then ((d.grants.find? (fun g => g.1 = (off - 0x300) / 8)).map (·.2.prin)).getD 0
    else if 0x4000 ≤ off ∧ off < 0xC800 then (off - 0x4000) / 0x800
    else 0
  | some .cfg =>
    if 0x4100 ≤ off ∧ off < 0x4500 then (off - 0x4100) / 0x40
    else if 0x6000 ≤ off ∧ off < 0x9000 then d.owner ((off - 0x6000) / 0x30)
    else 0
  | some .dbgh =>
    if 0x100 ≤ off ∧ off < 0x300 then (off - 0x100) / 0x20
    else if 0x400 ≤ off ∧ off < 0x600 then (off - 0x400) / 0x20
    else 0
  | some .sig =>
    if 0x100 ≤ off ∧ off < 0x300 then d.fld 0x144 (off - off % 8) 0 4
    else if 0x400 ≤ off ∧ off < 0x1490 then tgtPrin d ((off - 0x400) / 8)
    else if 0x2000 ≤ off ∧ off < 0x6000 then srcPrin d ((off - 0x2000) / 4)
    else if 0x6000 ≤ off ∧ off < 0xF000 then tgtPrin d ((off - 0x6000) / 0x40)
    else 0
  | some .pwr =>
    if 0x40 ≤ off ∧ off < 0xC0 then (off - 0x40) / 4 % 16
    else if 0x200 ≤ off ∧ off < 0x280 then (dpllClaimant d ((off - 0x200) / 16)).getD 0
    else if 0x300 ≤ off ∧ off < 0x340 then (gcClaimant d ((off - 0x300) / 4)).getD 0
    else 0
  | some .seal => if R.CAT_SEAL_BYTES ≤ off ∧ off < R.CAT_SEAL_BYTES + 128 then (off - R.CAT_SEAL_BYTES) / 8 else 0
  | some .scrub => if R.SCB_ISL ≤ off ∧ off < R.SCB_ISL + 256 then d.owner (islandAt (node - 0x164) ((off - R.SCB_ISL) / 4)) else 0
  | _ => 0

/-- A debug halt of principal t stops what field b of its DBG_FOH names (R575). -/
def debugFrozen (d : Dev) (t b : Nat) : Bool :=
  d.flag 0x143 (R.DBG_HALT_STATUS + 0x20 * t) 0 && d.flag 0x143 (R.DBG_FOH + 0x20 * t) b

/-- The class of a register: mailbox slot 0 is OWN and slot 16 PUB (R541). -/
def regClass (node off : Nat) (rd : RegDef) : RegClass :=
  if node = 0x141 ∧ 0x4000 ≤ off ∧ off < 0x4800 then .own
  else if node = 0x141 ∧ 0xC000 ≤ off ∧ off < 0xC800 then .pub
  else rd.cls

/-- Whether a principal may access a register of a class (R11, R57). -/
def classOk (cls : RegClass) (tenant owner : Nat) : Bool :=
  match cls with
  | .pub => true
  | .own => tenant = 0
  | .ten => tenant = owner || tenant = 0
  | .prv => tenant = owner

/-- The number that stands for an initiator (R13): its node and unit. -/
def initiator (r : Req) : Nat := r.node * 32 + r.unit

/-- The holding register that an initiator's access meets. DESIGN CHOICE: each initiator has one for every register word, so a low-word
access of another register leaves it. DESIGN CHOICE: log entry 14. -/
def holdKey (r : Req) (node off : Nat) : Nat := initiator r * 2 ^ 26 + ctlOff node off

/-- A denial recorded by the target under the security class; the record names the requesting node as its source, and P3 its node and tenant field (R12, R57, R595). -/
def deniedHere (d : Dev) (r : Req) (node _off : Nat) : Dev :=
  let d := d.orReg node R.NOC_EVENTS (bit 3)
  d.eventP r.node 0 2 10 3 r.tenant (d.reg node R.NOC_EVENTS) 0 0 (BitVec.ofNat 32 (r.node % 1024 + r.tenant % 16 * 65536))

/-- A denied access: no effect, answered DENIED (R12). -/
def Dev.deny (d : Dev) (r : Req) (node off : Nat) : Dev := (deniedHere d r node off).answer r node off .denied 0

/-- The full value a write of a low word commits: the held higher words, unwritten ones 0, and the held words cleared (R14). -/
def commitVal (d : Dev) (r : Req) (node off words : Nat) (v : Word) : Nat × Dev :=
  let hi := (List.range (words - 1)).map (fun k => (tget d.holdWr 0 (holdKey r node (off + 4 * (k + 1)))).toNat * 2 ^ (32 * (k + 1)))
  let d := { d with holdWr := (List.range (words - 1)).foldl (fun t k => tput t 0 (holdKey r node (off + 4 * (k + 1))) 0) d.holdWr }
  (v.toNat + hi.sum, d)

/-- What a write does at a register after the class check and the commit: node, offset, the full value; the new device and
the status. -/
abbrev Writer := Dev → Req → Nat → Nat → Nat → Dev × Status

/-- An access port is reached over its own path only: that of function f through the host interface's unit f, that of JTAG through the
debug hub itself (R565). -/
def pathRule (r : Req) (node off : Nat) : Bool :=
  if node = 0x143 ∧ 0x1000 ≤ off ∧ off < 0x1900 then
    let k := (off - 0x1000) / 0x80
    if k = 0 then r.node = 0x143 ∧ r.unit = 31 else r.node = 0x140 ∧ r.unit + 1 = k
  else true

/-- Whether the target takes an access: by class and, at an access port, by path. -/
def mayAccess (d : Dev) (r : Req) (node off : Nat) (rd : RegDef) : Bool :=
  classOk (regClass node off rd) r.tenant (regTenant d node off) && pathRule r node off

/-- The quarter a node lies in (R20, R22); the hub's nodes lie in none. -/
def nodeQuarter (node : Nat) : Option Nat :=
  match nodeKind node with
  | some .isl => some (quarterOf node)
  | some .dram => some ((node - 0x100) / 2)
  | some .link => some ((node - 0x110) / 8)
  | some .seal => some (node - 0x160)
  | some .scrub => some (node - 0x164)
  | _ => none

/-- A node lost with its quarter, or with the device: nothing at it answers (R611). DEDUCED: log entry 17. -/
def nodeLost (d : Dev) (node : Nat) : Bool :=
  d.lost || (match nodeQuarter node with | some q => d.lostQuarters.contains q | none => false)

/-- The engine whose SCL block an offset of an island or system engine window lies in. -/
def sclEngine (node off : Nat) : Option Nat :=
  if node < 256 then (if 0x3000 ≤ off ∧ off < 0x4000 then some (node * 2 + (off - 0x3000) / 0x800) else none)
  else if 0x150 ≤ node ∧ node < 0x160 ∧ off < 0x800 then some (512 + (node - 0x150))
  else none

/-- Whether the device is in Standby in earnest, its NoC clock stopped (R204, R576). -/
def standbyNow (d : Dev) : Bool := d.fld 0x146 R.PWR_DEV_STATE 0 2 ≠ 0 && !d.standbyEmulated

/-- Nodes that neither take nor send anything in Standby: all but those of the hub (R204). DEDUCED: log entry 115. -/
def nocStopped (d : Dev) (node : Nat) : Bool := standbyNow d && !(0x140 ≤ node && node < 0x148)

/-- A unit that does not serve its registers now: its clock stopped in Standby (R204); an island lost with its quarter (R611), asleep and powered down (R207); a slice or an
engine out of service, but for the registers that say what it is (R185, R320). DEDUCED: log entry 17. -/
def unitGate (d : Dev) (node off : Nat) : Option Status :=
  let x := d.isl node
  let rel := off % 0x800
  if nodeLost d node || nocStopped d node then some .timeout
  else if node < 256 && x.state = .sleep && !x.sleepEmulated && 0x1000 ≤ off && off < 0x9000 then some .badState
  else if node < 256 && 0x6000 ≤ off && off < 0x6C00 && off % 0x40 ≠ 0 && (d.slice (node * 48 + (off - 0x6000) / 0x40)).outOfService then
    some .unitTest
  else match sclEngine node off with
    | some e => if (tget d.engines {} e).outOfService && rel ≠ 0 && rel ≠ 4 then some .unitTest else none
    | none => none

/-- What stops an access at its target: its register, or the device and status it ends with. -/
inductive Gate where
  | pass (rd : RegDef) (w : Nat)
  | stop (d : Dev) (st : Status)

/-- The checks before an access: a unit behind the node (R10), a register at the offset (R10), its class (R12), the unit itself.
DEDUCED: log entry 13. -/
def regGate (d : Dev) (r : Req) (node off : Nat) : Gate :=
  match nodeKind node with
  | none => .stop d .noTarget
  | some _ =>
    match regAt node off with
    | none => .stop d .ok
    | some (rd, _, w) =>
      if !mayAccess d r node off rd then .stop (deniedHere d r node off) .denied
      else match unitGate d node off with
        | some st => .stop d st
        | none => .pass rd w

/-- A tenant's command to an island of its that is being evicted (R61, R64). -/
def evictShut (d : Dev) (r : Req) (node : Nat) : Bool :=
  node < 256 && r.tenant ≠ 0 && ((d.isl node).state = .evicting || d.wipes.any (fun w => w.islands.contains node))

/-- The checks before a write: those of any access, and that the island is not being evicted. -/
def writeGate (d : Dev) (r : Req) (node off : Nat) : Gate :=
  match regGate d r node off with
  | .stop d st => .stop d st
  | .pass rd w => if evictShut d r node then .stop d .badState else .pass rd w

/-- Whether a command has begun the reload of an island: it is answered when the reload ends (R198). -/
def wakeBegan (b d : Dev) (node : Nat) : Bool := node < 256 && !(b.isl node).waking && (d.isl node).waking

/-- The answer to a write of `v` that took the device from `b` to `d`. -/
def answerWrite (b d : Dev) (r : Req) (node off : Nat) (v : Word) (st : Status) : Dev :=
  if wakeBegan b d node then { d with wakeWait := d.wakeWait ++ [(node, .cmd r off (some v))] } else d.answer r node off st 0

/-- A register write command at its target, performed by the unit's own action `f`. -/
def Dev.regCmd (d : Dev) (r : Req) (node off : Nat) (v : Word) (f : Writer) : Dev :=
  match writeGate d r node off with
  | .stop d st => d.answer r node off st 0
  | .pass rd _ =>
    let (full, e) := commitVal d r node off rd.words v
    let (e, st) := f e r node off full
    answerWrite d e r node off v st

/-- Whoever waited for a wake learns how it ended. -/
def wakeAnswer (d : Dev) (i : Nat) (st : Status) : Dev :=
  (d.wakeWait.filter (fun e => e.1 = i)).foldl (fun (d : Dev) e => match e.2 with
    | .cmd r off _ => d.answer r i off st 0
    | .pkt p => d.respond i p st (if p.cmd = 0xC || p.cmd = 0xD then [0] else [])) { d with wakeWait := d.wakeWait.filter (fun e => e.1 ≠ i) }

/-- The access codes of a register's fields: RW bits store, RW1C bits clear where 1 is written (R9). DESIGN CHOICE: log entry 15. -/
def storeWord (rd : RegDef) (old v : Word) : Word := (old &&& ~~~rd.rw &&& ~~~(v &&& rd.w1c)) ||| (v &&& rd.rw)

/-- Store a full value by its access codes, word by word. DESIGN CHOICE: log entry 15. -/
def storeWriter : Writer := fun d _ node off v =>
  match regAt node off with
  | none => (d, .ok)
  | some (rd, _, _) =>
    ((List.range rd.words).foldl (fun (d : Dev) k =>
      d.setReg node (off + 4 * k) (storeWord rd (d.reg node (off + 4 * k)) (BitVec.ofNat 32 (v / 2 ^ (32 * k))))) d, .ok)

/-- Store a field, leaving the rest of the register to its access codes. -/
def ifOk (c : Bool) (st : Status) (f : Writer) : Writer := fun d r n o v => if c then f d r n o v else (d, st)

end Sys2Proof.Machine
end

