-- ==== Sys2Proof/Machine/SigBase.lean ====
section
/-! DEFINITION. Signal sources and targets as units change hands (R586, R591); the vectors of a function (R480 to R482). -/

namespace Sys2Proof.Machine

/-- The state field of COX_STATUS: 0 starting, 1 ready, 2 recovery, 3 HALTED, 4 TAMPER. -/
def coxState (d : Dev) : Nat := d.fld 0x141 R.COX_STATUS 0 3

def Dev.sig (d : Dev) (s : Nat) : SigSrc := tget d.sigs {} s
def Dev.setSig (d : Dev) (s : Nat) (x : SigSrc) : Dev := { d with sigs := tput d.sigs {} s x }

def sigCfg (s : Nat) : Nat := R.SIG_SRC_CFG + 4 * s

/-- Sources return to their reset setting, state idle (R591). -/
def sigReset (d : Dev) (l : List Nat) : Dev :=
  l.foldl (fun (d : Dev) s => (d.setReg 0x144 (sigCfg s) (regReset 0x144 (sigCfg s))).setSig s {}) d

/-- The sources of an island and of its engines. -/
def islSources (i : Nat) : List Nat := (List.range 8).map (fun k => 8 * i + k) ++ (List.range 4).map (fun k => 2048 + 4 * i + k)

/-- Zeroisation of an island (R591). -/
def sigZeroise (d : Dev) (i : Nat) : Dev :=
  [2 * i, 2 * i + 1].foldl (fun (d : Dev) e => d.setReg64 0x144 (R.SIG_TGT_GRP + 8 * e) 0) (sigReset d (islSources i))

/-- A target returns to reset: sources in service there return to idle (R591). -/
def sigDropHeld (d : Dev) (j : Nat) : Dev :=
  { d with sigs := d.sigs.filter (fun e => !(e.2.st = 2 && e.2.tgt = j)) }

/-! ### Vectors (R480 to R482) -/

def Dev.vec (d : Dev) (v : Nat) : Vec := tget d.vecs {} v
def Dev.setVec (d : Dev) (v : Nat) (x : Vec) : Dev := { d with vecs := tput d.vecs {} v x }

def fnArea (f off : Nat) : Nat := off + 0x100 * f
def fnStatus (d : Dev) (f : Nat) : Word := d.reg 0x140 (fnArea f R.HIF_FN_STATUS)
/-- Whether a function is in D0, and in D0 with Bus Master Enable set. -/
def fnD0 (d : Dev) (f : Nat) : Bool := d.fld 0x140 (fnArea f R.HIF_FN_STATUS) 0 2 = 0
def fnMaster (d : Dev) (f : Nat) : Bool := fnD0 d f && (fnStatus d f).getLsbD 2

/-- A function's event bit, its record under the tag of the function's tenant. -/
def fnEvent (d : Dev) (f b : Nat) : Dev :=
  let o := fnArea f R.HIF_FN_EVENTS
  let d := d.orReg 0x140 o (bit b)
  d.eventP 0x140 0 (if b = 1 then 2 else 9) 16 b (fnTenant d f) (d.reg 0x140 o) 0 0 0

/-- Whether a vector's message can be sent now (R482). -/
def vecClear (d : Dev) (f v : Nat) : Bool :=
  fnD0 d f && (fnStatus d f).getLsbD 3 && !(fnStatus d f).getLsbD 4 && !d.flag 0x140 (R.HIF_MSIX_CTL + 0x10 * v) 0

def pbaOff (v : Nat) : Nat := R.HIF_PBA + 4 * (v / 32)

/-- DEDUCED: log entry 122. -/
def vecSend (d : Dev) (f v : Nat) : Dev :=
  let o := 0x10 * v
  -- a message brings the link from L1 to L0
  let d := if d.fld 0x140 R.HIF_LINK 9 2 ≠ 0 then d.setFld 0x140 R.HIF_LINK 9 2 0 else d
  (d.clrReg 0x140 (pbaOff v) (bit (v % 32))).emit (.msix f v (d.reg 0x140 (R.HIF_MSIX_UPPER + o) ++ d.reg 0x140 (R.HIF_MSIX_ADDR + o))
    (d.reg 0x140 (R.HIF_MSIX_DATA + o)))

/-- A vector fires (R482). -/
def vecFire (d : Dev) (v : Nat) : Dev :=
  let d := d.setVec v {}
  match vecFn d v with
  | none => d
  | some f =>
    if vecClear d f v then vecSend d f v
    else
      let d := d.orReg 0x140 (pbaOff v) (bit (v % 32))
      if d.fld 0x140 (fnArea f R.HIF_FN_STATUS) 0 2 = 3 && d.pmeEn.contains f then
        let d := if d.fld 0x140 R.HIF_LINK 9 2 ≠ 0 then d.setFld 0x140 R.HIF_LINK 9 2 0 else d
        (fnEvent d f 4).emit (.pme f)
      else d

/-- A counted completion on vector v (R481): the vector fires when its count is reached. -/
def vecCount (d : Dev) (v : Nat) : Dev :=
  let x := d.vec v
  let n := max 1 (d.fld 0x140 (R.HIF_VEC_MOD + 4 * v) 0 8)
  if n ≤ x.c + 1 then vecFire d v
  else d.setVec v { c := x.c + 1, timer := some (x.timer.getD d.dtime) }

end Sys2Proof.Machine
end

