-- ==== Sys2Proof/Machine/Crypto.lean ====
section
/-! DEFINITION. Byte strings, the key derivation of R536, AES-256-GCM over units (R263 to R266, R274). The primitives themselves are
opaque constants of Config. -/

namespace Sys2Proof.Machine

/-- Fields of given widths packed from bit 0 up. -/
def packBits : List (Nat × Nat) → Nat
  | [] => 0
  | (w, v) :: r => v % 2 ^ w + 2 ^ w * packBits r

/-- Fields of given widths in bytes, in order: a byte string as a number, byte 0 lowest. -/
def packBytes (l : List (Nat × Nat)) : Nat := packBits (l.map (fun e => (8 * e.1, e.2)))

/-- A byte string as n units of 16 bytes. -/
def unitsOfNum (n v : Nat) : List W128 := (List.range n).map (fun k => BitVec.ofNat 128 (v / 2 ^ (128 * k)))

/-- Units as one byte string. -/
def unitsNum (l : List W128) : Nat := l.foldr (fun w a => w.toNat + 2 ^ 128 * a) 0

/-- An ASCII string as fields of one byte. -/
def asciiBytes (s : String) : List (Nat × Nat) := s.toList.map (fun c => (1, c.toNat))

/-- KDF(K, label, ctx) (R536): the first 32 bytes of HMAC-SHA-384 over 0x00000001, label, 0x00, ctx, 0x00000100. The two numbers are
byte strings as they are written. PRESUMED: log entry 139. -/
def kdf (k : BitVec 256) (label : String) (ctx : List (Nat × Nat)) : BitVec 256 :=
  let m := [(1, 0), (1, 0), (1, 0), (1, 1)] ++ asciiBytes label ++ [(1, 0)] ++ ctx ++ [(1, 0), (1, 0), (1, 1), (1, 0)]
  (Config.hmacSha384 k.toNat 32 (packBytes m) (m.map (·.1)).sum).setWidth 256

/-- Encryption and decryption are one operation: XOR with the key stream. -/
def gcmApply (k : BitVec 256) (iv : BitVec 96) (l : List W128) : List W128 := l.zipIdx.map (fun e => e.1 ^^^ Config.gcmStream k iv e.2)

/-- The tag over additional data and ciphertext in whole units. -/
def gcmTagOf (k : BitVec 256) (iv : BitVec 96) (aad ct : List W128) : W128 :=
  Config.gcmTag k iv (unitsNum aad) (16 * aad.length) (unitsNum ct) (16 * ct.length)

/-- A sealed part: a 16-byte field with the IV, the ciphertext, the tag (R265, R274). -/
def sealUnits (k : BitVec 256) (iv : BitVec 96) (l : List W128) : List W128 :=
  let ct := gcmApply k iv l
  iv.setWidth 128 :: ct ++ [gcmTagOf k iv [] ct]

/-- An IV of an image: the value drawn for it, then a 32-bit index (R266). -/
def imgIv (rnd : W64) (j : Nat) : BitVec 96 := BitVec.ofNat 96 (rnd.toNat + j % 2 ^ 32 * 2 ^ 64)

/-! ### The device identity (R534) -/

/-- A wide public value of the Cox read as one number, byte 0 least significant. -/
def coxNum (d : Dev) (off words : Nat) : Nat :=
  (List.range words).foldl (fun a k => a + (d.reg 0x141 (off + 4 * k)).toNat * 2 ^ (32 * k)) 0
def setCoxNum (d : Dev) (off words v : Nat) : Dev :=
  (List.range words).foldl (fun (d : Dev) k => d.setReg 0x141 (off + 4 * k) (BitVec.ofNat 32 (v / 2 ^ (32 * k)))) d

/-- The device identity hash: SHA-384 of the five die identities (R534). -/
def devHash (d : Dev) : BitVec 384 := Config.sha384 (coxNum d R.FUS_DIE 10) 40

/-! ### The key ladder (R535, R537) -/

/-- Bytes of a number, byte 0 lowest, read with byte 0 most significant. -/
def beNum (n v : Nat) : Nat := (toBytes v n).foldl (fun a b => a * 256 + b.toNat) 0

/-- A private scalar: d = (HMAC-SHA-384(DS, label) mod (n − 1)) + 1. The HMAC is read with its first byte most significant.
PRESUMED: log entry 139. -/
def privScalar (label : String) : Nat :=
  let m := asciiBytes label
  beNum 48 (Config.hmacSha384 Config.deviceSecret.toNat 32 (packBytes m) m.length).toNat % (Config.p384Order - 1) + 1

def scalarAK : Nat := privScalar "TX9 AK"
def scalarKK : Nat := privScalar "TX9 KK"
/-- The device's public keys: 0 AK, 1 KK. -/
def devicePub (which : Nat) : BitVec 768 := Config.p384Base (if which = 0 then scalarAK else scalarKK)

/-- BMK, the key of the battery memory. DESIGN CHOICE: log entry 150. -/
def keyBMK : BitVec 256 := kdf Config.deviceSecret "BBM" []
/-- OCK or TCK_t, OSK or TSK_t, OCC or TCC_t, from a principal's root key. -/
def keyConfig (root : BitVec 256) : BitVec 256 := kdf root "CFG" []
def keySeal (root : BitVec 256) : BitVec 256 := kdf root "SEAL" []
def keyCache (d : Dev) (root : BitVec 256) : BitVec 256 := kdf root "CACHE" [(48, (devHash d).toNat)]

/-- Loads and removals of a principal's sealing key at all four seal units, with its bit in CAT_SEAL_KEYS (R538). -/
def sealKeyLoad (d : Dev) (p : Nat) (root : BitVec 256) : Dev :=
  (List.range 4).foldl (fun (d : Dev) q =>
    { d with sealKeys := tput d.sealKeys none (q * 16 + p) (some (keySeal root)) }.orReg (0x160 + q) R.CAT_SEAL_KEYS (bit p)) d
def sealKeyDrop (d : Dev) (p : Nat) : Dev :=
  (List.range 4).foldl (fun (d : Dev) q =>
    { d with sealKeys := tput d.sealKeys none (q * 16 + p) none }.clrReg (0x160 + q) R.CAT_SEAL_KEYS (bit p)) d
def sealKeysClear (d : Dev) : Dev :=
  (List.range 4).foldl (fun (d : Dev) q => d.setReg (0x160 + q) R.CAT_SEAL_KEYS 0) { d with sealKeys := [] }

end Sys2Proof.Machine
end

