-- ==== Sys2Proof/Machine/Routing.lean ====
section
/-! DEFINITION. Destinations of addresses (R28 to R30, R364) and the issue of requests by a node's units (R329, R342). -/

namespace Sys2Proof.Machine

def deviceOf (addr : Nat) : Nat := addr / 2 ^ 46 % 64
def localAddr (addr : Nat) : Nat := addr % 2 ^ 46

/-- Whether a 52-bit address lies in the control space of its device (R28). -/
def inControl (addr : Nat) : Bool := 0x3FFFFC000000 ≤ localAddr addr
def controlOff (addr : Nat) : Nat := localAddr addr - 0x3FFFFC000000
def inDram (addr : Nat) : Bool := localAddr addr < 2 ^ 40
def inHost (addr : Nat) : Bool := 0x200000000000 ≤ localAddr addr && localAddr addr < 0x300000000000

/-- The channels of a mask in ascending order. -/
def maskChannels (m : Nat) : List Nat := (List.range 8).filter (fun n => m.testBit n)

/-- The channel and channel-local address of a DRAM address under an interleave table (R363, R364). -/
def dramIn (t : List (Nat × Nat × Nat × Nat)) (a : Nat) : Option (Nat × Nat) :=
  match t.find? (fun s => s.1 * 2 ^ 30 ≤ a && a < (s.1 + s.2.1) * 2 ^ 30) with
  | none => none
  | some (g, _, mask, b) =>
    let o := a - g * 2 ^ 30
    let blk := o / 4096
    let ch := maskChannels mask
    match ch[blk % ch.length]? with
    | some n => some (n, b * 2 ^ 30 + blk / ch.length * 4096 + o % 4096)
    | none => none

/-- As the table in force places it. -/
def dramOf (d : Dev) (a : Nat) : Option (Nat × Nat) := dramIn d.isets a

/-- The interleave table that a packet was injected under (R365). -/
def tableFor (d : Dev) (p : Pkt) : List (Nat × Nat × Nat × Nat) :=
  match d.noc.flightOld.find? (fun e => e.1 = p.hdr) with
  | some e => e.2
  | none => d.isets

/-- A DRAM request leaves its node, and arrives. -/
def flown (d : Dev) (p : Pkt) : Dev :=
  if 0x100 ≤ p.dest ∧ p.dest < 0x108 then { d with noc := { d.noc with flight := d.noc.flight ++ [p.hdr] } } else d
def landed (d : Dev) (p : Pkt) : Dev :=
  match d.noc.flightOld.find? (fun e => e.1 = p.hdr) with
  | some e => { d with noc := { d.noc with flightOld := d.noc.flightOld.erase e } }
  | none => if d.noc.flight.contains p.hdr then { d with noc := { d.noc with flight := d.noc.flight.erase p.hdr } } else d

/-- The node a request to an address leaves for: a node of this device, or the link port towards another (R29, R30, R436). The control
space gives every node ID; a reserved one is answered by the first router (R22). -/
def destOf (d : Dev) (addr : Nat) : Option Nat :=
  if deviceOf addr ≠ d.devId then
    let r := d.reg 0x142 (R.CRW_ROUTE + 4 * deviceOf addr)
    if r.getLsbD 31 then some (0x110 + bitsOf r.toNat 0 5) else none
  else if inControl addr then
    some (controlOff addr / 0x10000)
  else if inHost addr then some 0x140
  else if inDram addr then (dramOf d (localAddr addr)).map (fun e => 0x100 + e.1)
  else none

/-- Answer data units of an OK response to a command (R333). -/
def answerUnits (cmd len : Nat) : Nat :=
  if cmd = 1 ∨ cmd = 0x11 then len else if cmd = 0x21 then 64 else if cmd = 2 ∨ cmd = 3 ∨ cmd = 4 ∨ cmd = 0x0C ∨ cmd = 0x0D then 1 else 0

/-- The lowest tag of a node's unit that is neither outstanding nor kept out of use (R329, R344); at island nodes bits [9:8] name
the unit. -/
def freeTag (d : Dev) (node unit : Nat) : Nat :=
  let base := if node < 256 then unit * 256 else 0
  let used (t : Nat) : Bool :=
    d.noc.outst.any (fun o => o.node = node && o.tag = t) || d.noc.quarantine.any (fun e => e.1 = node && e.2.2 = t)
  ((List.range 256).map (· + base)).find? (fun t => !used t) |>.getD base

/-- A unit issues a request: stamped and put in its node's injection queue, outstanding where a response is due. Answers the
status where the node completes it itself with NO_TARGET (R29). -/
def Dev.request (d : Dev) (node unit cmd tag len prio route page : Nat) (rr : Bool) (tenant addr : Nat) (data : List W128) :
    Dev × Option Status :=
  match destOf d addr with
  | none =>
    (d.nocEvent node 4 0 0, some .noTarget)
  | some dest =>
    let p : Pkt := ⟨mkHdr dest node cmd tag len prio tenant (d.epoch node) route page rr addr, data, false⟩
    let n := d.noc
    ({ d with noc := { n with
        inject := n.inject ++ [(node, unit, p)],
        outst := if rr then n.outst ++ [⟨node, unit, tag, cmd, addr, answerUnits cmd len⟩] else n.outst } }, none)

/-- Requests of a unit still waiting for injection and posted (R285). -/
def postedLevel (d : Dev) (node unit : Nat) : Nat :=
  (d.noc.inject.filter (fun e => e.1 = node && e.2.1 = unit && !e.2.2.rr)).length

/-- Requests of some units of a node that have not left it are dropped, with their reservations. -/
def dropInject (d : Dev) (i : Nat) (units : Nat → Bool) : Dev :=
  let hit (e : Nat × Nat × Pkt) : Bool := e.1 = i && units e.2.1
  let gone := d.noc.inject.filter hit
  { d with noc := { d.noc with
      inject := d.noc.inject.filter (fun e => !hit e),
      outst := d.noc.outst.filter (fun o => !gone.any (fun e => o.node = i && o.unit = e.2.1 && o.tag = e.2.2.tag && e.2.2.rr)) } }

/-- Drop a unit's outstanding entry by tag. -/
def Dev.dropOutst (d : Dev) (node unit tag : Nat) : Dev :=
  { d with noc := { d.noc with outst := d.noc.outst.filter (fun o => !(o.node = node && o.unit = unit && o.tag = tag)) } }

/-! ### Statistics of requests (R355) -/

def statKey (node unit : Nat) : Nat := node * 32 + unit
def updStat (d : Dev) (node unit : Nat) (f : StatAcc → StatAcc) : Dev :=
  { d with noc := { d.noc with stat := tput d.noc.stat {} (statKey node unit) (f (tget d.noc.stat {} (statKey node unit))) } }

/-- The latency bin of L cycles. -/
def latBin (l : Nat) : Nat := if l < 64 then 0 else if 4096 ≤ l then 7 else Nat.log2 l - 5

def countAt (l : List Nat) (k : Nat) : List Nat := l.set k (l.getD k 0 + 1)

/-- A non-posted request ends: with its response's data units, after L cycles. -/
def statDone (d : Dev) (node unit units l b : Nat) : Dev :=
  updStat d node unit (fun x => { x with np := x.np + 1, bytes := x.bytes + 16 * units, hist := countAt x.hist b, max := max x.max l })

/-! ### Requests of the hub's own units -/

def laneOf (addr : Nat) (v : Word) : W128 := BitVec.ofNat 128 (v.toNat * 2 ^ (8 * (addr % 16)))

/-- A request of the Cox, the configuration controller or a scrub unit: route 01, the tenant field of its initiator, answered inside the
command, counted with a latency that is a free value (R31, R39, R355). DESIGN CHOICE: log entry 143. -/
def Dev.asked (d : Dev) (src dest cmd len tenant addr : Nat) (data : List W128) : Dev :=
  let p : Pkt := ⟨mkHdr dest src cmd (freeTag d src 0) len 0 tenant (d.epoch src) 1 0 true addr, data, false⟩
  let (l, d) := d.draw
  let d := updStat d src 0 (fun x => { x with reqs := x.reqs + 1, bytes := x.bytes + 16 * data.length })
  (statDone d src 0 (answerUnits cmd len) l (latBin l)).emit (.asked p)

/-- The address of a register in the device's own control space (R28). -/
def regAddr (d : Dev) (node off : Nat) : Nat := d.devId * 2 ^ 46 + 0x3FFFFC000000 + node * 0x10000 + off

/-- A register of a node is set as a write by the Cox or the configuration controller sets it. -/
def Dev.putReg (d : Dev) (src tenant node off : Nat) (v : Word) : Dev :=
  (d.setReg node off v).asked src node 0xB 1 tenant (regAddr d node off) [laneOf (regAddr d node off) v]
def Dev.putFld (d : Dev) (src tenant node off lo w v : Nat) : Dev :=
  let d' := d.setFld node off lo w v
  d'.asked src node 0xB 1 tenant (regAddr d node off) [laneOf (regAddr d node off) (d'.reg node off)]

end Sys2Proof.Machine
end

