-- ==== Sys2Proof/Machine/Seal.lean ====
section
/-! DEFINITION. The seal units: their keys, the work that waits in them and the turns in which they serve it (R253, R262, R266, R272,
R275, R276, R280). -/

namespace Sys2Proof.Machine

/-- The seal unit of an island's quarter (R272). -/
def sealNode (i : Nat) : Nat := 0x160 + quarterOf i

/-- The sealing key of a principal in a seal unit; what a unit seals under that holds none is open. DESIGN CHOICE: log entry 140. -/
def sealKey (d : Dev) (q t : Nat) : BitVec 256 := (tget d.sealKeys none (q * 16 + t)).getD (BitVec.ofNat 256 (Config.freeNat d.free))

/-- Work of a seal unit is still waiting or unanswered. -/
def sealBusy (d : Dev) (u : SealUse) : Bool := d.sealQ.any (fun j => j.use = u) || d.sealOut.any (fun e => e.2.2 = u)

/-- Units of 16 bytes from an address on, cut where a 4 KiB block of addresses ends and every 128 (R262, R332). `n` bounds the cuts. -/
def cutUnits (size : Nat) : Nat → Nat → List W128 → List (Nat × List W128)
  | 0, _, _ => []
  | _, _, [] => []
  | n + 1, a, l =>
    let k := min size ((4096 - a % 4096) / 16)
    (a, l.take k) :: cutUnits size n (a + 16 * k) (l.drop k)

/-- Units wait to be written from an address on; `counts` where they have been sealed. DESIGN CHOICE: log entry 46. -/
def sealWrite (d : Dev) (q owner tenant addr : Nat) (l : List W128) (counts : Bool) (u : SealUse) : Dev :=
  { d with sealQ := d.sealQ ++ (cutUnits 256 l.length addr l).map (fun e =>
      { q := q, owner := owner, tenant := tenant, addr := e.1, data := e.2, bytes := if counts then 16 * e.2.length else 0, use := u }) }

/-- `n` units from an address on wait to be read and unsealed. -/
def sealRead (d : Dev) (q owner tenant addr n : Nat) (u : SealUse) : Dev :=
  let cuts := cutUnits 256 n addr (List.replicate n 0)
  { d with sealQ := d.sealQ ++ cuts.map (fun e =>
      { q := q, owner := owner, tenant := tenant, addr := e.1, data := [], reads := e.2.length, bytes := 16 * e.2.length, use := u }) }

/-- Work that has not begun is dropped. -/
def sealDrop (d : Dev) (p : SealUse → Bool) : Dev := { d with sealQ := d.sealQ.filter (fun j => !p j.use) }

/-- A log block's write failed. -/
def LogBlk.note (b : LogBlk) (num : Nat) (st : Status) : LogBlk := if b.num = num then { b with bad := some st } else b

/-- A request of a seal unit has been answered; a failure is kept for what it serves (R275 to R278). -/
def sealNote (d : Dev) (q : Nat) (u : SealUse) (st : Status) : Dev :=
  if st = .ok then d
  else
    let fail (c : CatchCmd) (restore : Bool) (o : Origin) (l : List Nat) : CatchCmd :=
      if c.restore = restore ∧ c.origin = o ∧ c.islands = l ∧ c.bad.isNone then { c with bad := some st } else c
    match u with
    | .image o l => { d with catches := d.catches.map (fun c => fail c false o l) }.sticky (0x160 + q) 6 20 1 R.CAT_SEAL_ERR
    | .restore o l => { d with catches := d.catches.map (fun c => fail c true o l) }.sticky (0x160 + q) 6 20 1 R.CAT_SEAL_ERR
    | .log i num => d.updIsl i (fun x => { x with log := { x.log with
        staging := x.log.staging.map (fun b => b.note num st), failed := x.log.failed.map (fun b => b.note num st) } })
    | .replay i => d.updIsl i (fun x => { x with replay := x.replay.map (fun rp => { rp with readBad := some st }) })

/-- One request of a seal unit: non-posted, dimension-ordered (R31, R39, R275). -/
def sealAsk (d : Dev) (q : Nat) (u : SealUse) (cmd len tenant addr : Nat) (data : List W128) : Dev :=
  let node := 0x160 + q
  let tag := freeTag d node 0
  match d.request node 0 cmd tag len 0 1 0 true tenant addr data with
  | (d, none) => { d with sealOut := d.sealOut ++ [(node, tag, u)] }
  | (d, some st) => sealNote d q u st

/-- A seal unit serves one unit of work; CAT_SEAL_BYTES counts what is sealed or unsealed. DEDUCED: log entry 44. -/
def sealServe (d : Dev) (j : SealJob) : Dev :=
  let o := R.CAT_SEAL_BYTES + 8 * j.owner
  let node := 0x160 + j.q
  let d := { d with sealQ := d.sealQ.erase j, sealLast := tput d.sealLast 0 j.q (j.owner + 1) }
  let d := d.setReg64 node o (d.reg64 node o + BitVec.ofNat 64 j.bytes)
  let l := if j.reads = 0 then j.data else List.replicate j.reads 0
  (cutUnits 128 l.length j.addr l).foldl (fun (d : Dev) e =>
    if j.reads = 0 then sealAsk d j.q j.use 8 e.2.length j.tenant e.1 e.2 else sealAsk d j.q j.use 1 e.2.length j.tenant e.1 []) d

def isLogUse : SealUse → Bool
  | .log _ _ => true
  | _ => false

/-- The next unit of work of a quarter: the tenants that have work take turns, log blocks come before images (R262). -/
def sealNext (d : Dev) (q : Nat) : Option SealJob :=
  let l := d.sealQ.filter (fun j => j.q = q)
  let last := tget d.sealLast 0 q
  match ((List.range 16).map (fun k => (last + k) % 16)).find? (fun t => l.any (fun j => j.owner = t)) with
  | none => none
  | some t =>
    let mine := l.filter (fun j => j.owner = t)
    match mine.find? (fun j => isLogUse j.use) with
    | some j => some j
    | none => mine.head?

/-- A turn of the seal unit of a quarter, where its tags leave room for the requests of one. -/
def sealTurn (d : Dev) (q : Nat) : Dev :=
  match sealNext d q with
  | some j => if 128 ≤ (d.sealOut.filter (fun e => e.1 = 0x160 + q)).length then d else sealServe d j
  | none => d

end Sys2Proof.Machine
end

