-- ==== Sys2Proof/Machine/InputLog.lean ====
section
/-! DEFINITION. The island input log: records, blocks and their close (R272 to R275). -/

/-- Bytes a record takes in a block (R273). -/
def Sys2Proof.LogRec.size (r : Sys2Proof.LogRec) : Nat := 32 + 16 * r.payload.length

namespace Sys2Proof.Machine

def logEn (d : Dev) (i : Nat) : Bool := d.flag i R.CAT_LOG_CTL 0

/-! ### Layouts (R273, R274) -/

/-- A record: its 32 bytes, then its payload. -/
def LogRec.units (r : LogRec) : List W128 :=
  unitsOfNum 2 (packBytes [(1, r.typ), (1, r.payload.length), (2, r.src), (4, r.seq), (8, r.stroke), (16, r.param.toNat)]) ++ r.payload

/-- covered_through: the highest stroke that `n` strokes cover; of none, it is open. DESIGN CHOICE: log entry 138. -/
def coveredThrough (d : Dev) (n : Nat) : Nat := if n = 0 then Config.freeNat d.free else n - 1

/-- A block's plaintext, 4,064 bytes: header, records, and what the spec leaves open behind them. DESIGN CHOICE: log entry 138. -/
def logPlain (d : Dev) (i : Nat) (b : LogBlk) : List W128 :=
  let head := packBytes [(1, i), (1, d.devId), (2, 0), (4, b.num), (4, (b.recs.head?.map (·.seq)).getD (d.reg i R.CAT_LOG_SEQ).toNat),
    (4, b.recs.length), (8, 0), (8, coveredThrough d b.covered)]
  let l := unitsOfNum 2 head ++ b.recs.flatMap LogRec.units
  l ++ (List.range (254 - l.length)).map (Config.freeWord d.free)

/-! ### Closing and writing -/

/-- The seal unit is to write a closed block to its place in the log region, with the owner's tenant field (R272, R275). -/
def writeBlock (d : Dev) (i : Nat) (b : LogBlk) : Dev :=
  sealWrite d (quarterOf i) (d.owner i) (d.owner i) ((d.reg64 i R.CAT_LOG_BASE).toNat + b.num * 4096) b.units true (.log i b.num)

/-- Every block but one is held, and none may be given up (R272). -/
def logFull (d : Dev) (i : Nat) : Bool :=
  !d.flag i R.CAT_LOG_CTL 1 && (d.fld i R.CAT_LOG_HEAD 0 24 + 1) % d.fld i R.CAT_LOG_SIZE 0 24 = d.fld i R.CAT_LOG_TAIL 0 24

/-- The records that the next block takes, and the rest; records do not span blocks (R273). -/
def splitBlock (room : Nat) : List LogRec → List LogRec × List LogRec
  | [] => ([], [])
  | r :: l => if room < r.size then ([], r :: l) else let (a, b) := splitBlock (room - r.size) l; (r :: a, b)

/-- A block can be closed: one is free, or may be given up, and so is a staging buffer (R272). -/
def logRoom (d : Dev) (i : Nat) : Bool := !logFull d i && (d.isl i).log.staging.length < 2

/-- Close and seal the open block, as far as its records fit; `cov` strokes are covered by it and what lies before it, `due` is the close
that then waits for the records left (R274). With wrap = 1 and no free block the oldest is given up; with wrap = 0, or with both staging
buffers in use, the close waits (R272). -/
def closeUpTo (d : Dev) (i cov : Nat) (due : Option Nat) : Dev :=
  let size := d.fld i R.CAT_LOG_SIZE 0 24
  let l := (d.isl i).log
  if !logEn d i || size ≤ 1 then d
  else if !logRoom d i then d.updIsl i (fun x => { x with log := { l with closeDue := due } })
  else
    let head := d.fld i R.CAT_LOG_HEAD 0 24
    let tail := d.fld i R.CAT_LOG_TAIL 0 24
    let (recs, rest) := splitBlock 4032 l.openRecs
    let b : LogBlk := { num := head, recs := recs, covered := match rest with | r :: _ => r.stroke | [] => cov }
    let (v, d) := d.draw
    let b := { b with units := sealUnits (sealKey d (quarterOf i) (d.owner i)) (BitVec.ofNat 96 v) (logPlain d i b) }
    let (_, d) := d.draw
    let head' := (head + 1) % size
    let d := (d.updIsl i (fun x => { x with log := { l with
      openRecs := rest, sinceClose := 0, staging := l.staging ++ [b], closeDue := if rest.isEmpty then none else due } })).setFld i
        R.CAT_LOG_HEAD 0 24 head'
    let d := if head' = tail ∧ d.flag i R.CAT_LOG_CTL 1 then
        (d.setFld i R.CAT_LOG_TAIL 0 24 ((tail + 1) % size)).islEvent i 2 6 3 6 R.CAT_EVENTS
      else d
    writeBlock d i b

/-- The whole open block is closed. -/
def closeBlock (d : Dev) (i cov : Nat) : Dev := closeUpTo d i cov (some cov)

/-- The open block holds more than one block takes. -/
def overfull (l : IslLog) : Bool := 4032 < (l.openRecs.map LogRec.size).sum

/-- Closes that waited are made as far as blocks and buffers allow. -/
def logFlush (d : Dev) (i : Nat) : Nat → Dev
  | 0 => d
  | n + 1 =>
    let l := (d.isl i).log
    if !logRoom d i then d
    else if overfull l then logFlush (closeUpTo d i ((l.openRecs.getLast?.map (·.stroke)).getD 0) l.closeDue) i n
    else match l.closeDue with
      | some cov => closeBlock d i cov
      | none => d

/-- Whether one more record of `bytes` needs a new block. -/
def needsBlock (d : Dev) (i bytes : Nat) : Bool :=
  4064 < 32 + (((d.isl i).log.openRecs.map LogRec.size).sum) + bytes

/-- Write one record into the island's log; the sequence number is CAT_LOG_SEQ (R273). A full block is closed first. -/
def logRecord (d : Dev) (i typ src stroke : Nat) (param : W128) (payload : List W128) : Dev :=
  if !logEn d i then d
  else
    let seq := (d.reg i R.CAT_LOG_SEQ).toNat
    let r : LogRec := ⟨typ, src, seq, stroke, param, payload⟩
    let d := if needsBlock d i r.size then closeUpTo d i stroke (d.isl i).log.closeDue else d
    (d.updIsl i (fun x => { x with log := { x.log with openRecs := x.log.openRecs ++ [r] } })).setReg i R.CAT_LOG_SEQ
      (BitVec.ofNat 32 (seq + 1))

/-- CRC-32C over bytes, reflected polynomial 0x82F63B78 (R505, R273, R296): the running register. -/
def crc32cByte (c : Word) (b : Byte) : Word :=
  (List.range 8).foldl (fun (x : Word) _ => if x.getLsbD 0 then (x >>> 1) ^^^ 0x82F63B78#32 else x >>> 1) (c ^^^ b.setWidth 32)

def crc32cUpd (c : Word) (bs : List Byte) : Word := bs.foldl crc32cByte c

def unitBytes (w : W128) : List Byte := toBytes w.toNat 16

/-- CRC-32C of whole words, initial value and final XOR all ones. -/
def crc32c (ws : List W128) : Word := ~~~ crc32cUpd (BitVec.allOnes 32) (ws.flatMap unitBytes)

end Sys2Proof.Machine
end

