-- ==== Sys2Proof/Machine/Memory.lean ====
section
/-! DEFINITION. Block memories and queue controllers (R122 to R163): the array and its word mapping, error correction, port
accesses, FIFO and ring modes, the device agents of port B. -/

namespace Sys2Proof.Machine

/-! ### Configuration fields (R162) -/

def Bram.use (b : Bram) : Nat := bitsOf b.cfg.toNat 0 2
def Bram.qmode (b : Bram) : Nat := bitsOf b.cfg.toNat 2 2
def Bram.ecc (b : Bram) : Bool := b.cfg.getLsbD 4
def Bram.doreg (b : Bram) (portB : Bool) : Bool := b.cfg.getLsbD (if portB then 18 else 17)
def Bram.widthCode (b : Bram) (portB : Bool) : Nat := bitsOf b.cfg.toNat (if portB then 9 else 5) 4
def Bram.wmode (b : Bram) (portB : Bool) : Nat := bitsOf b.cfg.toNat (if portB then 15 else 13) 2
def Bram.ckmode (b : Bram) (portB : Bool) : Nat := bitsOf b.cfg.toNat (if portB then 23 else 21) 2
def Bram.clkline (b : Bram) (portB : Bool) : Nat := bitsOf b.cfg.toNat (if portB then 27 else 25) 2
def Bram.fwft (b : Bram) : Bool := b.cfg.getLsbD 19
def Bram.syncN (b : Bram) : Nat := if b.cfg.getLsbD 20 then 3 else 2
def Bram.isRing (b : Bram) : Bool := b.use = 2 && 2 ≤ b.qmode
def Bram.toFabric (b : Bram) : Bool := b.use = 2 && b.qmode = 2
def Bram.fromFabric (b : Bram) : Bool := b.use = 2 && b.qmode = 3

/-- Width in bits of a width code: the binary family 0 to 7, the nine-bit family 8 to 12 (R123, R162). -/
def widthOf (code : Nat) : Nat := if code ≤ 7 then 2 ^ code else 9 * 2 ^ (code - 8)
def nineBit (code : Nat) : Bool := 8 ≤ code
/-- Depth in words of a width code (R123). -/
def depthOf (code : Nat) : Nat := if code ≤ 7 then 65536 / 2 ^ code else 8192 / 2 ^ (code - 8)

/-! ### Error correction (R134, R135) -/

/-- p(j): the integers of 3 or more that are not powers of two, in order. -/
def eccPositions : List Nat := (List.range 72).filter (fun n => 3 ≤ n && !(n = 4 || n = 8 || n = 16 || n = 32 || n = 64))

def parity (w : Nat) (n : Nat) : Bool := (List.range w).foldl (fun a k => a != n.testBit k) false

/-- The check byte of a half (R134). -/
def checkByte (x : BitVec 64) : BitVec 8 :=
  let v := x.toNat
  let c := (eccPositions.zipIdx).foldl (fun a e => if v.testBit e.2 then a ^^^ e.1 else a) 0
  BitVec.ofNat 8 (c % 128 + (if parity 64 v != parity 7 c then 128 else 0))

/-- Decode of a half: the data delivered and 0 no error, 1 corrected, 2 uncorrectable (R135). -/
def decodeHalf (x : BitVec 64) (chk : BitVec 8) : BitVec 64 × Nat :=
  let s := ((checkByte x ^^^ chk).toNat) % 128
  let p := parity 64 x.toNat != parity 8 chk.toNat
  if !p then (if s = 0 then (x, 0) else (x, 2))
  else if s = 0 ∨ s = 1 ∨ s = 2 ∨ s = 4 ∨ s = 8 ∨ s = 16 ∨ s = 32 ∨ s = 64 then (x, 1)
  else
    match eccPositions.idxOf? s with
    | some j => (x ^^^ BitVec.ofNat 64 (2 ^ j), 1)
    | none => (x, 2)

def halfData (r : Row) (h : Nat) : BitVec 64 := r.extractLsb' (64 * h) 64
def halfChk (r : Row) (h : Nat) : BitVec 8 := r.extractLsb' (128 + 8 * h) 8

def rowOf (d0 d1 : BitVec 64) (c0 c1 : BitVec 8) : Row := c1 ++ c0 ++ d1 ++ d0

/-- Replace a half and its check byte. -/
def setHalf (r : Row) (h : Nat) (x : BitVec 64) (c : BitVec 8) : Row :=
  if h = 0 then rowOf x (halfData r 1) c (halfChk r 1) else rowOf (halfData r 0) x (halfChk r 0) c

/-- A row of 128 data bits with computed check columns. -/
def eccRow (x : W128) : Row :=
  let lo := x.extractLsb' 0 64
  let hi := x.extractLsb' 64 64
  rowOf lo hi (checkByte lo) (checkByte hi)

/-- A row as a reader receives it: each half corrected where it can be, with the two outcomes. -/
def decodeRow (ecc : Bool) (r : Row) : Row × Nat × Nat :=
  if !ecc then (r, 0, 0)
  else
    let (x0, k0) := decodeHalf (halfData r 0) (halfChk r 0)
    let (x1, k1) := decodeHalf (halfData r 1) (halfChk r 1)
    (rowOf x0 x1 (halfChk r 0) (halfChk r 1), k0, k1)

/-! ### Word mapping (R124) -/

/-- The row of a word and its place: binary words by first column, nine-bit words by first byte. -/
def wordRow (code a : Nat) : Nat := if nineBit code then a * 2 ^ (code - 8) / 16 else a * widthOf code / 128

def wordGet (code a : Nat) (r : Row) : Row :=
  if nineBit code then
    let b0 := a * 2 ^ (code - 8) % 16
    BitVec.ofNat 144 ((List.range (2 ^ (code - 8))).foldl (fun acc n =>
      acc + (bitsOf r.toNat ((b0 + n) * 8) 8 + (if r.getLsbD (128 + b0 + n) then 256 else 0)) * 2 ^ (9 * n)) 0)
  else BitVec.ofNat 144 (bitsOf r.toNat (a * widthOf code % 128) (widthOf code))

/-- Whether byte enable k applies to a width, and the columns of a row that a write of `be` covers, with their data. -/
def wordPut (code a : Nat) (di : Row) (be : Nat) (r : Row) : Row :=
  if nineBit code then
    let b0 := a * 2 ^ (code - 8) % 16
    (List.range (2 ^ (code - 8))).foldl (fun (acc : Row) n =>
      if widthOf code < 18 || be.testBit n then
        let v := bitsOf di.toNat (9 * n) 9
        let m : Row := BitVec.ofNat 144 (255 * 2 ^ ((b0 + n) * 8) + 2 ^ (128 + b0 + n))
        (acc &&& ~~~m) ||| BitVec.ofNat 144 ((v % 256) * 2 ^ ((b0 + n) * 8) + (v / 256) * 2 ^ (128 + b0 + n))
      else acc) r
  else
    let w := widthOf code
    let c := a * w % 128
    if w < 16 then
      let m : Row := BitVec.ofNat 144 ((2 ^ w - 1) * 2 ^ c)
      (r &&& ~~~m) ||| BitVec.ofNat 144 ((di.toNat % 2 ^ w) * 2 ^ c)
    else
      (List.range (w / 8)).foldl (fun (acc : Row) k =>
        if be.testBit k then
          let m : Row := BitVec.ofNat 144 (255 * 2 ^ (c + 8 * k))
          (acc &&& ~~~m) ||| BitVec.ofNat 144 (bitsOf di.toNat (8 * k) 8 * 2 ^ (c + 8 * k))
        else acc) r

/-- The halves a binary word touches, and whether a write covers half h whole (R137). -/
def touches (code a h : Nat) : Bool :=
  let w := widthOf code
  if w = 128 then true else a * w % 128 / 64 = h

def coversWhole (code be h : Nat) : Bool :=
  let w := widthOf code
  if w = 128 then bitsOf be (8 * h) 8 = 255 else w = 64 && be % 256 = 255

/-! ### Error reports (R138) -/

/-- The agents of MEM_ECC_ADDR (R162). -/
def memRec (i m off : Nat) : Nat × Nat := (i, off + m * 0x40)

/-- Report a decode of kind 1 (corrected) or 2 (uncorrectable) at a row and half by an agent. -/
def memReport (d : Dev) (i m row h agent kind : Nat) : Dev :=
  if kind = 0 then d
  else
    let o := m * 0x40
    let b := if kind = 1 then 0 else 1
    let d := d.countFld i (R.MEM_ECC_COUNT + o) (16 * b) 16 1
    let d := if d.flag i (R.MEM_ECC_ADDR + o) 31 then d
      else d.setReg i (R.MEM_ECC_ADDR + o) (BitVec.ofNat 32 (row + h * 512 + agent * 1024 + b * 8192 + 2 ^ 31))
    let d := (d.orReg i (R.MEM_STATUS + o) (bit b)).cause i 3
    let d := if kind = 1 then
        let k := i * 96 + m
        let x := d.bram k
        d.setBram k { x with writeBack := if x.writeBack.contains (row * 2 + h) then x.writeBack else x.writeBack ++ [row * 2 + h] }
      else d
    d.eventP i 0 (if kind = 1 then 3 else 4) 4 b (d.owner i) (d.reg i (R.MEM_STATUS + o)) (d.reg i (R.MEM_ECC_ADDR + o)) 0 0

/-- Both halves of a decoded row reported. -/
def memReport2 (d : Dev) (i m row agent k0 k1 : Nat) : Dev :=
  memReport (memReport d i m row 0 agent k0) i m row 1 agent k1

/-! ### Writes to the array, with copy-before-write (R257) -/

/-- An undrained row of a memory in use while the island's shadow is held. -/
def undrained (d : Dev) (i m r : Nat) : Bool :=
  (d.isl i).shadow.isSome && (d.bram (i * 96 + m)).use ≠ 0 && !(d.bram (i * 96 + m)).drained.getLsbD r

def markDrained (d : Dev) (i m r : Nat) : Dev :=
  let k := i * 96 + m
  let b := d.bram k
  d.setBram k { b with drained := b.drained ||| BitVec.ofNat 512 (2 ^ r) }

/-- Free preserve entries of an island. -/
def preserveFree (d : Dev) (i : Nat) : Nat :=
  match (d.isl i).shadow with
  | none => 32
  | some s => 32 - s.preserve.length

/-- The preservation read before a write (R140, R257). A write that cannot wait and finds no entry free proceeds; the image's copy of
the row is then a free value. DEDUCED: log entry 29. -/
def preserveRow (d : Dev) (i m r : Nat) : Dev :=
  if !undrained d i m r then d
  else if preserveFree d i = 0 then
    d.updIsl i (fun x => { x with shadow := x.shadow.map (fun s => { s with spoiled := if s.spoiled.contains (m * 512 + r) then s.spoiled else s.spoiled ++ [m * 512 + r] }) })
  else
    let row := d.row (i * 96 + m) r
    markDrained (d.updIsl i (fun x => { x with shadow := x.shadow.map (fun s => { s with preserve := s.preserve ++ [(m, r, row)] }) })) i m r

/-- Store a row on behalf of an agent: the preservation read first, and pending write-backs of the halves written are
cancelled (R136). -/
def writeRow (d : Dev) (i m r : Nat) (v : Row) (h0 h1 : Bool) : Dev :=
  let d := preserveRow d i m r
  let k := i * 96 + m
  let b := d.bram k
  let d := d.setBram k { b with writeBack := b.writeBack.filter (fun w => !((h0 && w = r * 2) || (h1 && w = r * 2 + 1))) }
  d.setRow k r v

/-! ### Port accesses (R128 to R131, R137) -/

/-- The pins of a port at an edge. -/
structure PortPins where
  addr : Nat
  di : Row
  be : Nat
  we : Bool
  en : Bool
  rst : Bool
deriving DecidableEq, Repr

/-- What one access does: the row written (if any), the latch's new value with its error code (if it loads), the reports by
half, and whether a half was poisoned. -/
structure Access where
  row : Nat
  write : Option Row := none
  latch : Option (Row × BitVec 2) := none
  k0 : Nat := 0
  k1 : Nat := 0
  poison : Bool := false
  /-- the halves were read to merge a write into them (R137) -/
  rmw : Bool := false
  h0 : Bool := true
  h1 : Bool := true
deriving DecidableEq, Repr

def errCode (k0 k1 : Nat) : BitVec 2 := if k0 = 2 ∨ k1 = 2 then 2 else if k0 = 1 ∨ k1 = 1 then 1 else 0

/-- The access of a port at a word address against a row as it stands. -/
def accessOf (ecc : Bool) (code wmode a : Nat) (p : PortPins) (stored : Row) : Access :=
  let row := wordRow code a
  let (cor, k0, k1) := decodeRow ecc stored
  let t0 := touches code a 0
  let t1 := touches code a 1
  if !p.we then
    let k0 := if t0 then k0 else 0
    let k1 := if t1 then k1 else 0
    { row := row, latch := some (wordGet code a cor, errCode k0 k1), k0 := k0, k1 := k1 }
  else if !ecc then
    let new := wordPut code a p.di p.be stored
    { row := row, write := some new,
      latch := if wmode = 0 then some (wordGet code a new, 0) else if wmode = 1 then some (wordGet code a stored, 0) else none }
  else
    let whole0 := coversWhole code p.be 0
    let whole1 := coversWhole code p.be 1
    let rmw0 := t0 && !whole0
    let rmw1 := t1 && !whole1
    let merged := wordPut code a p.di p.be cor
    let half (h : Nat) (t rmw : Bool) (k : Nat) (r : Row) : Row :=
      if !t then setHalf r h (halfData stored h) (halfChk stored h)
      else
        let x := halfData merged h
        setHalf r h x (if rmw && k = 2 then checkByte x ^^^ 0x03#8 else checkByte x)
    let new := half 1 t1 rmw1 k1 (half 0 t0 rmw0 k0 merged)
    let r0 := if rmw0 then k0 else 0
    let r1 := if rmw1 then k1 else 0
    let o0 := if t0 then k0 else 0
    let o1 := if t1 then k1 else 0
    { row := row, write := some new,
      latch := if wmode = 0 then some (wordGet code a new, errCode r0 r1)
               else if wmode = 1 then some (wordGet code a cor, errCode o0 o1) else none,
      k0 := if wmode = 1 then o0 else r0, k1 := if wmode = 1 then o1 else r1,
      poison := (rmw0 && k0 = 2) || (rmw1 && k1 = 2), rmw := wmode ≠ 1, h0 := t0, h1 := t1 }

/-- The latch, output register and RST of a port at an edge (R128). -/
def portAfter (doreg : Bool) (q : BramPort) (p : PortPins) (noChange : Bool) (latch : Option (Row × BitVec 2)) : BramPort :=
  let q1 := if p.en && !noChange then { q with outReg := q.latch, outErr := q.latchErr } else q
  let q2 := match latch with
    | some (v, e) => { q1 with latch := v, latchErr := e }
    | none => q1
  if doreg && p.rst then { q2 with outReg := 0, outErr := 0 } else q2

/-- The agent an access reports under: 6 for the read that merges a write, else the port or ring side (R137, R162). DESIGN CHOICE: a
write whose port also reads the word (wmode 01) reports under the port (log entry 127). -/
def Access.agent (x : Access) (port : Nat) : Nat := if x.rmw then 6 else port

/-- Apply an access to the device on behalf of user port A (agent 0) or B (agent 1). DEDUCED: log entry 26; DESIGN CHOICE: log entry 127. -/
def applyAccess (d : Dev) (i m : Nat) (x : Access) (agent : Nat) : Dev :=
  let d := memReport2 d i m x.row (x.agent agent) x.k0 x.k1
  let d := if x.poison then
      let d := (d.orReg i (R.MEM_STATUS + m * 0x40) (bit 2)).cause i 3
      d.eventP i 0 4 4 2 (d.owner i) (d.reg i (R.MEM_STATUS + m * 0x40)) 0 0 0
    else d
  match x.write with
  | some v => writeRow d i m x.row v x.h0 x.h1
  | none => d

/-- A sticky design-side event of QCT_FLAGS: bit, source k = 4, record (R147, R152). -/
def qctEvent (d : Dev) (i m b : Nat) : Dev :=
  let d := (d.orReg i (R.QCT_FLAGS + m * 0x40) (bit b)).cause i 4
  d.eventP i 0 5 5 b (d.owner i) (d.reg i (R.QCT_FLAGS + m * 0x40)) 0 0 0

/-- Whether two writes at one edge share a linear bit (R130). -/
def wordsShare (ca aa cb ab : Nat) : Bool :=
  let span (c a : Nat) : Nat × Nat :=
    if nineBit c then (a * 2 ^ (c - 8) * 8, (a + 1) * 2 ^ (c - 8) * 8) else (a * widthOf c, (a + 1) * widthOf c)
  (span ca aa).1 < (span cb ab).2 && (span cb ab).1 < (span ca aa).2

/-- A memory whose port edges may come closer than t_COLL: of a joined island, or with a port on a wire clock (R130). -/
def loosePorts (d : Dev) (i m : Nat) : Bool :=
  let b := d.bram (i * 96 + m)
  (d.isl i).setup.groupId ≠ 0 || b.ckmode false = 2 || b.ckmode true = 2

/-- An edge of one port alone remembers itself for R130. -/
def noteEdge (d : Dev) (i m : Nat) (portB : Bool) (p : PortPins) (a : Nat) : Dev :=
  let b := d.bram (i * 96 + m)
  d.setBram (i * 96 + m) { b with lastEdge := if p.en then some (portB, a, p.we, d.dtime) else none }

/-- The word of the other port's edge that came less than t_COLL before, and whether it wrote: within one count of DTIME a free bit
says whether it did. DESIGN CHOICE: log entry 25. -/
def closeEdge (d : Dev) (i m : Nat) (portB : Bool) : Option (Nat × Bool) :=
  match (d.bram (i * 96 + m)).lastEdge with
  | some (q, a, w, t) => if q ≠ portB && t = d.dtime && Config.freeBit d.free (i * 96 + m) then some (a, w) else none
  | none => none

/-- The read latch of a port takes a free value, its ERR 00 (R130). -/
def fuzzPort (d : Dev) (i m : Nat) (portB : Bool) : Dev :=
  let k := i * 96 + m
  let b := d.bram k
  let (v, d) := d.draw
  let f (q : BramPort) : BramPort := { q with latch := BitVec.ofNat 144 (v % 2 ^ widthOf (b.widthCode portB)), latchErr := 0 }
  d.setBram k (if portB then { b with portB := f b.portB } else { b with portA := f b.portA })

/-- RAM mode: the accesses of both ports at one moment; a reader returns the value as it stood before, and where both write
a common bit port A's data is stored and port B's discarded. Where the other port writes a common bit, a reader in a joined island or of a
memory on a wire clock gets a free value, and its ERR reads 00 (R130). DEDUCED: log entry 26. DESIGN CHOICE: the read latch of a port B
in wmode 00 whose write is discarded takes the word it presented (log entry 128). -/
def ramPorts (d : Dev) (i m : Nat) (pa pb : Option PortPins) : Dev :=
  let k := i * 96 + m
  let b := d.bram k
  let ca := b.widthCode false
  let cb := b.widthCode true
  let aa := (pa.map (fun p => p.addr % depthOf ca)).getD 0
  let ab := (pb.map (fun p => p.addr % depthOf cb)).getD 0
  let aWrites := pa.any (fun p => p.en && p.we)
  let bWrites := pb.any (fun p => p.en && p.we)
  let clash := aWrites && bWrites && wordsShare ca aa cb ab
  let share := loosePorts d i m && wordsShare ca aa cb ab
  let fuzzA := share && bWrites && pa.any (fun p => p.en && !p.we)
  let fuzzB := share && aWrites && pb.any (fun p => p.en && !p.we)
  let (v, d) := if fuzzA || fuzzB then d.draw else (0, d)
  let fuzz (on : Bool) (c : Nat) (x : Access) : Access := if on then { x with latch := some (BitVec.ofNat 144 (v % 2 ^ widthOf c), 0) } else x
  let xa := pa.bind (fun p => if p.en then some (fuzz fuzzA ca <| accessOf b.ecc ca (b.wmode false) aa p (d.row k (wordRow ca aa))) else none)
  let xb := pb.bind (fun p => if p.en then some (fuzz fuzzB cb <| accessOf b.ecc cb (b.wmode true) ab p (d.row k (wordRow cb ab))) else none)
  let noA := pa.any (fun p => p.we && 2 ≤ b.wmode false)
  let noB := pb.any (fun p => p.we && 2 ≤ b.wmode true)
  let b' := { b with
    portA := match pa with | some p => portAfter (b.doreg false) b.portA p noA (xa.bind (·.latch)) | none => b.portA,
    portB := match pb with | some p => portAfter (b.doreg true) b.portB p noB (xb.bind (·.latch)) | none => b.portB }
  let d := d.setBram k b'
  let d := match xb with
    | some x => if clash then memReport2 d i m x.row (x.agent 1) x.k0 x.k1 else applyAccess d i m x 1
    | none => d
  let d := match xa, pa with
    | some x, some p =>
      -- a write by B to the same row at this moment is merged under A's word
      if aWrites then applyAccess d i m { accessOf b.ecc ca (b.wmode false) aa p (d.row k x.row) with k0 := x.k0, k1 := x.k1 } 0
      else applyAccess d i m x 0
    | _, _ => d
  if clash then qctEvent d i m 11 else d

/-- RAM mode at one moment; an edge of one port alone less than t_COLL after one of the other meets it (R130).
DEDUCED: log entry 26; DESIGN CHOICE: log entry 128. -/
def ramEdge (d : Dev) (i m : Nat) (pa pb : Option PortPins) : Dev :=
  match pa, pb with
  | some p, none => one false p
  | none, some p => one true p
  | _, _ => ramPorts d i m pa pb
where
  one (portB : Bool) (p : PortPins) : Dev :=
    let b := d.bram (i * 96 + m)
    let a := p.addr % depthOf (b.widthCode portB)
    let alone (d : Dev) : Dev := if portB then ramPorts d i m none (some p) else ramPorts d i m (some p) none
    if !loosePorts d i m then alone d
    else
      let close := closeEdge d i m portB
      let shared := p.en && close.any (fun e =>
        if portB then wordsShare (b.widthCode false) e.1 (b.widthCode true) a else wordsShare (b.widthCode false) a (b.widthCode true) e.1)
      let wrote := close.any (·.2)
      let d := { d with free := d.free + 1 }
      let d :=
        if !shared then alone d
        else if p.we && wrote then
          -- port A's data stands, whichever came first
          qctEvent (if portB then ramPorts d i m none (some { p with we := false, en := false }) else alone d) i m 11
        else if p.we then fuzzPort (alone d) i m (!portB)
        else if wrote then fuzzPort (alone d) i m portB
        else alone d
      noteEdge d i m portB p a

/-! ### Queue modes (R144 to R149) -/

/-- Entries per row-word geometry of a queue entry: the write-side width fixes the depth; rings hold 512. -/
def Bram.qdepth (b : Bram) : Nat := if b.isRing then 512 else depthOf (b.widthCode false)

/-- Pointer advance with the wrap bit (R148). -/
def ptrAdd (depth p n : Nat) : Nat := (p + n) % (2 * depth)

def aeThresh (d : Dev) (i m : Nat) : Nat := d.fld i (R.QCT_THRESH + m * 0x40) 0 13
def afThresh (d : Dev) (i m : Nat) : Nat := d.fld i (R.QCT_THRESH + m * 0x40) 16 13

/-- Entries held against the depth (R146). -/
def heldEntries (b : Bram) : Nat :=
  if b.toFabric then b.level + b.pending else if b.fromFabric then b.level + b.freed else b.level

/-- Flags of a ring, live with its level (R146). -/
def ringFlags (d : Dev) (i m : Nat) : Dev :=
  let k := i * 96 + m
  let b := d.bram k
  d.setBram k { b with emptyF := b.level = 0, aemptyF := b.level ≤ aeThresh d i m, fullF := heldEntries b ≥ 512,
                       afullF := heldEntries b ≥ afThresh d i m }

/-- QCT_SNAP_W0 (R162). -/
def snapW0 (b : Bram) : Word := BitVec.ofNat 32 (b.level % 8192 + (b.pending % 8192) * 65536)

/-- The notification a ring sends when its level crosses its threshold (R155, R334). DESIGN CHOICE: its priority is 0, its route mode 01
and its low tag bits 0. DESIGN CHOICE: log entry 130. -/
def ringNotify (d : Dev) (i m before : Nat) : Dev :=
  let k := i * 96 + m
  let b := d.bram k
  let ctl := R.QCT_CTL + m * 0x40
  let fell := b.toFabric && aeThresh d i m < before && b.level ≤ aeThresh d i m
  let rose := b.fromFabric && before < afThresh d i m && afThresh d i m ≤ b.level
  if d.flag i ctl 10 && (fell || rose) then
    let unit : W128 := BitVec.ofNat 128 ((snapW0 b).toNat + k * 2 ^ 32 + d.devId * 2 ^ 48)
    d.inject i 3 ⟨mkHdr (d.fld i ctl 0 10) i 0x14 0x300 1 0 (d.owner i) (d.epoch i) 1 0 false (d.ctlAddr (ctlOff i (0x4000 + m * 0x40))),
      [unit], false⟩
  else d

/-- Read an entry of a queue through the decoder into the read-side latch. -/
def loadEntry (d : Dev) (i m : Nat) (portB : Bool) (en : Bool) (idx : Nat) (rst : Bool) : Dev :=
  let k := i * 96 + m
  let b := d.bram k
  let code := if b.isRing then 7 else b.widthCode portB
  let p : PortPins := ⟨idx, 0, 0, false, en, rst⟩
  let x := accessOf b.ecc code 0 idx p (d.row k (wordRow code idx))
  let q := if portB then b.portB else b.portA
  let q' := portAfter (b.doreg portB && !b.fwft) q p false x.latch
  let d := d.setBram k (if portB then { b with portB := q' } else { b with portA := q' })
  memReport2 d i m x.row (if portB then 1 else 0) x.k0 x.k1

/-- Write a whole entry of a queue. -/
def storeEntry (d : Dev) (i m idx : Nat) (di : Row) (agent : Nat) : Dev :=
  let k := i * 96 + m
  let b := d.bram k
  let code := if b.isRing then 7 else b.widthCode false
  let x := accessOf b.ecc code 2 idx ⟨idx, di, 0xFFFF, true, true, false⟩ (d.row k (wordRow code idx))
  applyAccess d i m x agent

/-- RST of a read-side port at an edge without a pop. -/
def rstOnly (d : Dev) (i m : Nat) (portB : Bool) (p : PortPins) : Dev :=
  let k := i * 96 + m
  let b := d.bram k
  if b.doreg portB && !b.fwft && p.rst then
    d.setBram k (if portB then { b with portB := { b.portB with outReg := 0, outErr := 0 } }
      else { b with portA := { b.portA with outReg := 0, outErr := 0 } })
  else d

/-- One moment of a FIFO: `pa` is the write side's edge, `pb` the read side's (R145, R147, R148, R149). DEDUCED: in a synchronous FIFO
with one entry a push and a pop at one edge assert EMPTY until the next edge, as each row of R148's table says of its own.
DEDUCED: log entry 129. -/
def fifoEdge (d : Dev) (i m : Nat) (pa pb : Option PortPins) : Dev :=
  let k := i * 96 + m
  let b0 := d.bram k
  let depth := b0.qdepth
  let wantPush := pa.any (·.we)
  let wantPop := pb.any (·.en)
  let push := wantPush && !b0.fullF
  let pop := wantPop && !b0.emptyF
  let d := if wantPush && !push then qctEvent d i m 8 else d
  let d := if wantPop && !pop then qctEvent d i m 9 else d
  let di := (pa.map (·.di)).getD 0
  let rst := (pb.map (·.rst)).getD false
  -- the read side reads before the write side's entry lands
  let d := if pop && !b0.fwft then loadEntry d i m true true (b0.rd % depth) rst
    else match pb with | some p => rstOnly d i m true p | none => d
  let d := if push then storeEntry d i m (b0.wr % depth) di 0 else d
  let b := d.bram k
  let rd' := if pop then ptrAdd depth b0.rd 1 else b0.rd
  let wr' := if push then ptrAdd depth b0.wr 1 else b0.wr
  let n1 := if push then 1 else 0
  let n2 := if pop then 1 else 0
  let level' := b0.level + n1 - n2
  let ae := aeThresh d i m
  let af := afThresh d i m
  let b := { b with rd := rd', wr := wr', level := level' }
  let b :=
    if b0.qmode = 0 then
      { b with emptyF := b0.level - n2 = 0, aemptyF := b0.level - n2 ≤ ae,
               fullF := b0.level + n1 ≥ depth, afullF := b0.level + n1 ≥ af }
    else
      let wrSeen := b0.wrSync.getD (b0.syncN - 1) 0
      let rdSeen := b0.rdSync.getD (b0.syncN - 1) 0
      let vis := (wrSeen + 2 * depth - rd') % (2 * depth)
      let held := (wr' + 2 * depth - rdSeen) % (2 * depth)
      let b := if pb.isSome then
          { b with emptyF := vis = 0, aemptyF := vis ≤ ae, wrSync := (b0.wr :: b0.wrSync).take 3 } else b
      if pa.isSome then { b with fullF := held ≥ depth, afullF := held ≥ af, rdSync := (b0.rd :: b0.rdSync).take 3 } else b
  let d := d.setBram k b
  -- first-word fall-through: the head entry stands on DO while EMPTY is deasserted
  if b0.fwft && !b.emptyF && (b0.emptyF || pop) then loadEntry d i m true true (rd' % depth) false else d

/-- One moment of a ring's user side on port A. -/
def ringEdge (d : Dev) (i m : Nat) (pa : Option PortPins) : Dev :=
  match pa with
  | none => d
  | some p =>
    let k := i * 96 + m
    let b := d.bram k
    if b.toFabric then
      if !p.en then rstOnly d i m false p
      else if b.emptyF then rstOnly (qctEvent d i m 9) i m false p
      else
        let d := if b.fwft then d else loadEntry d i m false true (b.rd % 512) p.rst
        let b1 := d.bram k
        let d := ringNotify (ringFlags (d.setBram k { b1 with rd := ptrAdd 512 b.rd 1, level := b.level - 1 }) i m) i m b.level
        if b.fwft && !(d.bram k).emptyF then loadEntry d i m false true ((d.bram k).rd % 512) false else d
    else if p.we then
      if b.fullF then qctEvent d i m 8
      else
        let d := storeEntry d i m (b.wr % 512) p.di 0
        let b1 := d.bram k
        ringNotify (ringFlags (d.setBram k { b1 with wr := ptrAdd 512 b.wr 1, level := b.level + 1 }) i m) i m b.level
    else d

/-- Every edge of a memory's ports at one moment, by its use (R128, R145). -/
def memEdge (d : Dev) (i m : Nat) (pa pb : Option PortPins) : Dev :=
  let b := d.bram (i * 96 + m)
  if b.use = 1 then ramEdge d i m pa pb
  else if b.use = 2 then (if b.isRing then ringEdge d i m pa else fifoEdge d i m pa pb)
  else d

/-- DO and ERR of a port as presented (R128, R149). -/
def doOf (b : Bram) (portB : Bool) : Row × BitVec 2 :=
  let q := if portB then b.portB else b.portA
  if b.doreg portB && !(b.fwft && b.use = 2) then (q.outReg, q.outErr) else (q.latch, q.latchErr)

/-! ### Rings on the network (R151 to R157) -/

/-- Joined-mode islands see pushes and space at once (R154). -/
def isJoined (d : Dev) (i : Nat) : Bool := (d.isl i).setup.groupId ≠ 0

/-- Whether ring commands are served in the island's state (R157). -/
def ringServed (s : IslState) : Bool :=
  match s with
  | .loaded | .running | .feathered | .catching => true
  | _ => false

/-- The status a ring command meets before it is looked at: UNIT_TEST, BAD_STATE or none. -/
def ringGate (d : Dev) (i m : Nat) : Option Status :=
  if (d.bram (i * 96 + m)).outOfService then some .unitTest
  else if !ringServed (d.isl i).state then some .badState
  else none

/-- A push of n entries: accepted whole or refused (R152). A push of none is answered at once. -/
def ringPush (d : Dev) (i m : Nat) (p : Pkt) : Dev :=
  let k := i * 96 + m
  let b := d.bram k
  let n := p.data.length
  match ringGate d i m with
  | some st => d.respond i p st []
  | none =>
    if !b.toFabric then d.respond i p .badState []
    else if heldEntries b + n ≤ 512 then
      if n = 0 then d.respond i p .ok []
      else ringFlags (d.setBram k { b with pending := b.pending + n, pushes := b.pushes ++ [⟨n, 0, p⟩], incoming := b.incoming ++ p.data }) i m
    else (qctEvent d i m 10).respond i p .badState []

/-- Release the first `cnt` pending entries, already written, to the design. -/
def releaseEntries (d : Dev) (i m cnt : Nat) : Dev :=
  let k := i * 96 + m
  let b := d.bram k
  let before := b.level
  let d := ringNotify (ringFlags (d.setBram k { b with level := b.level + cnt, pending := b.pending - cnt }) i m) i m before
  let b' := d.bram k
  if b'.fwft && before = 0 && 0 < cnt then loadEntry d i m false true (b'.rd % 512) false else d

/-- The write-back of a corrected half: the half's decoded content with its computed check byte (R136). It is no write for
the preserve buffer (R257). -/
def eccWriteBack (d : Dev) (i m w : Nat) : Dev :=
  let k := i * 96 + m
  let b := d.bram k
  if !b.writeBack.contains w then d
  else
    let r := w / 2
    let h := w % 2
    let row := d.row k r
    let (x, kind) := decodeHalf (halfData row h) (halfChk row h)
    let d := d.setBram k { b with writeBack := b.writeBack.filter (· ≠ w) }
    if kind = 2 then d else d.setRow k r (setHalf row h x (checkByte x))

/-- The write-backs that a memory has pending, which port B grants before any agent of rank 4 or lower (R140). -/
def writeBacks (d : Dev) (i m : Nat) : Dev := ((d.bram (i * 96 + m)).writeBack).foldl (fun (d : Dev) w => eccWriteBack d i m w) d

/-- The ring side writes the last entry of the first unfinished push and answers it; in joined mode the push becomes visible
(R152, R154). Its rows are preserved first; while no preserve entry is free it waits (R259). -/
def ringWritten (d : Dev) (i m : Nat) : Dev :=
  let d := writeBacks d i m
  let k := i * 96 + m
  let b := d.bram k
  match b.pushes.find? (fun q => q.written < q.n) with
  | none => d
  | some q =>
    let rows := (List.range q.n).map (fun j => (b.wr + j) % 512)
    if preserveFree d i < (rows.filter (fun r => undrained d i m r)).length then d
    else
      let d := (rows.zip b.incoming).foldl (fun (d : Dev) e => storeEntry d i m e.1 (e.2.setWidth 144) 2) d
      let b1 := d.bram k
      let mark (l : List Push) : List Push :=
        (l.foldl (fun (acc : List Push × Bool) x =>
          if !acc.2 && x.written < x.n then (acc.1 ++ [{ x with written := x.n }], true) else (acc.1 ++ [x], acc.2)) ([], false)).1
      let d := d.setBram k { b1 with wr := ptrAdd 512 b.wr q.n, incoming := b.incoming.drop q.n, pushes := mark b.pushes }
      let d := d.respond i q.req .ok []
      if isJoined d i then
        let b2 := d.bram k
        releaseEntries (d.setBram k { b2 with pushes := b2.pushes.drop 1 }) i m q.n
      else d

/-- A pop of up to n entries from the head (R153). In joined mode the space is visible at once. -/
def ringPop (d : Dev) (i m : Nat) (p : Pkt) : Dev :=
  let k := i * 96 + m
  let b := d.bram k
  match ringGate d i m with
  | some st => d.respond i p st []
  | none =>
    if !b.fromFabric then d.respond i p .badState []
    else
      let n := min p.len b.level
      let rows := (List.range n).map (fun j => (b.rd + j) % 512)
      let dec := rows.map (fun r => (r, decodeRow b.ecc (d.row k r)))
      let d := dec.foldl (fun (d : Dev) e => memReport2 d i m e.1 2 e.2.2.1 e.2.2.2) d
      let b1 := d.bram k
      let d := ringFlags (d.setBram k { b1 with rd := ptrAdd 512 b.rd n, level := b.level - n, freed := if isJoined d i then b.freed else b.freed + n }) i m
      let bad := dec.any (fun e => e.2.2.1 = 2 || e.2.2.2 = 2)
      d.respond i p (if bad then .uncorrectable else .ok) (dec.map (fun e => e.2.1.setWidth 128))

/-- Discard every entry (R156); a push in progress completes ABORTED (R161). -/
def ringFlush (d : Dev) (i m : Nat) : Dev :=
  let k := i * 96 + m
  let b := d.bram k
  let d := (b.pushes.filter (fun q => q.written < q.n)).foldl (fun (d : Dev) q => d.respond i q.req .aborted []) d
  let d := d.setBram k { b with rd := 0, wr := 0, level := 0, pending := 0, pushes := [], incoming := [], freed := 0, wrSync := [0, 0, 0], rdSync := [0, 0, 0], emptyF := true, aemptyF := true, fullF := false, afullF := false }
  if (d.bram k).isRing then ringNotify (ringFlags d i m) i m b.level else d

/-! ### Device agents (R136 to R143) -/

/-- One patrol read (R139). -/
def patrolRead (d : Dev) (i m : Nat) : Dev :=
  let k := i * 96 + m
  let b := d.bram k
  if !b.ecc || d.fld i (R.MEM_PATROL + m * 0x40) 0 16 = 0 then d
  else
    let (_, k0, k1) := decodeRow true (d.row k b.patrolRow)
    memReport2 (d.setBram k { b with patrolRow := (b.patrolRow + 1) % 512 }) i m b.patrolRow 3 k0 k1

def dbgOff (m : Nat) : Nat := R.MEM_DBG_CTL + m * 0x40

/-- End a debug access with a status: done reads 1 (R162). -/
def dbgDone (d : Dev) (i m : Nat) (st : Status) (corrected : Bool) : Dev :=
  let d := ((d.setFld i (dbgOff m) 12 1 1).setFld i (dbgOff m) 16 4 st.code).setFld i (dbgOff m) 13 1 (if corrected then 1 else 0)
  d.setBram (i * 96 + m) { (d.bram (i * 96 + m)) with dbgBusy := false }

/-- Serve a debug access (R143): the row and operation stand in MEM_DBG_CTL. A write to an undrained row waits for a free
preserve entry. DEDUCED: log entry 29. -/
def dbgServe (d : Dev) (i m : Nat) : Dev :=
  let k := i * 96 + m
  let b := d.bram k
  let r := d.fld i (dbgOff m) 0 9
  if b.outOfService then dbgDone d i m .unitTest false
  else if d.flag i (dbgOff m) 9 then
    if undrained d i m r && preserveFree d i = 0 then d
    else
      let x := d.reg128 i (R.MEM_DBG_DATA + m * 0x40)
      let xd := (d.reg i (R.MEM_DBG_XDATA + m * 0x40)).setWidth 16
      let v : Row := if b.ecc && !d.flag i (dbgOff m) 10 then eccRow x else xd ++ x
      dbgDone (writeRow d i m r v true true) i m .ok false
  else
    let stored := d.row k r
    let (cor, k0, k1) := decodeRow b.ecc stored
    let d := memReport2 d i m r 5 k0 k1
    let d := d.setReg128 i (R.MEM_DBG_DATA + m * 0x40) (cor.setWidth 128)
    let d := d.setReg i (R.MEM_DBG_XDATA + m * 0x40) ((stored.extractLsb' 128 16).setWidth 32)
    dbgDone d i m (if k0 = 2 ∨ k1 = 2 then .uncorrectable else .ok) (k0 = 1 || k1 = 1)

/-- The memories of an island that are listed. -/
def listedMems (d : Dev) (i : Nat) : List Nat := (d.brams.filter (fun e => e.1 / 96 = i)).map (fun e => e.1 % 96)

/-- Port B of a memory has a user clock that runs in a joined island: a debug access takes a cycle of it with EN = 0.
DEDUCED: log entry 29. -/
def portBClocked (d : Dev) (i m : Nat) : Bool :=
  let b := d.bram (i * 96 + m)
  isJoined d i && (d.isl i).state = .running && !(d.isl i).gated && b.use ≠ 0 && !b.isRing && (b.ckmode true = 1 || b.ckmode true = 2)

/-- A port B cycle that the design leaves free goes to the first pending agent: a write-back, then a debug access, else `act`
(R140, R142). -/
def stealOne (d : Dev) (i m : Nat) (act : Dev → Dev) : Dev :=
  match (d.bram (i * 96 + m)).writeBack with
  | w :: _ => eccWriteBack d i m w
  | [] => if (d.bram (i * 96 + m)).dbgBusy then dbgServe d i m else act d

/-- A debug access that waits is served once port B's user clock no longer runs, or a preserve entry is free (R142, R143). -/
def dbgRetry (d : Dev) (i m : Nat) : Dev :=
  if (d.bram (i * 96 + m)).dbgBusy && !portBClocked d i m then dbgServe (writeBacks d i m) i m else d

def dbgRetryAll (d : Dev) (i : Nat) : Dev := (listedMems d i).foldl (fun (d : Dev) m => dbgRetry d i m) d

/-- No free port B cycle came within 2^20 island clocks (R142). -/
def dbgTimeout (d : Dev) (i m : Nat) : Dev :=
  if (d.bram (i * 96 + m)).dbgBusy then dbgDone d i m .timeout false else d

/-- Live flags and the level registers as read (R162). -/
def qctFlags (d : Dev) (i m : Nat) : Word :=
  let b := d.bram (i * 96 + m)
  let v := (if b.emptyF then 1 else 0) + (if b.fullF then 2 else 0) + (if b.aemptyF then 4 else 0) + (if b.afullF then 8 else 0)
  (d.reg i (R.QCT_FLAGS + m * 0x40) &&& 0xFFFFFFF0#32) ||| BitVec.ofNat 32 v

def snapW1 (b : Bram) : Word := BitVec.ofNat 32 (b.rd % b.qdepth % 4096 + (b.wr % b.qdepth % 4096) * 65536)

/-- ISL_STATUS wire_clock conditions of a memory: a port on its CK pin (R127). -/
def Bram.wireClock (b : Bram) : Bool := b.use ≠ 0 && (b.ckmode false = 2 || (b.ckmode true = 2 && !b.isRing))

end Sys2Proof.Machine
end

