-- ==== Sys2Proof/Machine/Islands.lean ====
section
/-! DEFINITION. Stroke bounds, feathers and region commands (R236 to R243): the operations that every command which stops or
releases an island is written with. -/

namespace Sys2Proof.Machine

/-- An island of stroke mode (R106). -/
def strokeMode (d : Dev) (i : Nat) : Bool := (d.isl i).setup.groupId = 0

/-- Whether an island's clock runs: not under a thermal trip, in Standby, asleep or on a lost rail (R200, R204, R611). -/
def islClocked (d : Dev) (i : Nat) : Bool :=
  !d.thermTrip && !d.lost && d.fld 0x146 R.PWR_DEV_STATE 0 2 = 0 && !d.lostQuarters.contains (quarterOf i) && (d.isl i).state ≠ .sleep

/-- The islands of a joined group (R114). -/
def groupIslands (d : Dev) (g : BitVec 6) : List Nat :=
  if g = 0 then [] else (d.islands.filter (fun e => e.2.setup.groupId = g)).map (·.1)

/-- A principal's own bound (R236). -/
def boundOff (tenant : Nat) : Nat := if tenant = 0 then R.STK_HOLD else R.STK_LIMIT

/-- The next stroke the island would start (R237). -/
def nextStroke (d : Dev) (i : Nat) : W64 :=
  let x := d.isl i
  if x.phase = 2 ∨ x.phase = 3 then x.count + 1 else x.count

/-- Whether the island may start the stroke that STK_COUNT names (R236). -/
def mayStart (d : Dev) (i : Nat) : Bool :=
  (d.isl i).count < d.reg64 i R.STK_LIMIT && (d.isl i).count < d.reg64 i R.STK_HOLD

def isRunning (s : IslState) : Bool := s = .running || s = .catching

/-- An island is inside a stroke: it runs, or is being evicted and completes the stroke it had begun (R61 step 3). -/
def midStroke (d : Dev) (i : Nat) : Bool :=
  let x := d.isl i
  strokeMode d i && (isRunning x.state || (x.state = .evicting && !x.zeroising)) && (x.phase = 2 || x.phase = 3)

/-- Limits and steps do not apply to joined groups (R243): such a command passes their islands by. DEDUCED: log entry 126. -/
def RegionCmd.skips (c : RegionCmd) (d : Dev) (i : Nat) : Bool := !strokeMode d i && (c.op = .limit || c.op = .step)

/-- Once every island of a region command in its collect phase is FEATHERED, N is decided and set, and the laggards are released,
or the command is refused and every bound restored (R238, R239). -/
def regionReady (d : Dev) (c : RegionCmd) : Bool :=
  c.n.isNone && c.ended.isNone && c.islands.all (fun i => c.skips d i || ((d.isl i).state = .feathered && !(d.isl i).prBusy))

def maxCount (d : Dev) (l : List Nat) : W64 :=
  l.foldl (fun m i => if strokeMode d i && m < (d.isl i).count then (d.isl i).count else m) 0

/-- Leave FEATHERED where no bound holds the island: into CATCHING while its drain is active, else RUNNING. -/
def unfeather (d : Dev) (i : Nat) : Dev :=
  let x := d.isl i
  if x.state ≠ .feathered || x.prBusy then d
  else if !strokeMode d i then
    if x.gated || x.featheredByStandby then d else d.goState i (if x.drainActive then .catching else .running)
  else if mayStart d i && !x.featheredByStandby then
    (d.updIsl i (fun x => { x with phase := 1, atLimit := false, atHold := false })).goState i (if x.drainActive then .catching else .running)
  else
    d.updIsl i (fun x => { x with atLimit := !(x.count < d.reg64 i R.STK_LIMIT), atHold := !(x.count < d.reg64 i R.STK_HOLD) })

/-- Set a principal's bound on one island, or gate the clocks of its joined group (R243). -/
def setBound (d : Dev) (i tenant : Nat) (v : W64) : Dev := d.setReg64 i (boundOff tenant) v

/-- The island meets a bound at step 1: FEATHERED, with the bound's flags, events and source k = 1 (R236, R237); the open log
block is closed (R274). -/
def featherNow (d : Dev) (i : Nat) : Dev :=
  let n := (d.isl i).count
  let lim := d.reg64 i R.STK_LIMIT
  let hold := d.reg64 i R.STK_HOLD
  let l := !(n < lim)
  let h := !(n < hold)
  let d := (d.updIsl i (fun x => { x with phase := 5, atLimit := l, atHold := h, waitReported := false })).goState i .feathered
  let d := if l then d.islEvent i 1 5 2 0 R.STK_EVENTS else d
  let d := if h then d.islEvent i 1 5 2 1 R.STK_EVENTS else d
  let d := if lim < n ∨ hold < n then d.islEvent i 1 5 2 5 R.STK_EVENTS else d
  if (d.isl i).log.openRecs.isEmpty then d else closeBlock d i (d.isl i).count.toNat

/-- Gate or ungate the group clocks at every island of a joined group (R243); a debug access that waits for port B is then served on the
island clock (R142). -/
def gateGroup (d : Dev) (g : BitVec 6) (on : Bool) : Dev :=
  (groupIslands d g).foldl (fun (d : Dev) i =>
    let d := d.updIsl i (fun x => { x with gated := on })
    if on then dbgRetryAll (if isRunning (d.isl i).state then d.goState i .feathered else d) i else unfeather d i) d

def restoreBounds (d : Dev) (c : RegionCmd) : Dev :=
  c.saved.foldl (fun (d : Dev) e =>
    if strokeMode d e.1 then unfeather (setBound d e.1 c.tenant e.2) e.1
    else if c.skips d e.1 then d else gateGroup d (d.isl e.1).setup.groupId (e.2 ≠ 0)) d

/-- The counts of a region differ, or the Owner's hold stops a tenant's step (R239). -/
def stepRefused (d : Dev) (c : RegionCmd) : Bool :=
  let stroke := c.islands.filter (fun i => strokeMode d i)
  !stroke.all (fun i => (d.isl i).count = maxCount d stroke)
    || (c.tenant ≠ 0 && stroke.any (fun i => !((d.isl i).count < d.reg64 i R.STK_HOLD)))

/-- Decide, set and release (R238, R239). -/
def regionDecide (d : Dev) (c : RegionCmd) : Dev × RegionCmd :=
  let stroke := c.islands.filter (fun i => strokeMode d i)
  let m := maxCount d stroke
  let n? : Option W64 :=
    match c.op with
    | .limit => if c.arg < m then none else some c.arg
    | .step => if stepRefused d c then none else some (m + c.arg)
    | _ => some m
  match n? with
  | none => (restoreBounds d c, { c with ended := some .badState })
  | some n =>
    (stroke.foldl (fun (d : Dev) i => unfeather (setBound d i c.tenant n) i) d, { c with n := some n })

/-- The part of a crew-wide command here has feathered: it reports its highest count, or refuses a step (R239, R241, R446).
DEDUCED: log entry 83. -/
def regionReport (d : Dev) (c : RegionCmd) : Dev × RegionCmd :=
  if c.op = .step && stepRefused d c then (restoreBounds d c, { c with ended := some .badState })
  else match c.origin with
    | .message v t id => (d.emit (.crew v 2 { src := d.devId, slot := t, id := id, n := maxCount d c.islands }), { c with counted := true })
    | _ => (d, { c with counted := true })

/-- Look at every region command in its collect phase. A crew-wide one waits for the issuing device's N (R241). -/
def regionAdvance (d : Dev) : Dev :=
  let go (acc : Dev × List RegionCmd) (c : RegionCmd) : Dev × List RegionCmd :=
    if regionReady acc.1 c && !c.counted then
      let (d', c') := if c.crew then regionReport acc.1 c else regionDecide acc.1 c
      (d', acc.2 ++ [c'])
    else (acc.1, acc.2 ++ [c])
  let (d', l) := d.regions.foldl go (d, [])
  { d' with regions := l }

/-- An island waiting at step 1, or feathered, looks at its bounds again (R237). DEDUCED: log entry 39. -/
def boundChanged (d : Dev) (i : Nat) : Dev :=
  let x := d.isl i
  if x.state = .feathered then unfeather d i
  else if isRunning x.state && strokeMode d i && x.phase = 1 && !mayStart d i then regionAdvance (featherNow d i)
  else d

/-! ### Region commands (R238, R239) -/

/-- Start of a region command on this device: none where it is accepted, else the status of its refusal before any bound
changes. -/
def regionRefused (d : Dev) (tenant : Nat) (islands : List Nat) : Option Status :=
  if islands.any (fun i => tenant ≠ 0 && d.owner i ≠ tenant) then some .denied
  else if islands.isEmpty then some .badState
  else if d.regions.any (fun c => c.ended.isNone && c.islands.any (fun i => islands.contains i)) then some .badState
  else if islands.any (fun i => let s := (d.isl i).state; s = .idle || s = .loaded || s = .sleep || s = .evicting) then some .badState
  else none

/-- The collect phase: every island sets its issuer's bound to the next stroke it would start (R238), one that is RESTORING or in partial
reconfiguration when it returns to FEATHERED (R249). A resume sets all bounds to all ones at once. -/
def regionStart (d : Dev) (op : RegionOp) (tenant : Nat) (islands : List Nat) (arg : W64) (origin : Origin) (crew : Bool) : Dev :=
  let saved := islands.map (fun i => (i, if strokeMode d i then d.reg64 i (boundOff tenant) else if (d.isl i).gated then 1 else 0))
  if op = .resume then
    let d := islands.foldl (fun (d : Dev) i =>
      if strokeMode d i then boundChanged (setBound d i tenant allOnes64) i else gateGroup d (d.isl i).setup.groupId false) d
    { d with regions := d.regions ++ [⟨op, tenant, islands, arg, saved, some 0, origin, some .ok, crew, false, false⟩] }
  else
    let d := { d with regions := d.regions ++ [⟨op, tenant, islands, arg, saved, none, origin, none, crew, false, false⟩] }
    let d := islands.foldl (fun (d : Dev) i =>
      if strokeMode d i then
        let x := d.isl i
        if x.state = .restoring || x.prBusy then d
        else
          let d := setBound d i tenant (nextStroke d i)
          if isRunning x.state && x.phase = 1 then featherNow d i else d
      else if op = .limit || op = .step then d
      else gateGroup d (d.isl i).setup.groupId true) d
    regionAdvance d

/-- An island returns to FEATHERED from a restore or a partial reconfiguration: the bound it then holds is the one a refusal
restores, and it joins the collect phase of a region command that waited for it (R239, R249). -/
def regionRejoin (d : Dev) (i : Nat) : Dev :=
  let go (acc : Dev × List RegionCmd) (c : RegionCmd) : Dev × List RegionCmd :=
    if c.n.isNone && c.ended.isNone && c.islands.contains i && strokeMode acc.1 i then
      let b := acc.1.reg64 i (boundOff c.tenant)
      (setBound acc.1 i c.tenant (nextStroke acc.1 i), acc.2 ++ [{ c with saved := c.saved.map (fun e => if e.1 = i then (i, b) else e) }])
    else (acc.1, acc.2 ++ [c])
  let (d', l) := d.regions.foldl go (d, [])
  regionAdvance { d' with regions := l }

/-- A partial reconfiguration of an island has ended: it is FEATHERED again for the region commands that waited, and looks at its bounds
(R237, R249). -/
def reconfigured (d : Dev) (i : Nat) : Dev := if (d.isl i).state = .feathered then boundChanged (regionRejoin d i) i else d

/-- Whether a region command has ended: refused or aborted, or every island FEATHERED at N (R238). DEDUCED: log entry 35. -/
def regionDone (d : Dev) (c : RegionCmd) : Bool :=
  c.ended.isSome ||
    (match c.n with
     | some n => c.islands.all (fun i => c.skips d i || ((d.isl i).state = .feathered && (!strokeMode d i || (d.isl i).count = n)))
     | none => false)

/-- A region's commands in progress lose an island to eviction: ABORTED, the other islands' bounds restored (R242). -/
def regionEvicted (d : Dev) (i : Nat) : Dev :=
  let go (acc : Dev × List RegionCmd) (c : RegionCmd) : Dev × List RegionCmd :=
    if c.ended.isNone && c.islands.contains i then
      (restoreBounds acc.1 { c with saved := c.saved.filter (fun e => e.1 ≠ i) }, acc.2 ++ [{ c with ended := some .aborted }])
    else (acc.1, acc.2 ++ [c])
  let (d', l) := d.regions.foldl go (d, [])
  -- the bounds that a resume of a crew's command keeps until it may be refused (R239) are the island's no longer
  { d' with regions := l.map (fun c => if c.op = .resume then { c with saved := c.saved.filter (fun e => e.1 ≠ i) } else c) }

end Sys2Proof.Machine
end

