-- ==== Sys2Proof/Machine/EngineBase.lean ====
section
/-! DEFINITION. Engine state operations, halts and exceptions (R282, R301, R302, R312), and the debug halt of a principal
(R573 to R575), which engine halts can start. -/

namespace Sys2Proof.Machine

def Dev.eng (d : Dev) (e : Nat) : Engine := tget d.engines {} e
def Dev.setEng (d : Dev) (e : Nat) (x : Engine) : Dev := { d with engines := tput d.engines {} e x }
def Dev.updEng (d : Dev) (e : Nat) (f : Engine → Engine) : Dev := d.setEng e (f (d.eng e))

def isSysEng (e : Nat) : Bool := 512 ≤ e
/-- The node that carries an engine's packets, its unit there (R329), and its principal (R310). -/
def engNode (e : Nat) : Nat := if e < 512 then e / 2 else 0x150 + (e - 512)
def engUnit (e : Nat) : Nat := if e < 512 then 1 + e % 2 else 0
def engTenant (d : Dev) (e : Nat) : Nat := if e < 512 then d.owner (e / 2) else 0

/-- Whether an engine is powered and clocked: its island is neither IDLE nor asleep and the device is not in Standby (R204, R311,
R317). -/
def engClocked (d : Dev) (e : Nat) : Bool :=
  d.fld 0x146 R.PWR_DEV_STATE 0 2 = 0 && !d.lost &&
    (isSysEng e || !((d.isl (e / 2)).state = .idle || (d.isl (e / 2)).state = .sleep || d.lostQuarters.contains (quarterOf (e / 2))))

/-- A register of an engine's SCL block by its island-window name (R321). -/
def sclOff (e off : Nat) : Nat := if e < 512 then off + 0x800 * (e % 2) else off - 0x3000

/-- Set a sticky bit of SCL_EVENTS with its record, in the class of R595. -/
def sclEvent (d : Dev) (e b : Nat) : Dev :=
  let o := sclOff e R.SCL_EVENTS
  let d := d.orReg (engNode e) o (bit b)
  let cls := if b = 0 then 0 else if b = 3 then 3 else if b = 1 then 11 else 4
  d.eventP (engNode e) (engUnit e) cls 9 b (engTenant d e) (d.reg (engNode e) o) 0 0 0

/-! ### Registers (R282) -/

def Engine.gr (x : Engine) (r : GReg) : Word := if r = 0 then 0 else tget x.g 0 r.toNat
def Engine.setG (x : Engine) (r : GReg) (v : Word) : Engine := if r = 0 then x else { x with g := tput x.g 0 r.toNat v }
def Engine.vr (x : Engine) (r : VReg) : W128 := tget x.v 0 r.toNat
def Engine.setV (x : Engine) (r : VReg) (v : W128) : Engine := { x with v := tput x.v 0 r.toNat v }
def Engine.s (x : Engine) (k : Nat) : Word := tget x.sr 0 k
def Engine.setS (x : Engine) (k : Nat) (v : Word) : Engine := { x with sr := tput x.sr 0 k v }
def Engine.inHandler (x : Engine) : Bool := (x.s 5).getLsbD 0

/-! ### Halts (R312, R573 to R575) -/

def dbgArea (base t : Nat) : Nat := base + 0x20 * t

/-- Stop an engine in halt with a cause. -/
def haltRaw (d : Dev) (e cause : Nat) : Dev :=
  sclEvent (d.updEng e (fun x => { x with run := 4, haltCause := cause, pend := none, stepping := false, haltReq := false })) e 1

/-- A halt asked for: at the next commit boundary; WAIT and a stalled VPUT are abandoned uncommitted, an instruction waiting for a
response completes first (R312, R320). -/
def haltEngine (d : Dev) (e cause : Nat) : Dev :=
  let x := d.eng e
  if x.run = 1 ∨ x.run = 2 then haltRaw d e cause
  else if x.run = 3 then
    match x.pend with
    | some (.vport _ _ _ _ _ _) => haltRaw d e cause
    | _ => d.updEng e (fun x => { x with haltReq := true, haltCause := cause })
  else d

/-- Engines of a principal that are listed. -/
def enginesOf (d : Dev) (t : Nat) : List Nat := (d.engines.map (·.1)).filter (fun e => engTenant d e = t)

/-- TIMER now: counting down once per µs of DTIME unless its principal's halt freezes it (R303, R575). -/
def timersFrozen (d : Dev) (e : Nat) : Bool :=
  debugFrozen d (engTenant d e) 0

/-- DESIGN CHOICE: log entry 11. -/
def timerNow (d : Dev) (e : Nat) : Word :=
  let x := d.eng e
  if timersFrozen d e then x.timer
  else BitVec.ofNat 32 (x.timer.toNat - (d.dtime.toNat / 1000 - x.timerAt.toNat / 1000))

/-- Islands in a principal's cross-trigger mask (R572). -/
def xtrgIslands (d : Dev) (t : Nat) : List Nat :=
  (List.range 256).filter (fun i => d.flag 0x143 (dbgArea R.DBG_XTRG_MASK t + 4 * (i / 32)) (i % 32) && d.owner i = t)

/-- A debug halt of principal t begins (R574): 1 by a write, 2 by a trigger, 3 by an engine. A halt in force ignores further
causes. Timers are frozen at their present values. -/
def debugHalt (d : Dev) (t cause : Nat) : Dev :=
  if d.flag 0x143 (dbgArea R.DBG_HALT_STATUS t) 0 then d
  else
    let d := { d with engines := d.engines.map (fun (e : Nat × Engine) =>
      if engTenant d e.1 = t then (e.1, { e.2 with timer := timerNow d e.1, timerAt := d.dtime }) else e) }
    let d := d.setReg 0x143 (dbgArea R.DBG_HALT_STATUS t) (BitVec.ofNat 32 (1 + 2 * cause))
    let d := if d.flag 0x143 (dbgArea R.DBG_HALT_CFG t) 1 then
        (enginesOf d t).foldl (fun (d : Dev) e =>
          let was := (d.eng e).run
          let d := haltEngine d e 1
          if was = 1 ∨ was = 2 ∨ was = 3 then d.updEng e (fun x => { x with byDebug := true }) else d) d
      else d
    let isls := xtrgIslands d t
    if d.flag 0x143 (dbgArea R.DBG_HALT_CFG t) 2 && (regionRefused d t isls).isNone then
        let run := isls.filter (fun i => (d.isl i).state ≠ .feathered)
        let d := run.foldl (fun (d : Dev) i => d.updIsl i (fun x => { x with featheredByHalt := true })) d
        regionStart d .feather t isls 0 (.halt t) false
    else d

/-- A debug halt ends: freezes lift, the engines it halted resume, and a region resume runs over the islands its own feather
stopped (R574). -/
def debugResume (d : Dev) (t : Nat) : Dev :=
  if !d.flag 0x143 (dbgArea R.DBG_HALT_STATUS t) 0 then d
  else
    let d := { d with engines := d.engines.map (fun (e : Nat × Engine) =>
      if engTenant d e.1 = t then
        let x := { e.2 with timer := timerNow d e.1, timerAt := d.dtime }
        if x.byDebug then (e.1, { x with byDebug := false, haltReq := false, run := if x.run = 4 then 1 else x.run, haltCause := 0 }) else (e.1, x)
      else e) }
    let d := d.setReg 0x143 (dbgArea R.DBG_HALT_STATUS t) 0
    let isls := (d.islands.filter (fun e => e.2.featheredByHalt && d.owner e.1 = t)).map (·.1)
    let d := isls.foldl (fun (d : Dev) i => d.updIsl i (fun x => { x with featheredByHalt := false })) d
    if isls.isEmpty then d else regionStart d .resume t isls 0 (.halt t) false

/-- An engine halts at a breakpoint or watchpoint (R304), which may start its principal's debug halt (R573). -/
def haltMatched (d : Dev) (e cause : Nat) : Dev :=
  let d := haltRaw d e cause
  let t := engTenant d e
  if d.flag 0x143 (dbgArea R.DBG_HALT_CFG t) 0 then debugHalt d t 3 else d

/-! ### Commit and exceptions (R298, R301, R302) -/

/-- The instruction commits: pc moves on, and a step or a halt asked for takes effect. DEDUCED: log entry 31. -/
def engCommit (d : Dev) (e : Nat) (npc : Word) : Dev :=
  let x := d.eng e
  let d := d.setEng e { x with pc := npc, instrs := x.instrs + 1, pend := none, run := 1 }
  if x.stepping then haltRaw d e 2
  else if x.haltReq then haltRaw d e x.haltCause
  else d

/-- The next instruction's address. -/
def Engine.pc4 (x : Engine) : Word := x.pc + 4

/-- Take exception `code` (R302); in a handler it is a double fault. DEDUCED: log entry 31. -/
def engExc (d : Dev) (e code : Nat) (eaddr : Word) (nstat : Nat) : Dev :=
  let x := d.eng e
  if x.inHandler then
    sclEvent (sclEvent (d.setEng e { x with run := 5, haltCause := 5, pend := none, stepping := false, haltReq := false }) e 2) e 5
  else
    let y := (((x.setS 6 x.pc).setS 7 (BitVec.ofNat 32 (code + nstat * 256))).setS 8 eaddr).setS 5 1
    let d := d.setEng e { y with pc := x.s 9 &&& 0xFFFFFFFC#32, lastCause := code, pend := none, run := 1 }
    if x.stepping then haltRaw d e 2
    else if x.haltReq then haltRaw d e x.haltCause
    else d

/-- Restart the registers of an engine: reset keeps the SRAMs, EVEC takes SCL_START (R303, R321). -/
def engResetRegs (d : Dev) (e : Nat) (run : Nat) : Dev :=
  let x := d.eng e
  let start := d.reg (engNode e) (sclOff e R.SCL_START) &&& 0xFFFFFFFC#32
  let d := sigDropHeld d e
  d.setEng e ({ (({ imem := x.imem, dmem := x.dmem, ierr := x.ierr, derr := x.derr, patrol := x.patrol, runBit := x.runBit,
                    outOfService := x.outOfService } : Engine).setS 9 start) with
                  run := run, pc := if run = 1 then start else 0, petAt := d.dtime, timerAt := d.dtime })

/-- Leave reset at SCL_START: what was written into the registers while they were held stays (R321). -/
def engRelease (d : Dev) (e : Nat) : Dev :=
  d.updEng e (fun x => { x with run := 1, pc := d.reg (engNode e) (sclOff e R.SCL_START) &&& 0xFFFFFFFC#32, cycles := 0, petAt := d.dtime })

/-- One engine clock of every engine that is clocked and out of reset: CYCLE counts it (R303). The engine clock is 1 GHz (R323), so it
is one step of the block's own clock. -/
def engTick (d : Dev) : Dev :=
  { d with engines := d.engines.map (fun (e : Nat × Engine) =>
      if e.2.run ≠ 0 && engClocked d e.1 then (e.1, { e.2 with cycles := e.2.cycles + 1 }) else e) }

end Sys2Proof.Machine
end

