-- ==== Sys2Proof/Machine/Engine.lean ====
section
/-! DEFINITION. The Scull engine core (R282 to R315): fetch, the core instructions, memory and aperture accesses, waits, and the
events of an engine. Each instruction command names the engine that runs it and the instruction's fields; it acts when that
engine is running and the word at its pc spells that instruction. -/

namespace Sys2Proof.Machine

/-! ### SRAMs (R283, R313) -/

def flips (m : BitVec 39) : Nat := (List.range 39).foldl (fun a k => if m.getLsbD k then a + 1 else a) 0

def Engine.sramWord (x : Engine) (isI : Bool) (w : Nat) : Word := tget (if isI then x.imem else x.dmem) 0 w
/-- DEDUCED: log entry 33. -/
def Engine.sramErr (x : Engine) (isI : Bool) (w : Nat) : BitVec 39 := tget (if isI then x.ierr else x.derr) 0 w
def Engine.setErr (x : Engine) (isI : Bool) (w : Nat) (m : BitVec 39) : Engine :=
  if isI then { x with ierr := tput x.ierr 0 w m } else { x with derr := tput x.derr 0 w m }
/-- A store of a whole word repairs it. -/
def Engine.setSram (x : Engine) (isI : Bool) (w : Nat) (v : Word) : Engine :=
  (if isI then { x with imem := tput x.imem 0 w v } else { x with dmem := tput x.dmem 0 w v }).setErr isI w 0

/-- Read a word: a single error is corrected, written back and counted; an uncorrectable word is counted and gives none. -/
def sramRead (d : Dev) (e : Nat) (isI : Bool) (w : Nat) : Dev × Option Word :=
  let x := d.eng e
  let n := flips (x.sramErr isI w)
  if n = 0 then (d, some (x.sramWord isI w))
  else if n = 1 then
    (sclEvent ((d.setEng e (x.setErr isI w 0)).countFld (engNode e) (sclOff e R.SCL_ECC) 0 16 1) e 3, some (x.sramWord isI w))
  else (sclEvent (d.countFld (engNode e) (sclOff e R.SCL_ECC) 16 16 1) e 4, none)

/-- n words from word w of an SRAM, lowest first; none where one is uncorrectable. -/
def sramWords (d : Dev) (e : Nat) (isI : Bool) : Nat → Nat → Dev × Option (List Word)
  | _, 0 => (d, some [])
  | w, n + 1 =>
    match sramRead d e isI w with
    | (d, none) => (d, none)
    | (d, some v) =>
      match sramWords d e isI (w + 1) n with
      | (d, some l) => (d, some (v :: l))
      | (d, none) => (d, none)

/-! ### Address space (R283, R284) -/

inductive Loc where
  | imem | dmem | aperture (k o : Nat) | nowhere
deriving DecidableEq, Repr

def locOf (addr : Word) : Loc :=
  let a := addr.toNat
  if a < 0x10000 then .imem
  else if a < 0x20000 then .dmem
  else if 0x08000000 ≤ a ∧ a < 0x10000000 then .aperture ((a - 0x08000000) / 0x1000000) (a % 0x1000000)
  else .nowhere

/-- The 52-bit address of an aperture access, and an attribute field (R284, R303). -/
def Engine.apAddr (x : Engine) (k o : Nat) : Nat := bitsOf (x.s (32 + 2 * k)).toNat 0 28 * 2 ^ 24 + o
def Engine.apAttr (x : Engine) (k lo w : Nat) : Nat := bitsOf (x.s (33 + 2 * k)).toNat lo w

/-- Whether an access of `size` bytes is an access fault (R283 to R285). -/
def accessFault (x : Engine) (addr : Word) (size : Nat) (store amo : Bool) : Bool :=
  match locOf addr with
  | .imem => store || amo
  | .dmem => false
  | .nowhere => true
  | .aperture k o => x.apAttr k 0 1 = 0 || (decide (size < 4) && inControl (x.apAddr k o))

/-- The action of the watchpoints on an access: 0 none, 1 trap, 2 halt (R304). -/
def watchAction (x : Engine) (addr : Word) (size : Nat) (load store : Bool) : Nat :=
  let one (n : Nat) : Nat :=
    let c := bitsOf (x.s 55).toNat (15 * n) 15
    let act := c % 4
    let len := 2 ^ (min (bitsOf c 4 5) 16)
    let base := (x.s (53 + n)).toNat / len * len
    let hit := addr.toNat < base + len && base < addr.toNat + size
    if hit && ((load && c.testBit 2) || (store && c.testBit 3)) && (act = 1 || act = 2) then act else 0
  if one 0 ≠ 0 then one 0 else one 1

/-- The action of the breakpoints at a fetch address (R303, R304). DEDUCED: log entry 34. -/
def breakAction (x : Engine) (pc : Word) : Nat :=
  ((List.range 4).map (fun n =>
    let act := bitsOf (x.s 52).toNat (2 * n) 2
    if ((x.s (48 + n)) >>> 2 = pc >>> 2) && (act = 1 || act = 2) then act else 0)).foldl (fun a b => if a ≠ 0 then a else b) 0

/-! ### Running one instruction -/

/-- The engine runs its next instruction: the causes of R301 that belong to the fetch come first; where the word at pc spells the
instruction `i`, `body` is its effect. -/
def engRun (d : Dev) (e : Nat) (i : EngInstr) (body : Dev → Dev) : Dev :=
  let x := d.eng e
  if x.run ≠ 1 || x.outOfService || !engClocked d e then d
  else if 0x10000 ≤ x.pc.toNat then engExc d e 2 x.pc 0
  else
    match sramRead d e true (x.pc.toNat / 4) with
    | (d1, none) => engExc d1 e 6 x.pc 0
    | (d1, some w) =>
      if breakAction x x.pc = 1 then engExc d1 e 8 x.pc 0
      else if breakAction x x.pc = 2 then haltMatched d1 e 3
      else
        match EngInstr.decode w with
        | none => engExc d1 e 1 x.pc 0
        | some j => if j = i then body d1 else d

/-- An instruction that only writes general or vector registers and commits. -/
def engReg (d : Dev) (e : Nat) (f : Engine → Engine) : Dev :=
  let x := d.eng e
  engCommit (d.setEng e (f x)) e x.pc4

def sext16 (i : BitVec 16) : Word := i.signExtend 32
def zext16 (i : BitVec 16) : Word := i.setWidth 32

/-- Whether a pc + sext(off) × 4 branch is taken or falls through. -/
def engBranch (d : Dev) (e : Nat) (off : BitVec 16) (taken : Bool) : Dev :=
  let x := d.eng e
  engCommit d e (if taken then x.pc + (sext16 off <<< 2) else x.pc4)

/-! ### Three-register and immediate instructions (R288) -/

def aluRR (fn : BitVec 4) (f : Word → Word → Word) (e : EngIx) (rd ra rb : GReg) (s : State) : Host.Outcome State Fault Refusal :=
  s.run (fun d => engRun d e.val (.alu fn rd ra rb) (fun d => engReg d e.val (fun x => x.setG rd (f (x.gr ra) (x.gr rb)))))

def aluImm (op : BitVec 6) (f : Word → Word) (e : EngIx) (rd ra : GReg) (i : BitVec 16) (s : State) : Host.Outcome State Fault Refusal :=
  s.run (fun d => engRun d e.val (.imm op rd ra i) (fun d => engReg d e.val (fun x => x.setG rd (f (x.gr ra)))))

def boolWord (b : Bool) : Word := if b then 1 else 0
def shAmt (b : Word) : Nat := b.toNat % 32

def execAdd (e : EngIx) (rd ra rb : GReg) (s : State) := aluRR 0 (fun a b => a + b) e rd ra rb s
def execSub (e : EngIx) (rd ra rb : GReg) (s : State) := aluRR 1 (fun a b => a - b) e rd ra rb s
def execAnd (e : EngIx) (rd ra rb : GReg) (s : State) := aluRR 2 (fun a b => a &&& b) e rd ra rb s
def execOr (e : EngIx) (rd ra rb : GReg) (s : State) := aluRR 3 (fun a b => a ||| b) e rd ra rb s
def execXor (e : EngIx) (rd ra rb : GReg) (s : State) := aluRR 4 (fun a b => a ^^^ b) e rd ra rb s
def execSll (e : EngIx) (rd ra rb : GReg) (s : State) := aluRR 5 (fun a b => a <<< shAmt b) e rd ra rb s
def execSrl (e : EngIx) (rd ra rb : GReg) (s : State) := aluRR 6 (fun a b => a >>> shAmt b) e rd ra rb s
def execSra (e : EngIx) (rd ra rb : GReg) (s : State) := aluRR 7 (fun a b => a.sshiftRight (shAmt b)) e rd ra rb s
def execSlt (e : EngIx) (rd ra rb : GReg) (s : State) := aluRR 8 (fun a b => boolWord (a.slt b)) e rd ra rb s
def execSltu (e : EngIx) (rd ra rb : GReg) (s : State) := aluRR 9 (fun a b => boolWord (a.ult b)) e rd ra rb s
def execMul (e : EngIx) (rd ra rb : GReg) (s : State) := aluRR 10 (fun a b => a * b) e rd ra rb s
def execMulh (e : EngIx) (rd ra rb : GReg) (s : State) :=
  aluRR 11 (fun a b => BitVec.ofInt 32 (a.toInt * b.toInt / 2 ^ 32)) e rd ra rb s
def execMulhu (e : EngIx) (rd ra rb : GReg) (s : State) :=
  aluRR 12 (fun a b => BitVec.ofNat 32 (a.toNat * b.toNat / 2 ^ 32)) e rd ra rb s
def execDivu (e : EngIx) (rd ra rb : GReg) (s : State) :=
  aluRR 13 (fun a b => if b = 0 then 0xFFFFFFFF#32 else BitVec.ofNat 32 (a.toNat / b.toNat)) e rd ra rb s
def execRemu (e : EngIx) (rd ra rb : GReg) (s : State) :=
  aluRR 14 (fun a b => if b = 0 then a else BitVec.ofNat 32 (a.toNat % b.toNat)) e rd ra rb s

def execAddi (e : EngIx) (rd ra : GReg) (i : BitVec 16) (s : State) := aluImm 0x01 (fun a => a + sext16 i) e rd ra i s
def execAndi (e : EngIx) (rd ra : GReg) (i : BitVec 16) (s : State) := aluImm 0x02 (fun a => a &&& zext16 i) e rd ra i s
def execOri (e : EngIx) (rd ra : GReg) (i : BitVec 16) (s : State) := aluImm 0x03 (fun a => a ||| zext16 i) e rd ra i s
def execXori (e : EngIx) (rd ra : GReg) (i : BitVec 16) (s : State) := aluImm 0x04 (fun a => a ^^^ zext16 i) e rd ra i s
def execSlti (e : EngIx) (rd ra : GReg) (i : BitVec 16) (s : State) := aluImm 0x05 (fun a => boolWord (a.slt (sext16 i))) e rd ra i s
def execSltiu (e : EngIx) (rd ra : GReg) (i : BitVec 16) (s : State) := aluImm 0x06 (fun a => boolWord (a.ult (sext16 i))) e rd ra i s
/-- LUI rd, imm: ra is 0. -/
def execLui (e : EngIx) (rd : GReg) (i : BitVec 16) (s : State) := aluImm 0x07 (fun _ => zext16 i <<< 16) e rd 0 i s

def shiftImm (k : BitVec 2) (f : Word → Word) (e : EngIx) (rd ra : GReg) (sh : BitVec 5) (s : State) : Host.Outcome State Fault Refusal :=
  s.run (fun d => engRun d e.val (.shi k rd ra sh) (fun d => engReg d e.val (fun x => x.setG rd (f (x.gr ra)))))

def execSlli (e : EngIx) (rd ra : GReg) (sh : BitVec 5) (s : State) := shiftImm 0 (fun a => a <<< sh.toNat) e rd ra sh s
def execSrli (e : EngIx) (rd ra : GReg) (sh : BitVec 5) (s : State) := shiftImm 1 (fun a => a >>> sh.toNat) e rd ra sh s
def execSrai (e : EngIx) (rd ra : GReg) (sh : BitVec 5) (s : State) := shiftImm 2 (fun a => a.sshiftRight sh.toNat) e rd ra sh s

/-! ### Branches and jumps -/

def branchIf (k : BitVec 3) (c : Word → Word → Bool) (e : EngIx) (ra rb : GReg) (off : BitVec 16) (s : State) : Host.Outcome State Fault Refusal :=
  s.run (fun d => engRun d e.val (.branch k ra rb off) (fun d => engBranch d e.val off (c ((d.eng e.val).gr ra) ((d.eng e.val).gr rb))))

def execBeq (e : EngIx) (ra rb : GReg) (off : BitVec 16) (s : State) := branchIf 0 (fun a b => a = b) e ra rb off s
def execBne (e : EngIx) (ra rb : GReg) (off : BitVec 16) (s : State) := branchIf 1 (fun a b => a ≠ b) e ra rb off s
def execBlt (e : EngIx) (ra rb : GReg) (off : BitVec 16) (s : State) := branchIf 2 (fun a b => a.slt b) e ra rb off s
def execBge (e : EngIx) (ra rb : GReg) (off : BitVec 16) (s : State) := branchIf 3 (fun a b => !a.slt b) e ra rb off s
def execBltu (e : EngIx) (ra rb : GReg) (off : BitVec 16) (s : State) := branchIf 4 (fun a b => a.ult b) e ra rb off s
def execBgeu (e : EngIx) (ra rb : GReg) (off : BitVec 16) (s : State) := branchIf 5 (fun a b => !a.ult b) e ra rb off s

def jumpTarget (x : Engine) (off : BitVec 26) : Word := x.pc + (off.signExtend 32 <<< 2)

def execJ (e : EngIx) (off : BitVec 26) (s : State) : Host.Outcome State Fault Refusal :=
  s.run (fun d => engRun d e.val (.jump false off) (fun d => engCommit d e.val (jumpTarget (d.eng e.val) off)))

def execJal (e : EngIx) (off : BitVec 26) (s : State) : Host.Outcome State Fault Refusal :=
  s.run (fun d => engRun d e.val (.jump true off) (fun d =>
    let x := d.eng e.val
    engCommit (d.setEng e.val (x.setG 31 x.pc4)) e.val (jumpTarget x off)))

def execJalr (e : EngIx) (rd ra : GReg) (i : BitVec 16) (s : State) : Host.Outcome State Fault Refusal :=
  s.run (fun d => engRun d e.val (.imm 0x2A rd ra i) (fun d =>
    let x := d.eng e.val
    engCommit (d.setEng e.val (x.setG rd x.pc4)) e.val ((x.gr ra + sext16 i) &&& 0xFFFFFFFC#32)))

/-! ### Memory accesses (R283 to R285, R290) -/

/-- Bytes of an access taken from 32-bit words, lowest address first. -/
def wordsNat (l : List Word) : Nat := l.foldr (fun w a => w.toNat + 2 ^ 32 * a) 0

/-- Load result of a load opcode: 0x10 LW, 0x11 LH, 0x12 LHU, 0x13 LB, 0x14 LBU. -/
def loadSize (op : BitVec 6) : Nat := if op = 0x10 then 4 else if op = 0x11 ∨ op = 0x12 then 2 else 1
def loadExt (op : BitVec 6) (v : Nat) : Word :=
  if op = 0x11 then (BitVec.ofNat 16 v).signExtend 32
  else if op = 0x12 then (BitVec.ofNat 16 v).setWidth 32
  else if op = 0x13 then (BitVec.ofNat 8 v).signExtend 32
  else if op = 0x14 then (BitVec.ofNat 8 v).setWidth 32
  else BitVec.ofNat 32 v
def storeSize (op : BitVec 6) : Nat := if op = 0x18 then 4 else if op = 0x19 then 2 else 1

/-- Store bytes in data SRAM: a whole word repairs a disturbed one, a part leaves an uncorrectable word so (R313). -/
def Engine.dmemStore (x : Engine) (a size v : Nat) : Engine :=
  let w := a / 4
  let old := (tget x.dmem 0 w).toNat
  let sh := 8 * (a % 4)
  let new := if size = 4 then v % 2 ^ 32 else old - (bitsOf old sh (8 * size)) * 2 ^ sh + (v % 2 ^ (8 * size)) * 2 ^ sh
  let keep := x.sramErr false w
  let y := x.setSram false w (BitVec.ofNat 32 new)
  if size < 4 && flips keep ≥ 2 then y.setErr false w keep else y

def Engine.noteStatus (x : Engine) (st : Status) : Engine :=
  x.setS 13 (BitVec.ofNat 32 (st.code + (if (x.s 13).getLsbD 4 || st ≠ .ok then 16 else 0)))

/-- The data address an instruction accesses (R288, R296). -/
def dataAddr (x : Engine) (i : EngInstr) : Word :=
  match i with
  | .imm _ _ ra im => x.gr ra + sext16 im
  | .vmem _ _ ra im => x.gr ra + sext16 im
  | .amo _ _ ra _ => x.gr ra
  | .send _ ra _ _ _ => x.gr ra
  | _ => 0

/-- What a load takes from a response that carries no data (R285). DEDUCED: log entry 32. -/
def noData (st : Status) : Nat := if st = .denied then 0 else 2 ^ 128 - 1

/-- The registers an instruction writes when its NoC response arrives (R285, R292, R293). -/
def finishRegs (x : Engine) (i : EngInstr) (st : Status) (data : List W128) : Engine :=
  let lane (n : Nat) : Nat :=
    match data with
    | u :: _ => bitsOf u.toNat (8 * ((dataAddr x i).toNat % 16)) (8 * n)
    | [] => noData st
  match i with
  | .imm op rd _ _ =>
    if 0x10 ≤ op ∧ op ≤ 0x14 then
      x.setG rd (if data.isEmpty then BitVec.ofNat 32 (noData st) else loadExt op (lane (loadSize op)))
    else x
  | .amo _ rd _ _ => x.setG rd (BitVec.ofNat 32 (lane 4))
  | .vmem false v _ _ => x.setV v (match data with | u :: _ => u | [] => BitVec.ofNat 128 (noData st))
  | .send rd _ vs _ kind =>
    if kind = 3 then
      let y := (data.zipIdx).foldl (fun (y : Engine) e => y.setV (vs + BitVec.ofNat 4 e.2) e.1) x
      y.setG rd (BitVec.ofNat 32 (st.code + data.length * 256))
    else if kind = 0 then x else x.setG rd (BitVec.ofNat 32 st.code)
  | _ => x

/-- The response to the engine's request: NSTAT, then commit with its registers, or exception 5 where the aperture traps. -/
def engFinish (d : Dev) (e : Nat) (i : EngInstr) (st : Status) (data : List W128) : Dev :=
  let x := d.eng e
  let addr := dataAddr x i
  let k := match locOf addr with | .aperture k _ => k | _ => 0
  let y := x.noteStatus st
  if st ≠ .ok && x.apAttr k 8 1 = 1 then engExc (d.setEng e y) e 5 addr st.code
  else engCommit (d.setEng e (finishRegs y i st data)) e x.pc4

/-- Route mode of an aperture access: 01 in the control space, whatever the aperture says (R284). -/
def Engine.apRoute (x : Engine) (k o : Nat) : Nat := if inControl (x.apAddr k o) then 1 else x.apAttr k 4 2

/-- The tag an engine's request carries (R329). -/
def engTag (d : Dev) (e : Nat) (rr : Bool) : Nat :=
  if rr then freeTag d (engNode e) (engUnit e) else if engNode e < 256 then engUnit e * 256 else 0

/-- An engine's request at offset o of aperture k (R284). -/
def engAsk (d : Dev) (e cmd len : Nat) (rr : Bool) (data : List W128) (k o : Nat) : Dev × Option Status :=
  d.request (engNode e) (engUnit e) cmd (engTag d e rr) len ((d.eng e).apAttr k 1 3) ((d.eng e).apRoute k o) ((d.eng e).apAttr k 6 2) rr
    (engTenant d e) ((d.eng e).apAddr k o) data

/-- Issue an aperture request (R285): non-posted ones wait for the response, posted ones for space in the queue of 16. -/
def engIssueAt (d : Dev) (e : Nat) (i : EngInstr) (cmd len : Nat) (rr : Bool) (data : List W128) (k o : Nat) : Dev :=
  if rr then
    (engAsk d e cmd len true data k o).2.elim
      ((engAsk d e cmd len true data k o).1.setEng e { d.eng e with run := 3, pend := some i })
      (fun st => engFinish (engAsk d e cmd len true data k o).1 e i st [])
  else if 16 ≤ postedLevel d (engNode e) (engUnit e) then d.setEng e { d.eng e with run := 3, pend := some i }
  else engCommit (engAsk d e cmd len false data k o).1 e (d.eng e).pc4

def onAperture (l : Loc) (f : Nat → Nat → Dev) (other : Dev) : Dev :=
  match l with
  | .aperture k o => f k o
  | _ => other

def engIssue (d : Dev) (e : Nat) (i : EngInstr) (cmd len : Nat) (rr : Bool) (data : List W128) : Dev :=
  onAperture (locOf (dataAddr (d.eng e) i)) (engIssueAt d e i cmd len rr data) d

/-- The data access checks of R301 in order: misaligned, access fault, watchpoint; then the access itself. -/
def dataAccess (d : Dev) (e : Nat) (addr : Word) (size align : Nat) (load store amo : Bool) (go : Dev → Dev) : Dev :=
  let x := d.eng e
  if addr.toNat % align ≠ 0 then engExc d e 4 addr 0
  else if accessFault x addr size store amo then engExc d e 3 addr 0
  else if watchAction x addr size load store = 1 then engExc d e 9 addr 0
  else if watchAction x addr size load store = 2 then haltMatched d e 4
  else go d

/-- A lane-placed data unit of an access of `size` bytes (R331). -/
def laneUnit (addr : Nat) (size v : Nat) : W128 := BitVec.ofNat 128 ((v % 2 ^ (8 * size)) * 2 ^ (8 * (addr % 16)))

def engLoad (d : Dev) (e : Nat) (op : BitVec 6) (rd ra : GReg) (im : BitVec 16) : Dev :=
  let i := EngInstr.imm op rd ra im
  let addr := dataAddr (d.eng e) i
  let size := loadSize op
  dataAccess d e addr size size true false false (fun d =>
    match locOf addr with
    | .aperture _ _ => engIssue d e i (if size = 4 then 4 else if size = 2 then 3 else 2) 0 true []
    | loc =>
      match sramRead d e (loc = .imem) (addr.toNat % 0x10000 / 4) with
      | (d, none) => engExc d e 7 addr 0
      | (d, some w) => engReg d e (fun x => x.setG rd (loadExt op (bitsOf w.toNat (8 * (addr.toNat % 4)) (8 * size)))))

def execLoad (op : BitVec 6) (e : EngIx) (rd ra : GReg) (i : BitVec 16) (s : State) : Host.Outcome State Fault Refusal :=
  s.run (fun d => engRun d e.val (.imm op rd ra i) (fun d => engLoad d e.val op rd ra i))

def execLw (e : EngIx) (rd ra : GReg) (i : BitVec 16) (s : State) := execLoad 0x10 e rd ra i s
def execLh (e : EngIx) (rd ra : GReg) (i : BitVec 16) (s : State) := execLoad 0x11 e rd ra i s
def execLhu (e : EngIx) (rd ra : GReg) (i : BitVec 16) (s : State) := execLoad 0x12 e rd ra i s
def execLb (e : EngIx) (rd ra : GReg) (i : BitVec 16) (s : State) := execLoad 0x13 e rd ra i s
def execLbu (e : EngIx) (rd ra : GReg) (i : BitVec 16) (s : State) := execLoad 0x14 e rd ra i s

def engStore (d : Dev) (e : Nat) (op : BitVec 6) (rs ra : GReg) (im : BitVec 16) : Dev :=
  let i := EngInstr.imm op rs ra im
  let x := d.eng e
  let addr := dataAddr x i
  let size := storeSize op
  dataAccess d e addr size size false true false (fun d =>
    match locOf addr with
    | .aperture k _ =>
      engIssue d e i (if size = 4 then 0x0B else if size = 2 then 0x0A else 0x09) 1 (x.apAttr k 9 1 = 1)
        [laneUnit addr.toNat size (x.gr rs).toNat]
    | _ => engReg d e (fun x => x.dmemStore (addr.toNat % 0x10000) size (x.gr rs).toNat))

def execStore (op : BitVec 6) (e : EngIx) (rs ra : GReg) (i : BitVec 16) (s : State) : Host.Outcome State Fault Refusal :=
  s.run (fun d => engRun d e.val (.imm op rs ra i) (fun d => engStore d e.val op rs ra i))

def execSw (e : EngIx) (rs ra : GReg) (i : BitVec 16) (s : State) := execStore 0x18 e rs ra i s
def execSh (e : EngIx) (rs ra : GReg) (i : BitVec 16) (s : State) := execStore 0x19 e rs ra i s
def execSb (e : EngIx) (rs ra : GReg) (i : BitVec 16) (s : State) := execStore 0x1A e rs ra i s

/-- AMO (R293): the old word into rd, rb or old + rb into memory. -/
def engAmo (d : Dev) (e : Nat) (add : Bool) (rd ra rb : GReg) : Dev :=
  let i := EngInstr.amo add rd ra rb
  let x := d.eng e
  let addr := x.gr ra
  dataAccess d e addr 4 4 true true true (fun d =>
    match locOf addr with
    | .aperture _ _ => engIssue d e i (if add then 0x0D else 0x0C) 1 true [laneUnit addr.toNat 4 (x.gr rb).toNat]
    | _ =>
      match sramRead d e false (addr.toNat % 0x10000 / 4) with
      | (d, none) => engExc d e 7 addr 0
      | (d, some old) => engReg d e (fun x =>
          (x.dmemStore (addr.toNat % 0x10000) 4 (if add then old + x.gr rb else x.gr rb).toNat).setG rd old))

def execAmo (add : Bool) (e : EngIx) (rd ra rb : GReg) (s : State) : Host.Outcome State Fault Refusal :=
  s.run (fun d => engRun d e.val (.amo add rd ra rb) (fun d => engAmo d e.val add rd ra rb))
def execAmoSwap (e : EngIx) (rd ra rb : GReg) (s : State) := execAmo false e rd ra rb s
def execAmoFadd (e : EngIx) (rd ra rb : GReg) (s : State) := execAmo true e rd ra rb s

/-- SEND (R291, R292): the address must lie in an enabled aperture and be 16-byte aligned, else an access fault. -/
def engSend (d : Dev) (e : Nat) (rd ra : GReg) (vs : VReg) (nm1 : BitVec 3) (kind : BitVec 2) : Dev :=
  let i := EngInstr.send rd ra vs nm1 kind
  let x := d.eng e
  let addr := x.gr ra
  let n := nm1.toNat + 1
  let ok := match locOf addr with | .aperture k _ => x.apAttr k 0 1 = 1 && addr.toNat % 16 = 0 | _ => false
  if !ok then engExc d e 3 addr 0
  else if watchAction x addr (16 * n) true true = 1 then engExc d e 9 addr 0
  else if watchAction x addr (16 * n) true true = 2 then haltMatched d e 4
  else
    let units := if kind = 3 then [] else (List.range n).map (fun u => x.vr (vs + BitVec.ofNat 4 u))
    engIssue d e i (if kind = 2 then 0x10 else if kind = 3 then 0x11 else 0x08) n (kind ≠ 0) units

def execSend (kind : BitVec 2) (e : EngIx) (rd ra : GReg) (vs : VReg) (nm1 : BitVec 3) (s : State) : Host.Outcome State Fault Refusal :=
  s.run (fun d => engRun d e.val (.send rd ra vs nm1 kind) (fun d => engSend d e.val rd ra vs nm1 kind))
/-- Kind 0 uses no rd. -/
def execSendPosted (e : EngIx) (ra : GReg) (vs : VReg) (nm1 : BitVec 3) (s : State) := execSend 0 e 0 ra vs nm1 s
def execSendWrite (e : EngIx) (rd ra : GReg) (vs : VReg) (nm1 : BitVec 3) (s : State) := execSend 1 e rd ra vs nm1 s
def execSendPush (e : EngIx) (rd ra : GReg) (vs : VReg) (nm1 : BitVec 3) (s : State) := execSend 2 e rd ra vs nm1 s
def execSendPop (e : EngIx) (rd ra : GReg) (vs : VReg) (nm1 : BitVec 3) (s : State) := execSend 3 e rd ra vs nm1 s

/-- The response to an engine's request arrives (R285). DEDUCED: log entry 32. -/
def engResponse (d : Dev) (e : Nat) (st : Status) (data : List W128) : Dev :=
  let x := d.eng e
  if x.run ≠ 3 then d
  else
    let node := engNode e
    match x.pend, (d.noc.outst.filter (fun o => o.node = node && o.unit = engUnit e)).getLast? with
    | some i, some o => engFinish (d.dropOutst node (engUnit e) o.tag) e i st data
    | _, _ => d

def execEngineNocResponse (e : EngIx) (st : Status) (data : List W128) (s : State) : Host.Outcome State Fault Refusal :=
  s.run (fun d => engResponse d e.val st data)

/-- A store or posted SEND waiting for space in the posted queue commits once an entry has drained (R285). -/
def execPostedQueueSpace (e : EngIx) (s : State) : Host.Outcome State Fault Refusal :=
  s.run (fun d =>
    let x := d.eng e.val
    if x.run ≠ 3 then d
    else match x.pend with
      | some (.imm op rs ra im) =>
        if 0x18 ≤ op ∧ op ≤ 0x1A then
          engIssue d e.val (.imm op rs ra im) (if op = 0x18 then 0x0B else if op = 0x19 then 0x0A else 0x09) 1 false
            [laneUnit (dataAddr x (.imm op rs ra im)).toNat (storeSize op) (x.gr rs).toNat]
        else d
      | some (.send rd ra vs n kind) =>
        if kind = 0 then
          engIssue d e.val (.send rd ra vs n kind) 0x08 (n.toNat + 1) false
            ((List.range (n.toNat + 1)).map (fun u => x.vr (vs + BitVec.ofNat 4 u)))
        else d
      | some (.vmem true v ra im) => engIssue d e.val (.vmem true v ra im) 0x08 1 false [x.vr v]
      | _ => d)

/-! ### Waits (R288, R294) -/

/-- Whether engine e owns port set j of its island (R305). -/
def ownsSet (d : Dev) (e j : Nat) : Bool := e < 512 && d.fld (e / 2) R.SCL_PORT_MAP j 1 = e % 2

def portsOf (d : Dev) (e j : Nat) : PortSet := let x := d.isl (e / 2); if j = 0 then x.ps0 else x.ps1

/-- The wake causes present (R294). -/
def wakeCauses (d : Dev) (e : Nat) : Word :=
  let x := d.eng e
  let own (j : Nat) (p : PortSet → Bool) : Bool := ownsSet d e j && p (portsOf d e j)
  let any (p : PortSet → Bool) : Bool := own 0 p || own 1 p
  let c (b : Bool) (n : Nat) : Nat := if b then 2 ^ n else 0
  BitVec.ofNat 32 (c (d.sigs.any (fun s => s.2.st = 1 && s.2.tgt = e)) 0 + c (timerNow d e = 0) 1
    + c (any (fun p => p.up.any (fun u => !u.2.isEmpty))) 2 + c (any (fun p => decide (p.staging.length < 8))) 3
    + c x.mbx 4 + c (postedLevel d (engNode e) (engUnit e) = 0) 5)

/-- WAIT completes: rd and WAKE receive the causes, and the mailbox cause starts afresh. -/
def waitDone (d : Dev) (e : Nat) (rd : GReg) (causes : Word) : Dev :=
  engReg d e (fun x => { ((x.setG rd causes).setS 10 causes) with mbx := false })

def engWait (d : Dev) (e : Nat) (rd : GReg) (mask : BitVec 8) : Dev :=
  let c := wakeCauses d e
  if c &&& mask.setWidth 32 ≠ 0 then waitDone d e rd c
  else d.updEng e (fun x => { x with run := 2, pend := some (.wait rd mask) })

def execWait (e : EngIx) (rd : GReg) (mask : BitVec 8) (s : State) : Host.Outcome State Fault Refusal :=
  s.run (fun d => engRun d e.val (.wait rd mask) (fun d => engWait d e.val rd mask))

/-- An enabled cause appears for a waiting engine. -/
def execWaitWake (e : EngIx) (s : State) : Host.Outcome State Fault Refusal :=
  s.run (fun d =>
    let x := d.eng e.val
    match x.run, x.pend with
    | 2, some (.wait rd mask) => engWait d e.val rd mask
    | _, _ => d)

def engFence (d : Dev) (e : Nat) : Dev :=
  if postedLevel d (engNode e) (engUnit e) = 0 then engReg d e id
  else d.updEng e (fun x => { x with run := 3, pend := some .fence })

def execFence (e : EngIx) (s : State) : Host.Outcome State Fault Refusal :=
  s.run (fun d => engRun d e.val .fence (fun d => engFence d e.val))
def execFenceDone (e : EngIx) (s : State) : Host.Outcome State Fault Refusal :=
  s.run (fun d => if (d.eng e.val).run = 3 && (d.eng e.val).pend = some .fence then engFence d e.val else d)

/-- ERET (R288): pc is always a multiple of 4 (R282). -/
def execEret (e : EngIx) (s : State) : Host.Outcome State Fault Refusal :=
  s.run (fun d => engRun d e.val .eret (fun d =>
    let x := d.eng e.val
    engCommit (d.setEng e.val (x.setS 5 0)) e.val (x.s 6 &&& 0xFFFFFFFC#32)))

def execBreak (e : EngIx) (s : State) : Host.Outcome State Fault Refusal :=
  s.run (fun d => engRun d e.val .brk (fun d => engExc d e.val 10 (d.eng e.val).pc 0))

/-! ### Status registers (R295, R303) -/

def bitIf (b : Bool) (n : Nat) : Nat := if b then 2 ^ n else 0

/-- Whether a non-posted request of an engine is outstanding (R303). -/
def awaits (d : Dev) (e : Nat) : Bool := d.noc.outst.any (fun o => o.node = engNode e && o.unit = engUnit e)

/-- The value of a status register as read. DESIGN CHOICE: log entry 11. -/
def statusVal (d : Dev) (e k : Nat) : Word :=
  let x := d.eng e
  let cyc := x.cycles
  let w64 (v : W64) (hi : Bool) : Word := if hi then v.extractLsb' 32 32 else v.extractLsb' 0 32
  if k = 0 then BitVec.ofNat 32 (e % 1024 + bitIf (isSysEng e) 10 + engTenant d e * 2048)
  else if k = 1 then w64 cyc false
  else if k = 2 then w64 cyc true
  else if k = 3 then w64 d.dtime false
  else if k = 4 then w64 d.dtime true
  else if k = 11 then timerNow d e
  else if k = 12 ∨ k = 15 then 0
  else if k = 14 then BitVec.ofNat 32 (bitIf (awaits d e) 0 + 16 * postedLevel d (engNode e) (engUnit e))
  else if k = 16 then
    BitVec.ofNat 32 ((List.range 32).foldl (fun a n =>
      a + bitIf (ownsSet d e (n / 16) && !(tget (portsOf d e (n / 16)).up [] (n % 16)).isEmpty) n) 0)
  else if k = 17 then
    BitVec.ofNat 32 ((if ownsSet d e 0 then 8 - (portsOf d e 0).staging.length else 0)
      + 16 * (if ownsSet d e 1 then 8 - (portsOf d e 1).staging.length else 0))
  else if k = 18 then w64 x.upStroke false
  else if k = 19 then w64 x.upStroke true
  else if k = 20 then x.crc
  else if (21 ≤ k ∧ k < 32) ∨ 56 ≤ k then 0
  else x.s k

/-- Bits of a status register that a write stores (R303); TIMER, WDOG_PET and ATTN act instead. -/
def statusMask (k : Nat) : Word :=
  if k = 5 then 1
  else if k = 6 ∨ k = 7 ∨ k = 8 then 0xFFFFFFFF
  else if k = 9 then 0xFFFFFFFC
  else if k = 13 then 0x1F
  else if 32 ≤ k ∧ k < 48 then (if k % 2 = 0 then 0x0FFFFFFF else 0x3FF)
  else if k = 52 then 0xFF
  else if k = 55 then 0x3FFFFFFF
  else if 48 ≤ k ∧ k < 55 then 0xFFFFFFFF
  else 0

def statusWrite (d : Dev) (e k : Nat) (v : Word) : Dev :=
  if k = 11 then d.updEng e (fun x => { x with timer := v, timerAt := d.dtime })
  else if k = 12 then d.updEng e (fun x => { x with petAt := d.dtime })
  else if k = 15 then (if v.getLsbD 0 then sclEvent d e 0 else d)
  else if statusMask k = 0 then d
  else d.updEng e (fun x => x.setS k ((x.s k &&& ~~~(statusMask k)) ||| (v &&& statusMask k)))

/-- An SRD of the low word of a pair latches its high word; a read of the high word returns the latched one (R13, R295). -/
def engSrd (d : Dev) (e : Nat) (rd : GReg) (ix : BitVec 6) : Dev :=
  let k := ix.toNat
  let v := statusVal d e k
  if k = 1 ∨ k = 3 ∨ k = 18 then
    let hi := statusVal d e (k + 1)
    engReg d e (fun x => { (x.setG rd v) with srLatch := tput x.srLatch none k (some hi) })
  else if k = 2 ∨ k = 4 ∨ k = 19 then
    engReg d e (fun x => x.setG rd ((tget x.srLatch none (k - 1)).getD v))
  else engReg d e (fun x => x.setG rd v)

def execSrd (e : EngIx) (rd : GReg) (ix : BitVec 6) (s : State) : Host.Outcome State Fault Refusal :=
  s.run (fun d => engRun d e.val (.status 0 rd ix) (fun d => engSrd d e.val rd ix))

def statusOp (fn : BitVec 2) (f : Word → Word → Word) (e : EngIx) (ra : GReg) (ix : BitVec 6) (s : State) : Host.Outcome State Fault Refusal :=
  s.run (fun d => engRun d e.val (.status fn ra ix) (fun d =>
    engReg (statusWrite d e.val ix.toNat (f (statusVal d e.val ix.toNat) ((d.eng e.val).gr ra))) e.val id))

def execSwr (e : EngIx) (ra : GReg) (ix : BitVec 6) (s : State) := statusOp 1 (fun _ a => a) e ra ix s
def execSbs (e : EngIx) (ra : GReg) (ix : BitVec 6) (s : State) := statusOp 2 (fun v a => v ||| a) e ra ix s
def execSbc (e : EngIx) (ra : GReg) (ix : BitVec 6) (s : State) := statusOp 3 (fun v a => v &&& ~~~a) e ra ix s

/-! ### Events of an engine -/

/-- TIMER reaches 0 (R303); not while its principal's debug halt freezes it (R575). -/
def execTimerExpiry (e : EngIx) (s : State) : Host.Outcome State Fault Refusal :=
  s.run (fun d => if timersFrozen d e.val then d else d.updEng e.val (fun x => { x with timer := 0, timerAt := d.dtime }))

/-- The watchdog reaches its count (R314). -/
def execWatchdogExpiry (e : EngIx) (s : State) : Host.Outcome State Fault Refusal :=
  s.run (fun d =>
    let x := d.eng e.val
    if (x.run = 1 ∨ x.run = 2 ∨ x.run = 3) && d.fld (engNode e.val) (sclOff e.val R.SCL_WDOG) 0 24 ≠ 0 && !timersFrozen d e.val then
      sclEvent (sclEvent (d.setEng e.val { x with run := 5, haltCause := 6, pend := none, stepping := false, haltReq := false }) e.val 2) e.val 6
    else d)

/-- The patrol reads one word of each SRAM (R313). -/
def execEngineSramPatrol (e : EngIx) (s : State) : Host.Outcome State Fault Refusal :=
  s.run (fun d =>
    if !engClocked d e.val then d
    else
      let w := (d.eng e.val).patrol
      let d := (sramRead d e.val true w).1
      let d := (sramRead d e.val false w).1
      d.updEng e.val (fun x => { x with patrol := (w + 1) % 16384 }))

/-- A bit of an SRAM word is disturbed (R313): bits 38 to 32 are its check bits. -/
def execEngineSramUpset (e : EngIx) (instr : Bool) (w : Fin 16384) (b : Fin 39) (s : State) : Host.Outcome State Fault Refusal :=
  s.run (fun d => d.updEng e.val (fun x => x.setErr instr w.val (x.sramErr instr w.val ^^^ BitVec.ofNat 39 (2 ^ b.val))))

/-! ### SCL registers (R312, R316, R320, R321) -/

/-- The engine whose SCL block holds an offset of a node's window. -/
def engAt (node off : Nat) : Nat := if node < 256 then node * 2 + (off - 0x3000) / 0x800 else 512 + (node - 0x150)

/-- A write of SCL_CTL: one bit, and only where it fits the run state. DEDUCED: log entry 34. -/
def sclCtlWriter : Writer := fun d _ node off v =>
  let e := engAt node off
  let x := d.eng e
  let b := v % 32
  if b = 0 then (d, .ok)
  else if x.outOfService then (d, .badState)
  else if b = 1 then (if x.run = 1 ∨ x.run = 2 ∨ x.run = 3 then (haltEngine d e 1, .ok) else (d, .badState))
  else if b = 2 then (if x.run = 4 then (d.setEng e { x with run := 1, haltCause := 0, byDebug := false }, .ok) else (d, .badState))
  else if b = 4 then (if x.run = 4 then (d.setEng e { x with run := 1, stepping := true }, .ok) else (d, .badState))
  else if b = 8 then (engResetRegs d e 0, .ok)
  else if b = 16 then (if x.run = 0 && engClocked d e then (engRelease d e, .ok) else (d, .badState))
  else (d, .badState)

def sclCtl (e : EngIx) (r : Req) (b : Nat) (s : State) : Host.Outcome State Fault Refusal :=
  s.run (fun d => d.regCmd r (engNode e.val) (sclOff e.val R.SCL_CTL) (bit b) sclCtlWriter)

def execSclHalt (r : Req) (e : EngIx) (s : State) := sclCtl e r 0 s
def execSclResume (r : Req) (e : EngIx) (s : State) := sclCtl e r 1 s
def execSclStep (r : Req) (e : EngIx) (s : State) := sclCtl e r 2 s
def execSclReset (r : Req) (e : EngIx) (s : State) := sclCtl e r 3 s
def execSclRelease (r : Req) (e : EngIx) (s : State) := sclCtl e r 4 s

/-- Whether software may reach the SRAMs and registers: halted or held in reset (R312). -/
def engStopped (x : Engine) : Bool := x.run = 0 || x.run = 4

def memAddr (d : Dev) (e : Nat) : Nat := (d.reg (engNode e) (sclOff e R.SCL_MEM_ADDR)).toNat % 0x20000
def advanceMem (d : Dev) (e : Nat) : Dev :=
  d.setReg (engNode e) (sclOff e R.SCL_MEM_ADDR) (BitVec.ofNat 32 ((memAddr d e + 4) % 0x20000))

/-- A write of SCL_MEM_DATA (R312, R321). -/
def memDataWriter : Writer := fun d _ node off v =>
  let e := engAt node off
  let x := d.eng e
  if !engStopped x then (d, .badState)
  else
    let a := memAddr d e
    (advanceMem (d.setEng e (x.setSram (a < 0x10000) (a % 0x10000 / 4) (BitVec.ofNat 32 v))) e, .ok)

/-- A read of SCL_MEM_DATA: the word, corrected, or as stored where it is uncorrectable. DEDUCED: log entry 18. -/
def memDataRead (d : Dev) (e : Nat) : Dev × Status × Word :=
  let x := d.eng e
  if !engStopped x then (d, .badState, 0)
  else
    let a := memAddr d e
    let w := a % 0x10000 / 4
    let isI := decide (a < 0x10000)
    let (d, v) := sramRead d e isI w
    (advanceMem d e, if v.isSome then .ok else .uncorrectable, v.getD (x.sramWord isI w ^^^ (x.sramErr isI w).setWidth 32))

def execSclMemDataAccess (r : Req) (e : EngIx) (w : Option Word) (s : State) : Host.Outcome State Fault Refusal :=
  s.run (fun d =>
    let node := engNode e.val
    let off := sclOff e.val R.SCL_MEM_DATA
    match w with
    | some v => d.regCmd r node off v memDataWriter
    | none =>
      match regGate d r node off with
      | .stop d st => d.answer r node off st 0
      | .pass _ _ =>
        let (d, st, v) := memDataRead d e.val
        d.answer r node off st v)

/-- A write of SCL_PORT_MAP (R316, R320): refused where it moves a set away from a running engine. -/
def portMapWriter : Writer := fun d _ node off v =>
  if off ≠ R.SCL_PORT_MAP ∨ node ≥ 256 then (d, .ok)
  else
    let running (k : Nat) : Bool := let x := d.eng (node * 2 + k); x.run = 1 || x.run = 2 || x.run = 3
    let moves (j : Nat) : Bool := d.fld node off j 1 ≠ bitsOf v j 1 && running (d.fld node off j 1)
    if moves 0 || moves 1 then (d, .badState) else (d.setReg node off (BitVec.ofNat 32 (v % 4)), .ok)

def execSclPortMapWrite (r : Req) (i : Isl) (v : Word) (s : State) : Host.Outcome State Fault Refusal :=
  s.run (fun d => d.regCmd r i.val R.SCL_PORT_MAP v portMapWriter)

/-- A write of SCL_START: EVEC of an engine held in reset follows it, since it resets to SCL_START (R303). DEDUCED: log entry 134. -/
def sclStartWriter : Writer := fun d _ node off v =>
  let e := engAt node off
  let w := BitVec.ofNat 32 v &&& 0xFFFFFFFC#32
  let d := d.setReg node off w
  (if (d.eng e).run = 0 then d.updEng e (fun x => x.setS 9 w) else d, .ok)

/-- A write of SCL_PC, accepted only while halted or held in reset (R312). -/
def sclPcWriter : Writer := fun d _ node off v =>
  let e := engAt node off
  if engStopped (d.eng e) then (d.updEng e (fun x => { x with pc := BitVec.ofNat 32 (v / 4 * 4) }), .ok) else (d, .badState)

/-- A committed write of SCL_REG_DATA: the register SCL_REG_SEL names. -/
def sclRegWriter : Writer := fun d _ node off v =>
  let e := engAt node off
  let x := d.eng e
  let sel := (d.reg node (sclOff e R.SCL_REG_SEL)).toNat
  let ix := sel % 64
  if !engStopped x then (d, .badState)
  else if bitsOf sel 6 2 = 0 then (d.setEng e (if ix < 32 then x.setG (BitVec.ofNat 5 ix) (BitVec.ofNat 32 v) else x), .ok)
  else if bitsOf sel 6 2 = 1 then (statusWrite d e ix (BitVec.ofNat 32 v), .ok)
  else if bitsOf sel 6 2 = 2 then (d.setEng e (if ix < 16 then x.setV (BitVec.ofNat 4 ix) (BitVec.ofNat 128 v) else x), .ok)
  else (d, .ok)

/-- The selected register as read, 128 bits. -/
def sclRegVal (d : Dev) (e : Nat) : Nat :=
  let sel := (d.reg (engNode e) (sclOff e R.SCL_REG_SEL)).toNat
  let ix := sel % 64
  let x := d.eng e
  if bitsOf sel 6 2 = 0 then (if ix < 32 then (x.gr (BitVec.ofNat 5 ix)).toNat else 0)
  else if bitsOf sel 6 2 = 1 then (statusVal d e ix).toNat
  else if bitsOf sel 6 2 = 2 then (if ix < 16 then (x.vr (BitVec.ofNat 4 ix)).toNat else 0)
  else 0

/-- A mailbox word written over the NoC: data SRAM, and the mailbox cause of WAIT (R286). -/
def mailboxWrite (d : Dev) (e w : Nat) (v : Word) : Dev :=
  d.updEng e (fun x => { (x.setSram false (0xFC00 / 4 + w) v) with mbx := true })

/-- SCL_STATUS as read (R321). -/
def sclStatus (d : Dev) (e : Nat) : Word :=
  let x := d.eng e
  BitVec.ofNat 32 ((if x.outOfService then 6 else x.run) + x.haltCause % 16 * 8 + bitIf x.inHandler 7 + x.lastCause % 256 * 256)

/-- SCL_PORT_STATUS as read: set PS0 in E0's window, PS1 in E1's. -/
def sclPortStatus (d : Dev) (e : Nat) : Word :=
  if isSysEng e then 0
  else
    let p := portsOf d e (e % 2)
    BitVec.ofNat 32 ((List.range 16).foldl (fun a n => a + bitIf (decide (8 ≤ (tget p.up [] n).length)) n) 0 + p.staging.length % 16 * 65536)

end Sys2Proof.Machine
end

