-- ==== Sys2Proof/Machine/Blade.lean ====
section
/-! DEFINITION. The blade (R296, R306 to R308): lane operations on vector registers, transfers, vector memory, engine ports and
the CRC unit. -/

namespace Sys2Proof.Machine

/-! ### Lanes (R296) -/

/-- Lane width in bits of a lane-width code. -/
def laneBits (lw : BitVec 2) : Nat := 8 * 2 ^ lw.toNat

/-- Lane i of width w. -/
def laneGet (w : Nat) (v : W128) (i : Nat) : Nat := bitsOf v.toNat (w * i) w

/-- A vector from its lanes of width w, lane 0 first; each is taken modulo 2^w. -/
def laneMake (w : Nat) (l : List Nat) : W128 := BitVec.ofNat 128 (l.foldr (fun x a => x % 2 ^ w + 2 ^ w * a) 0)

/-- A lane as a signed number. -/
def laneInt (w x : Nat) : Int := if x < 2 ^ (w - 1) then (x : Int) else (x : Int) - 2 ^ w

/-- Apply f lane by lane. -/
def laneMap2 (w : Nat) (f : Nat → Nat → Nat) (a b : W128) : W128 :=
  laneMake w ((List.range (128 / w)).map (fun i => f (laneGet w a i) (laneGet w b i)))

/-- The shift of a lane by n: at or above the width it gives 0, or sign fill for VSRA. -/
def laneShift (fn w n x : Nat) : Nat :=
  if fn = 10 then x * 2 ^ n
  else if fn = 11 then x / 2 ^ n
  else ((laneInt w x / (2 ^ n : Int)) % (2 ^ w : Int)).toNat

/-- All ones where a comparison holds. -/
def laneMask (w : Nat) (c : Bool) : Nat := if c then 2 ^ w - 1 else 0

/-- The result of a VOP function for vd, va and vb (R296). -/
def vopResult (fn : BitVec 6) (lw : BitVec 2) (imm : BitVec 6) (vd va vb : W128) : W128 :=
  let w := laneBits lw
  let k := 128 / w
  match fn.toNat with
  | 0 => va &&& vb
  | 1 => va ||| vb
  | 2 => va ^^^ vb
  | 3 => va &&& ~~~vb
  | 4 => laneMap2 w (fun a b => a + b) va vb
  | 5 => laneMap2 w (fun a b => a + 2 ^ w - b) va vb
  | 6 => laneMap2 w (fun a b => if laneInt w a ≤ laneInt w b then a else b) va vb
  | 7 => laneMap2 w (fun a b => min a b) va vb
  | 8 => laneMap2 w (fun a b => if laneInt w a ≤ laneInt w b then b else a) va vb
  | 9 => laneMap2 w (fun a b => max a b) va vb
  | 10 => laneMap2 w (fun a _ => laneShift 10 w imm.toNat a) va vb
  | 11 => laneMap2 w (fun a _ => laneShift 11 w imm.toNat a) va vb
  | 12 => laneMap2 w (fun a _ => laneShift 12 w imm.toNat a) va vb
  | 13 => laneMap2 w (fun a b => laneMask w (a = b)) va vb
  | 14 => laneMap2 w (fun a b => laneMask w (decide (laneInt w b < laneInt w a))) va vb
  | 15 => laneMap2 w (fun a b => laneMask w (decide (b < a))) va vb
  | 16 => (va &&& vd) ||| (vb &&& ~~~vd)
  | 17 => laneMake (w / 2) ((List.range k).map (laneGet w va) ++ (List.range k).map (laneGet w vb))
  | 18 => laneMake (2 * w) ((List.range (k / 2)).map (laneGet w va))
  | 19 => laneMake (2 * w) ((List.range (k / 2)).map (fun i => laneGet w va (k / 2 + i)))
  | _ => vd

/-- A VOP on the vector registers. DEDUCED: log entry 27. -/
def engVop (fn : BitVec 6) (e : EngIx) (vd va vb : VReg) (lw : BitVec 2) (imm : BitVec 6) (s : State) : Host.Outcome State Fault Refusal :=
  s.run (fun d => engRun d e.val (.vop fn vd va vb lw imm) (fun d =>
    engReg d e.val (fun x => x.setV vd (vopResult fn lw imm (x.vr vd) (x.vr va) (x.vr vb)))))

def execVand (e : EngIx) (vd va vb : VReg) (lw : BitVec 2) (s : State) := engVop 0 e vd va vb lw 0 s
def execVor (e : EngIx) (vd va vb : VReg) (lw : BitVec 2) (s : State) := engVop 1 e vd va vb lw 0 s
def execVxor (e : EngIx) (vd va vb : VReg) (lw : BitVec 2) (s : State) := engVop 2 e vd va vb lw 0 s
def execVandn (e : EngIx) (vd va vb : VReg) (lw : BitVec 2) (s : State) := engVop 3 e vd va vb lw 0 s
def execVadd (e : EngIx) (vd va vb : VReg) (lw : BitVec 2) (s : State) := engVop 4 e vd va vb lw 0 s
def execVsub (e : EngIx) (vd va vb : VReg) (lw : BitVec 2) (s : State) := engVop 5 e vd va vb lw 0 s
def execVmin (e : EngIx) (vd va vb : VReg) (lw : BitVec 2) (s : State) := engVop 6 e vd va vb lw 0 s
def execVminu (e : EngIx) (vd va vb : VReg) (lw : BitVec 2) (s : State) := engVop 7 e vd va vb lw 0 s
def execVmax (e : EngIx) (vd va vb : VReg) (lw : BitVec 2) (s : State) := engVop 8 e vd va vb lw 0 s
def execVmaxu (e : EngIx) (vd va vb : VReg) (lw : BitVec 2) (s : State) := engVop 9 e vd va vb lw 0 s
def execVsll (e : EngIx) (vd va : VReg) (lw : BitVec 2) (imm : BitVec 6) (s : State) := engVop 10 e vd va 0 lw imm s
def execVsrl (e : EngIx) (vd va : VReg) (lw : BitVec 2) (imm : BitVec 6) (s : State) := engVop 11 e vd va 0 lw imm s
def execVsra (e : EngIx) (vd va : VReg) (lw : BitVec 2) (imm : BitVec 6) (s : State) := engVop 12 e vd va 0 lw imm s
def execVceq (e : EngIx) (vd va vb : VReg) (lw : BitVec 2) (s : State) := engVop 13 e vd va vb lw 0 s
def execVcgt (e : EngIx) (vd va vb : VReg) (lw : BitVec 2) (s : State) := engVop 14 e vd va vb lw 0 s
def execVcgtu (e : EngIx) (vd va vb : VReg) (lw : BitVec 2) (s : State) := engVop 15 e vd va vb lw 0 s
def execVsel (e : EngIx) (vd va vb : VReg) (lw : BitVec 2) (s : State) := engVop 16 e vd va vb lw 0 s
def execVpack (e : EngIx) (vd va vb : VReg) (lw : BitVec 2) (s : State) := engVop 17 e vd va vb lw 0 s
def execVunpkl (e : EngIx) (vd va : VReg) (lw : BitVec 2) (s : State) := engVop 18 e vd va 0 lw 0 s
def execVunpkh (e : EngIx) (vd va : VReg) (lw : BitVec 2) (s : State) := engVop 19 e vd va 0 lw 0 s

/-! ### Transfers -/

def engVxfer (fn : BitVec 2) (f : Engine → Engine) (e : EngIx) (v : VReg) (g : GReg) (lw : BitVec 2) (ix : BitVec 6) (s : State) :
    Host.Outcome State Fault Refusal :=
  s.run (fun d => engRun d e.val (.vxfer fn v g lw ix) (fun d => engReg d e.val f))

/-- Lane idx of v takes the low bits of g. -/
def execVins (e : EngIx) (v : VReg) (g : GReg) (lw : BitVec 2) (ix : BitVec 6) (s : State) :=
  engVxfer 0 (fun x =>
    let w := laneBits lw
    x.setV v (laneMake w (((List.range (128 / w)).map (laneGet w (x.vr v))).set ix.toNat (x.gr g).toNat))) e v g lw ix s
def execVext (e : EngIx) (v : VReg) (g : GReg) (lw : BitVec 2) (ix : BitVec 6) (s : State) :=
  engVxfer 1 (fun x => x.setG g (BitVec.ofNat 32 (laneGet (laneBits lw) (x.vr v) ix.toNat))) e v g lw ix s
def execVmsk (e : EngIx) (v : VReg) (g : GReg) (lw : BitVec 2) (s : State) :=
  engVxfer 2 (fun x =>
    let w := laneBits lw
    x.setG g (BitVec.ofNat 32 ((List.range (128 / w)).foldl (fun a i => a + bitIf ((x.vr v).getLsbD (w * i + w - 1)) i) 0))) e v g lw 0 s
def execVsplat (e : EngIx) (v : VReg) (g : GReg) (lw : BitVec 2) (s : State) :=
  engVxfer 3 (fun x =>
    let w := laneBits lw
    x.setV v (laneMake w (List.replicate (128 / w) (x.gr g).toNat))) e v g lw 0 s

/-! ### Vector memory -/

def engVld (d : Dev) (e : Nat) (v : VReg) (ra : GReg) (im : BitVec 16) : Dev :=
  let i := EngInstr.vmem false v ra im
  let addr := dataAddr (d.eng e) i
  dataAccess d e addr 16 16 true false false (fun d =>
    match locOf addr with
    | .aperture _ _ => engIssue d e i 1 1 true []
    | loc =>
      match sramWords d e (loc = .imem) (addr.toNat % 0x10000 / 4) 4 with
      | (d, none) => engExc d e 7 addr 0
      | (d, some l) => engReg d e (fun x => x.setV v (BitVec.ofNat 128 (wordsNat l))))

def execVld (e : EngIx) (v : VReg) (ra : GReg) (i : BitVec 16) (s : State) : Host.Outcome State Fault Refusal :=
  s.run (fun d => engRun d e.val (.vmem false v ra i) (fun d => engVld d e.val v ra i))

def engVst (d : Dev) (e : Nat) (v : VReg) (ra : GReg) (im : BitVec 16) : Dev :=
  let i := EngInstr.vmem true v ra im
  let x := d.eng e
  let addr := dataAddr x i
  dataAccess d e addr 16 16 false true false (fun d =>
    match locOf addr with
    | .aperture k _ => engIssue d e i 0x08 1 (x.apAttr k 9 1 = 1) [x.vr v]
    | _ => engReg d e (fun x => (List.range 4).foldl (fun (y : Engine) n =>
        y.dmemStore (addr.toNat % 0x10000 + 4 * n) 4 (bitsOf (x.vr v).toNat (32 * n) 32)) x))

def execVst (e : EngIx) (v : VReg) (ra : GReg) (i : BitVec 16) (s : State) : Host.Outcome State Fault Refusal :=
  s.run (fun d => engRun d e.val (.vmem true v ra i) (fun d => engVst d e.val v ra i))

/-! ### Engine ports (R306, R308) -/

/-- Change port set j of an engine's island. -/
def updPorts (d : Dev) (e j : Nat) (f : PortSet → PortSet) : Dev :=
  d.updIsl (e / 2) (fun x => if j = 0 then { x with ps0 := f x.ps0 } else { x with ps1 := f x.ps1 })

/-- VPUT at commit: append, or stall while the staging queue holds 8 entries (R323); in replay it never stalls, and an entry for which
there is no place goes the way of all of them, discarded (R308). -/
def engVput (d : Dev) (e : Nat) (v p n : BitVec 4) (set : Bool) : Dev :=
  let j := if set then 1 else 0
  let x := d.eng e
  if isSysEng e then engExc d e 1 x.pc 0
  else if !ownsSet d e j then engExc d e 11 x.pc 0
  else if 8 ≤ (portsOf d e j).staging.length && (d.isl (e / 2)).replay.isNone then
    d.setEng e { x with run := 3, pend := some (.vport 0 v p n 0 set) }
  else
    let words := (List.range (n.toNat + 1)).map (fun u => x.vr (v + BitVec.ofNat 4 u))
    engReg (updPorts d e j (fun q => if 8 ≤ q.staging.length then q else { q with staging := q.staging ++ [(p.toNat, words)] })) e id

def execVput (e : EngIx) (v p nm1 : BitVec 4) (set : Bool) (s : State) : Host.Outcome State Fault Refusal :=
  s.run (fun d => engRun d e.val (.vport 0 v p nm1 0 set) (fun d => engVput d e.val v p nm1 set))

/-- A staging entry frees for a stalled VPUT. -/
def execVputResume (e : EngIx) (s : State) : Host.Outcome State Fault Refusal :=
  s.run (fun d =>
    let x := d.eng e.val
    match x.run, x.pend with
    | 3, some (.vport _ v p n _ set) => engVput d e.val v p n set
    | _, _ => d)

/-- Sampled words waiting for a full up FIFO move in once it has room (R307). -/
def upFlush (q : PortSet) (p : Nat) : PortSet :=
  match q.upPend.find? (fun e => e.1 = p) with
  | none => q
  | some (_, w) =>
    let l := tget q.up [] p
    if 8 ≤ l.length then q
    else { q with up := tput q.up [] p (l ++ [(w, q.upStroke)]), upPend := q.upPend.filter (fun e => e.1 ≠ p) }

/-- VGET (R306): the head of an up FIFO with its stroke. -/
def engVget (d : Dev) (e : Nat) (v p : BitVec 4) (rd : GReg) (set : Bool) : Dev :=
  let j := if set then 1 else 0
  let x := d.eng e
  if isSysEng e then engExc d e 1 x.pc 0
  else if !ownsSet d e j then engExc d e 11 x.pc 0
  else
    match tget (portsOf d e j).up [] p.toNat with
    | [] => engReg d e (fun x => x.setG rd 0)
    | (w, n) :: rest =>
      engReg (updPorts d e j (fun q => upFlush { q with up := tput q.up [] p.toNat rest, pops := if isJoined d (e / 2) then tput q.pops 0 p.toNat (tget q.pops 0 p.toNat + 1) else q.pops } p.toNat)) e
        (fun x => { ((x.setV v w).setG rd 1) with upStroke := n })

def execVget (e : EngIx) (v p : BitVec 4) (rd : GReg) (set : Bool) (s : State) : Host.Outcome State Fault Refusal :=
  s.run (fun d => engRun d e.val (.vport 1 v p 0 rd set) (fun d => engVget d e.val v p rd set))

/-- VPSTAT (R306): never a port fault. -/
def engVpstat (d : Dev) (e : Nat) (p : BitVec 4) (rd : GReg) (set : Bool) : Dev :=
  let j := if set then 1 else 0
  if isSysEng e then engExc d e 1 (d.eng e).pc 0
  else
    let q := portsOf d e j
    let own := ownsSet d e j
    engReg d e (fun x => x.setG rd (BitVec.ofNat 32 ((tget q.up [] p.toNat).length % 16
      + (if own then (8 - q.staging.length) * 16 + 256 else 0))))

def execVpstat (e : EngIx) (p : BitVec 4) (rd : GReg) (set : Bool) (s : State) : Host.Outcome State Fault Refusal :=
  s.run (fun d => engRun d e.val (.vport 2 0 p 0 rd set) (fun d => engVpstat d e.val p rd set))

/-! ### The CRC unit -/

def engVcrc (fn : BitVec 2) (f : Engine → Engine) (e : EngIx) (v : VReg) (g : GReg) (s : State) : Host.Outcome State Fault Refusal :=
  s.run (fun d => engRun d e.val (.vcrc fn v g) (fun d => engReg d e.val f))

def execVcrci (e : EngIx) (g : GReg) (s : State) := engVcrc 0 (fun x => { x with crc := x.gr g }) e 0 g s
def execVcrcu (e : EngIx) (v : VReg) (s : State) := engVcrc 1 (fun x => { x with crc := crc32cUpd x.crc (unitBytes (x.vr v)) }) e v 0 s
def execVcrcr (e : EngIx) (g : GReg) (s : State) := engVcrc 2 (fun x => x.setG g x.crc) e 0 g s

end Sys2Proof.Machine
end

