-- ==== Sys2Proof/Machine/Slices.lean ====
section
/-! DEFINITION. Arithmetic slices (R164 to R188): pre-adder, product, accumulator, output stage, min/max search and block
exponent, and what an active clock edge does to them. -/

namespace Sys2Proof.Machine

/-! ### Configuration fields (R187) -/

def Slice.dual (s : Slice) : Bool := s.cfg.getLsbD 0
def Slice.padd (s : Slice) : Nat := bitsOf s.cfg.toNat 1 2
def Slice.asign (s : Slice) : Bool := s.cfg.getLsbD 3
def Slice.bsign (s : Slice) : Bool := s.cfg.getLsbD 4
def Slice.csign (s : Slice) : Bool := s.cfg.getLsbD 5
def Slice.accSigned (s : Slice) : Bool := s.cfg.getLsbD 6
def Slice.xuse (s : Slice) : Bool := s.cfg.getLsbD 7
def Slice.cuse (s : Slice) : Bool := s.cfg.getLsbD 8
def Slice.zsel (s : Slice) : Nat := bitsOf s.cfg.toNat 9 2
def Slice.ireg (s : Slice) : Bool := s.cfg.getLsbD 11
def Slice.oreg (s : Slice) : Bool := s.cfg.getLsbD 12
def Slice.ckmode (s : Slice) : Nat := bitsOf s.cfg.toNat 13 2
def Slice.clkline (s : Slice) : Nat := bitsOf s.cfg.toNat 15 2
def Slice.inUse (s : Slice) : Bool := s.cfg.getLsbD 17
def Slice.owidth (s : Slice) : Nat := bitsOf s.outCfg.toNat 8 6 + 1
def Slice.osat (s : Slice) : Bool := s.outCfg.getLsbD 14

/-- The pins of a slice at an edge; `ctl` holds ACC_CLR, SUB, MM_EN, MM_CLR, BE_EN, BE_CLR, RPOS and OSEL from bit 0 up
(R164, R267). -/
structure SlicePins where
  a : BitVec 36
  b : BitVec 36
  d : BitVec 36
  c : BitVec 64
  ctl : BitVec 16
  ce : Bool
  rst : Bool
deriving DecidableEq, Repr

/-! ### Integers and bits -/

/-- A bit vector read as signed or unsigned. -/
def asInt {w : Nat} (sgn : Bool) (x : BitVec w) : Int := if sgn then x.toInt else (x.toNat : Int)

/-- Whether an exact value lies in the signed or unsigned range of w bits. -/
def fits (sgn : Bool) (w : Nat) (v : Int) : Bool :=
  if sgn then -(2 ^ (w - 1) : Int) ≤ v && v < (2 ^ (w - 1) : Int) else 0 ≤ v && v < (2 ^ w : Int)

/-- Whether AD is signed (R166): always where D is subtracted. -/
def Slice.adSigned (s : Slice) : Bool := s.asign || s.padd = 2

/-- The pre-adder's value (R166). -/
def preAdd (s : Slice) (a d : BitVec 36) : Int :=
  if s.padd = 1 then asInt s.asign a + asInt s.asign d
  else if s.padd = 2 then asInt s.asign a - asInt s.asign d
  else asInt s.asign a

/-- The product as the M register holds it: 73 bits, or two lanes of 36 bits (R167, R168). -/
def product (s : Slice) (a b d : BitVec 36) : BitVec 73 :=
  if s.dual then
    let lane (l : Nat) : BitVec 36 :=
      BitVec.ofInt 36 (asInt s.asign (a.extractLsb' (18 * l) 18) * asInt s.bsign (b.extractLsb' (18 * l) 18))
    (lane 1 ++ lane 0).setWidth 73
  else BitVec.ofInt 73 (preAdd s a d * asInt s.bsign b)

/-- The X term of a lane, before SUB (R169): M extended by its sign. -/
def mValue (s : Slice) (m : BitVec 73) (lane : Nat) : Int :=
  if s.dual then asInt (s.asign || s.bsign) (m.extractLsb' (36 * lane) 36) else asInt (s.adSigned || s.bsign) m

/-- Z + Y + X of a lane of w bits, exactly (R169). -/
def accSum (s : Slice) (ctl : BitVec 16) (w : Nat) (acc pcin : BitVec w) (c m : Int) (sh : Nat) : Int :=
  let x := if s.xuse then (if ctl.getLsbD 1 then -m else m) else 0
  let y := if s.cuse then c else 0
  let z := if ctl.getLsbD 0 then 0
    else if s.zsel = 0 then 0
    else if s.zsel = 1 then asInt s.accSigned acc
    else if s.zsel = 2 then asInt s.accSigned pcin
    else asInt s.accSigned pcin / (2 ^ sh : Int)
  z + y + x

/-- The accumulator's update: its new value and the overflow of each lane (R169, R170). -/
def accUpdate (s : Slice) (pcin : BitVec 128) : BitVec 128 × Bool × Bool :=
  if s.dual then
    let lane (l : Nat) : Int := accSum s s.flM 64 (s.acc.extractLsb' (64 * l) 64) (pcin.extractLsb' (64 * l) 64)
      (asInt s.csign (s.cM.extractLsb' (32 * l) 32)) (mValue s s.m l) 18
    (BitVec.ofInt 64 (lane 1) ++ BitVec.ofInt 64 (lane 0), !fits s.accSigned 64 (lane 0), !fits s.accSigned 64 (lane 1))
  else
    let v := accSum s s.flM 128 s.acc pcin (asInt s.csign s.cM) (mValue s s.m 0) 36
    (BitVec.ofInt 128 v, !fits s.accSigned 128 v, false)

/-! ### Output stage (R176 to R178) -/

/-- Rounding half to even at position r. -/
def roundAt (v : Int) (r : Nat) : Int :=
  if r = 0 then v
  else
    let q := v / (2 ^ r : Int)
    let f := v - q * (2 ^ r : Int)
    let h := (2 ^ (r - 1) : Int)
    if f > h then q + 1 else if f < h then q else if q % 2 = 0 then q else q + 1

/-- Narrowing to w bits: the value and whether R lay outside the range (R177). -/
def narrow (sgn sat : Bool) (w : Nat) (r : Int) : Int × Bool :=
  if fits sgn w r then (r, false)
  else if sat then
    let hi : Int := if sgn then 2 ^ (w - 1) - 1 else 2 ^ w - 1
    let lo : Int := if sgn then -(2 ^ (w - 1)) else 0
    (if r > hi then hi else lo, true)
  else (asInt sgn (BitVec.ofInt w r), true)

def ctlRpos (ctl : BitVec 16) : Nat := bitsOf ctl.toNat 6 7
def ctlOsel (ctl : BitVec 16) : Nat := bitsOf ctl.toNat 13 3

/-- The narrowed R of a lane for the accumulator and the controls that travel with it (R176, R177). -/
def laneOut (s : Slice) (ctl : BitVec 16) (lane : Nat) : Int × Bool :=
  let r := if s.outCfg.getLsbD 7 then ctlRpos ctl else bitsOf s.outCfg.toNat 0 7
  if s.dual then
    narrow s.accSigned s.osat s.owidth (roundAt (asInt s.accSigned (s.acc.extractLsb' (64 * lane) 64)) (if r > 63 then 63 else r))
  else narrow s.accSigned s.osat s.owidth (roundAt (asInt s.accSigned s.acc) r)

/-- P, SAT and OVF as the output stage forms them from the accumulator stage (R178). -/
def outStage (s : Slice) : BitVec 64 × Bool × Bool :=
  let o := ctlOsel s.flAcc
  let ovf := s.accOvf || s.accOvf1
  if o = 1 then (s.acc.extractLsb' 0 64, false, ovf)
  else if o = 2 then (s.acc.extractLsb' 64 64, false, ovf)
  else if o = 3 then (s.min, false, ovf)
  else if o = 4 then (s.max, false, ovf)
  else if s.dual then
    let l0 := laneOut s s.flAcc 0
    let l1 := laneOut s s.flAcc 1
    (BitVec.ofInt 32 l1.1 ++ BitVec.ofInt 32 l0.1, l0.2 || l1.2, ovf)
  else
    let l := laneOut s s.flAcc 0
    (BitVec.ofInt 64 l.1, l.2, ovf)

/-! ### Detectors (R179 to R182) -/

/-- Min/max: the output whose controls are `ctl` and whose narrowed value is `v`; true where idx_wrap is set. -/
def minMax (s : Slice) (ctl : BitVec 16) (v : BitVec 64) : Slice × Bool :=
  let s := if ctl.getLsbD 3 then { s with valid := false, count := 0, min := 0, max := 0, minIdx := 0, maxIdx := 0 } else s
  if !ctl.getLsbD 2 then (s, false)
  else
    let tie := s.detCfg.getLsbD 16
    let less (x y : BitVec 64) : Bool := decide (asInt s.accSigned x < asInt s.accSigned y)
    let takeMin := !s.valid || less v s.min || (tie && v = s.min)
    let takeMax := !s.valid || less s.max v || (tie && v = s.max)
    ({ s with min := if takeMin then v else s.min, minIdx := if takeMin then s.count else s.minIdx,
              max := if takeMax then v else s.max, maxIdx := if takeMax then s.count else s.maxIdx,
              valid := true, count := s.count + 1 }, s.count = 0xFFFF#16)

/-- Redundant sign bits of a w-bit value (R181). -/
def rsb {w : Nat} (v : BitVec w) : Nat :=
  let rec go : Nat → Nat
    | 0 => 0
    | n + 1 => if v.getLsbD n = v.msb then go n + 1 else 0
  go (w - 1)

/-- Block exponent: the output with controls `ctl` carrying the accumulator `acc` (R182). DEDUCED: log entry 27. -/
def blockExp (s : Slice) (ctl : BitVec 16) (acc : BitVec 128) : Slice :=
  let s := { s with expPulse := false }
  let s := if ctl.getLsbD 5 then { s with blkCount := 0, runMin := 0 } else s
  if !ctl.getLsbD 4 then s
  else
    let lanes := bitsOf s.detCfg.toNat 18 2
    let r0 := rsb (acc.extractLsb' 0 64)
    let r1 := rsb (acc.extractLsb' 64 64)
    let e := if s.dual then (if lanes = 1 then r0 else if lanes = 2 then r1 else min r0 r1) else rsb acc
    let run := if s.blkCount = 0 then e else min e s.runMin.toNat
    if s.blkCount.toNat = bitsOf s.detCfg.toNat 0 16 then
      { s with exp := BitVec.ofNat 7 run, expValid := true, expPulse := true, runMin := 0, blkCount := 0 }
    else { s with runMin := BitVec.ofNat 7 run, blkCount := s.blkCount + 1 }

/-! ### A clock edge (R173, R174) -/

/-- One active edge: the new registers, and the sticky bits of ARS_STATUS it sets. With RST the set leaving ACC shows the
detectors the cleared value, and an ACC_CLR at that edge applies to nothing (R174, R186). DESIGN CHOICE: of the output stage
RST also clears SAT, OVF and the overflow travelling with ACC, and keeps the presented MIN_IDX and MAX_IDX, which are the
detectors'. DESIGN CHOICE: log entry 124. -/
def sliceEdge (s : Slice) (p : SlicePins) (pcin : BitVec 128) : Slice × Word :=
  let s := if p.rst then { s with acc := 0, accOvf := false, accOvf1 := false } else s
  let p := if p.rst then { p with ctl := p.ctl &&& ~~~1#16 } else p
  let moved : Slice × Word :=
    if !p.ce then (s, 0)
    else
      let v := (laneOut s s.flAcc (if s.dual && s.detCfg.getLsbD 17 then 1 else 0)).1
      let (s1, wrap) := minMax s s.flAcc (BitVec.ofInt 64 v)
      let s2 := blockExp s1 s.flAcc s.acc
      let (po, sat, ovf) := outStage s
      let (acc', o0, o1) := accUpdate s pcin
      let ma := if s.ireg then product s s.a s.b s.d else product s p.a p.b p.d
      ({ s2 with
          p := if s.oreg then po else 0, satOut := s.oreg && sat, ovfOut := s.oreg && ovf,
          minIdxOut := s.minIdx, maxIdxOut := s.maxIdx, flP := if s.oreg then s.flAcc else 0,
          acc := acc', accOvf := o0, accOvf1 := o1, flAcc := s.flM,
          m := ma, cM := if s.ireg then s.c else p.c, flM := if s.ireg then s.flIn else p.ctl,
          a := if s.ireg then p.a else 0, b := if s.ireg then p.b else 0, d := if s.ireg then p.d else 0,
          c := if s.ireg then p.c else 0, flIn := if s.ireg then p.ctl else 0 },
        (if !p.rst && o0 then bit 0 else 0) ||| (if !p.rst && sat then bit 1 else 0) ||| (if wrap then bit 2 else 0)
          ||| (if !p.rst && o1 then bit 4 else 0))
  if p.rst then
    ({ moved.1 with a := 0, b := 0, d := 0, c := 0, m := 0, cM := 0, acc := 0, accOvf := false, accOvf1 := false, p := 0,
                    satOut := false, ovfOut := false }, moved.2)
  else moved

/-- Output v of a slice (R164, R173): with oreg = 0 the result comes through the output stage. -/
def sliceOut (s : Slice) (v : Nat) : Bool :=
  let o := outStage s
  let p := if s.oreg then s.p else o.1
  if v < 64 then p.getLsbD v
  else if v = 64 then (if s.oreg then s.satOut else o.2.1)
  else if v = 65 then (if s.oreg then s.ovfOut else o.2.2)
  else if v < 82 then (if s.oreg then s.minIdxOut else s.minIdx).getLsbD (v - 66)
  else if v < 98 then (if s.oreg then s.maxIdxOut else s.maxIdx).getLsbD (v - 82)
  else if v < 105 then s.exp.getLsbD (v - 98)
  else v = 105 && s.expPulse

/-- The registers and detector state cleared (R183); the configuration and service state stay. -/
def Slice.cleared (s : Slice) : Slice :=
  { cfg := s.cfg, outCfg := s.outCfg, detCfg := s.detCfg, outOfService := s.outOfService }

end Sys2Proof.Machine
end

