-- ==== Sys2Proof/Machine/Fabric.lean ====
section
/-! DEFINITION. The fabric: configuration fields in the frames (R89, R99, R500), and the value of every net of an island as
the configured cells and routing make it (R67 to R76, R93 to R103, R115, R132, R133). A net whose value the spec leaves
undefined (a combinational loop, an output that is indeterminate) has the value `none`. -/

namespace Sys2Proof.Machine

/-! ### Configuration bits (R500) -/

/-- A frame as its outputs read it: a bit changes only where its nodes of both planes are disturbed (R85, R519). DEDUCED: log entry 23. -/
def FrameNodes.value (x : FrameNodes) : Frame := x.bits ^^^ (x.badA &&& x.badB)

/-- Row-image bit b of cluster row r. -/
def rowBit (d : Dev) (i r b : Nat) : Bool := (d.frame i (48 * r + b / 4096)).value.getLsbD (b % 4096)

/-- A field of w bits at row-image bit b. -/
def rowFld (d : Dev) (i r b : Nat) : Nat → Nat
  | 0 => 0
  | w + 1 => (if rowBit d i r b then 1 else 0) + 2 * rowFld d i r (b + 1) w

/-- A field of the record of cluster (row r, column c). -/
def cluFld (d : Dev) (i r c off w : Nat) : Nat := rowFld d i r (3792 * c + off) w
/-- A field of cell k. -/
def cellFld (d : Dev) (i r c k off w : Nat) : Nat := cluFld d i r c (83 * k + off) w
/-- A field of cell pair p. -/
def pairFld (d : Dev) (i r c p off w : Nat) : Nat := cluFld d i r c (2656 + 7 * p + off) w

/-- Bit x of band b's site area. -/
def bandBit (d : Dev) (i b x : Nat) : Bool := rowBit d i (4 * b + x / 7008) (189600 + x % 7008)
def bandFld (d : Dev) (i b x : Nat) : Nat → Nat
  | 0 => 0
  | w + 1 => (if bandBit d i b x then 1 else 0) + 2 * bandFld d i b (x + 1) w

/-! ### Sites on the routing (R103, R132, R133, R305, R346, R407, R569, R637) -/

/-- A kind of site with its number within the island. -/
inductive Site where
  | mem (m : Nat) | slice (a : Nat) | port (j p : Nat) | lane (j : Nat) | noc | probe (k : Nat) | bank
deriving DecidableEq, Repr

/-- The bank attached to an island in joined mode (R637): quarter q, local column k, outer row. -/
def bankOf (i : Nat) : Option Nat :=
  let q := quarterOf i
  let x := i % 16
  let y := i / 16
  if x % 8 < 7 ∧ (if q < 2 then y = 0 else y = 15) then some (7 * q + x % 8) else none

/-- The band whose site area holds a site's record (R500). -/
def Site.band : Site → Nat
  | .mem m => m % 24
  | .slice a => a % 24
  | .port _ p => p
  | .lane j => j
  | .noc => 23
  | .probe k => k
  | .bank => 0

/-- The site record's first band bit (R500). -/
def Site.base : Site → Nat
  | .mem m => 1760 * (m / 24)
  | .slice a => 7040 + 768 * (a / 24)
  | .port j _ => 8576 + 650 * j
  | .lane _ => 9876
  | .noc => 10532
  | .probe _ => 11856
  | .bank => 12112

/-- Inputs and outputs of a site. -/
def Site.ins : Site → Nat
  | .mem _ => 364 | .slice _ => 191 | .port _ _ => 130 | .lane _ => 130 | .noc => 259 | .probe _ => 128 | .bank => 96
def Site.outs : Site → Nat
  | .mem _ => 296 | .slice _ => 106 | .port _ _ => 130 | .lane _ => 132 | .noc => 267 | .probe _ => 0 | .bank => 48

/-- Clusters a site attaches to. -/
def Site.hs : Site → Nat
  | .mem _ => 8 | .slice _ => 8 | .port _ _ => 6 | .lane _ => 10 | .noc => 8 | .probe _ => 8 | .bank => 12

/-- The west cluster column of a special column: block memories 0 to 3, slices 0 and 1. -/
def memCol (c : Nat) : Nat := 10 * c + 9
def sliceCol (c : Nat) : Nat := 20 * c + 14

/-- Cluster h of a site: its row and column. -/
def Site.cluster (i : Nat) (s : Site) (h : Nat) : Nat × Nat :=
  match s with
  | .mem m => (4 * (m % 24) + h % 4, memCol (m / 24) + h / 4)
  | .slice a => (4 * (a % 24) + h % 4, sliceCol (a / 24) + h / 4)
  | .port j p => (6 * p + h, if j = 0 then 0 else 49)
  | .lane j => (10 * j + h, if quarterOf i % 2 = 0 then 0 else 49)
  | .noc => (95, 21 + h)
  | .probe k => (k, 21 + h)
  | .bank => (if quarterOf i < 2 then 0 else 95, (if quarterOf i % 2 = 0 then 1 else 37) + h)

/-- The sites attached to cluster (r, c) with the cluster's number h at each. -/
def sitesAt (d : Dev) (i r c : Nat) : List (Site × Nat) :=
  let special := (List.range 6).filterMap (fun n =>
    let west := [9, 14, 19, 29, 34, 39].getD n 0
    if c = west ∨ c = west + 1 then
      let h := r % 4 + (if c = west then 0 else 4)
      some (if n = 1 then (Site.slice (r / 4), h) else if n = 4 then (Site.slice (24 + r / 4), h)
        else (Site.mem ((if n = 0 then 0 else if n = 2 then 24 else if n = 3 then 48 else 72) + r / 4), h))
    else none)
  let ports := if c = 0 then [(Site.port 0 (r / 6), r % 6)] else if c = 49 then [(Site.port 1 (r / 6), r % 6)] else []
  let lane := if (d.isl i).setup.laneAttach && c = (if quarterOf i % 2 = 0 then 0 else 49) && r < 90 then [(Site.lane (r / 10), r % 10)] else []
  let noc := if r = 95 ∧ 21 ≤ c ∧ c ≤ 28 then [(Site.noc, c - 21)] else []
  let c0 := if quarterOf i % 2 = 0 then 1 else 37
  let bank := if (bankOf i).isSome && r = (if quarterOf i < 2 then 0 else 95) && c0 ≤ c && c < c0 + 12 then [(Site.bank, c - c0)] else []
  special ++ ports ++ lane ++ noc ++ bank

/-- The site output that drives segment start (direction t, index x) of a cluster, if one does (R133). -/
def siteDriver (d : Dev) (i r c t x : Nat) : Option (Site × Nat) :=
  (sitesAt d i r c).findSome? (fun e =>
    ((List.range e.1.outs).find? (fun v =>
      v % e.1.hs = e.2 &&
        (let o := bandFld d i e.1.band (e.1.base + 2 * e.1.ins + 3 * v) 3
         o ≠ 0 && (o - 1) % 4 = t && (v / e.1.hs + 5 * ((o - 1) / 4)) % 15 = x))).map (fun v => (e.1, v)))

/-! ### Outputs that come from state -/

def portSet (x : Island) (j : Nat) : PortSet := if j = 0 then x.ps0 else x.ps1

/-- D_DATA, D_VALID and U_FULL of an engine port (R305, R307, R309). -/
def portOut (d : Dev) (i j p v : Nat) : Bool :=
  let ps := portSet (d.isl i) j
  if (d.isl i).setup.groupId = 0 then
    if v < 128 then (tget ps.down 0 p).getLsbD v else v = 128 && ps.downValid.getLsbD p
  else
    let head : Option W128 := match ps.staging with
      | (first, ws) :: _ => if first ≤ p && !ps.taken.getLsbD p then ws[p - first]? else none
      | [] => none
    -- the flags show the engine's side as it was two edges of the port's clock ago
    if v < 128 then (head.getD 0).getLsbD v
    else if v = 128 then head.isSome && decide (ps.gone < (tget ps.seen (0, 0) p).2)
    else decide (8 + (tget ps.popSeen (0, 0) p).2 ≤ (tget ps.up [] p).length + tget ps.pops 0 p)

/-- The fabric NoC port's outputs but RQ_READY (R346). -/
def nocOut (x : Island) (v : Nat) : Bool :=
  if 258 < v then (BitVec.ofNat 8 (128 - x.fab.units)).getLsbD (v - 259)
  else
    match x.fab.beats with
    | (isHdr, u, last) :: _ =>
      if v < 128 then isHdr && u.getLsbD v else if v < 256 then !isHdr && u.getLsbD (v - 128) else if v = 256 then true else v = 257 && last
    | [] => false

/-- RQ_READY for the header on the pins, of which `c` is the command, `tag` bits [7:0] of the tag, `len` the length: room for the answer,
a tag not in use, a token at the node. The beats after a header are always taken (R347). -/
def nocReady (d : Dev) (i : Nat) (c tag len : Nat) (rr : Bool) : Bool :=
  let x := (d.isl i).fab
  x.inHdr.isSome ||
    ((!rr || (x.hdrs < 16 && decide (x.units + answerUnits c len ≤ 128)))
      && !(d.noc.outst.any (fun o => o.node = i && o.unit = 0 && o.tag = tag)) && !(d.noc.quarantine.contains (i, 0, tag))
      && decide (5120 ≤ bucketOf d i (d.owner i)))

/-- Pins as a number, least significant first; none where one of them is undefined. -/
def pinsNat : List (Option Bool) → Option Nat
  | [] => some 0
  | none :: _ => none
  | some b :: r => (pinsNat r).map (fun n => 2 * n + if b then 1 else 0)

/-- The lane group attached to an island at the outer column (R405): link port n, if the island is one of those. -/
def groupOf (i : Nat) : Option Nat :=
  let q := quarterOf i
  if i % 16 = (if q % 2 = 0 then 0 else 15) then some (q * 8 + i / 16 % 8) else none

def Dev.lane (d : Dev) (g : Nat) : Lane := tget d.lanes {} g
def Dev.setLane (d : Dev) (g : Nat) (x : Lane) : Dev := { d with lanes := tput d.lanes {} g x }

/-- A lane's FIFOs are emptied (R410). -/
def laneEmpty (d : Dev) (g : Nat) : Dev := d.setLane g { d.lane g with tx := [], rx := [], txFreed := [], rxFreed := [] }

/-- The FIFOs of the lanes attached to an island that leaves for IDLE, SLEEP or EVICTING are emptied (R410, R412). -/
def lanesLeave (d : Dev) (i : Nat) : Dev :=
  (d.lanes.map (·.1)).foldl (fun (d : Dev) g => if laneIsland (g / 9) = i then laneEmpty d g else d) d

/-- Fabric width in bits of group n (R408). DEDUCED: log entry 59. -/
def laneFw (d : Dev) (n : Nat) : Nat :=
  let c := d.fld (0x110 + n) R.LANE_PLL_CFG 4 2
  if c = 0 then 32 else if c = 1 then 64 else 128

/-- The fabric outputs of lane j of group n (R407). -/
def laneSiteOut (d : Dev) (n j v : Nat) : Bool :=
  let x := d.lane (9 * n + j)
  let st := d.reg (0x110 + n) (R.LANE_STATUS + j * 0x80)
  let head : Option W128 := match x.rx with | (0, w) :: _ => some w | _ => none
  if v < 128 then v < laneFw d n && (head.getD 0).getLsbD v
  else if v = 128 then head.isSome
  else if v = 129 then decide (x.tx.length + x.txFreed.length < 16)
  else if v = 130 then st.getLsbD 0
  else st.getLsbD 1

/-- A site's output v as a net value. -/
def siteOut (d : Dev) (i : Nat) (s : Site) (v : Nat) : Option Bool :=
  match s with
  | .mem m =>
    let b := d.bram (i * 96 + m)
    if v < 144 then some ((doOf b false).1.getLsbD v)
    else if v < 288 then some ((doOf b true).1.getLsbD (v - 144))
    else if v < 290 then some ((doOf b false).2.getLsbD (v - 288))
    else if v < 292 then some ((doOf b true).2.getLsbD (v - 290))
    else some (if v = 292 then b.use = 2 && b.emptyF else if v = 293 then b.use = 2 && b.aemptyF
      else if v = 294 then b.use = 2 && b.fullF else b.use = 2 && b.afullF)
  | .slice a => some (sliceOut (d.slice (i * 48 + a)) v)
  | .port j p => some (portOut d i j p v)
  | .lane j => match groupOf i with
    | some n => some (laneSiteOut d n j v)
    | none => some false
  | .noc => some (nocOut (d.isl i) v)
  | .probe _ => some false
  | .bank => match bankOf i with
    | some k =>
      -- indeterminate while the bank's supply is out of range (R644)
      if d.flag 0x142 (R.IO_BANK_STATUS + 0x10 * k) 12 then some ((tget d.pinLevels 0 k).getLsbD v) else none
    | none => some false

/-! ### Routing geometry (R93, R94, R101) -/

def segLen (x : Nat) : Nat := if x < 8 then 1 else if x < 12 then 4 else if x < 14 then 12 else 48

def leftOf (t : Nat) : Nat := if t = 0 then 2 else if t = 1 then 3 else if t = 2 then 1 else 0
def rightOf (t : Nat) : Nat := if t = 0 then 3 else if t = 1 then 2 else if t = 2 then 0 else 1

/-- The neighbour island in a direction (R19, R115). -/
def neighbour (i t : Nat) : Option Nat :=
  let x := i % 16
  let y := i / 16
  if t = 0 then (if x < 15 then some (i + 1) else none)
  else if t = 1 then (if x > 0 then some (i - 1) else none)
  else if t = 2 then (if y < 15 then some (i + 16) else none)
  else if y > 0 then some (i - 16) else none

def inIsland (s : IslState) : Bool :=
  match s with
  | .idle | .sleep | .evicting => false
  | _ => true

/-- Whether the edge switch between two islands is closed (R115). -/
def edgeClosed (d : Dev) (i j : Nat) : Bool :=
  d.owner i = d.owner j && (d.isl i).setup.groupId ≠ 0 && (d.isl i).setup.groupId = (d.isl j).setup.groupId &&
    inIsland (d.isl i).state && inIsland (d.isl j).state

/-- Where the segment of direction t and index x that ends at (r, c) of island i starts: island, row, column, and whether it
is a boundary track; none where no segment ends there. -/
def segStart (d : Dev) (i r c t x : Nat) : Option (Nat × Nat × Nat × Bool) :=
  let l := segLen x
  let inside : Option (Nat × Nat × Nat × Bool) :=
    if t = 0 then (if l ≤ c then some (i, r, c - l, false) else none)
    else if t = 1 then (if c + l ≤ 49 then some (i, r, c + l, false) else none)
    else if t = 2 then (if l ≤ r then some (i, r - l, c, false) else none)
    else if r + l ≤ 95 then some (i, r + l, c, false) else none
  match inside with
  | some s => some s
  | none =>
    if l ≠ 1 then none
    else
      -- a boundary track comes from the island on the side the track travels from
      let back := if t = 0 then 1 else if t = 1 then 0 else if t = 2 then 3 else 2
      match neighbour i back with
      | none => none
      | some j =>
        if !edgeClosed d i j then none
        else some (j, (if t = 2 then 95 else if t = 3 then 0 else r), (if t = 0 then 49 else if t = 1 then 0 else c), true)

/-- Whether the wire register at the end of a segment is in use (R97, R112). -/
def wireRegOn (d : Dev) (i r c t x : Nat) : Bool :=
  !(d.isl i).setup.fabricRoute && cluFld d i r c (2964 + t * 15 + x) 1 = 1

def wireKey (r c t x : Nat) : Nat := (r * 50 + c) * 60 + t * 15 + x

/-! ### Nets -/

/-- A net of island i: a routing source, a cell pin, a carry into cell k, a wide stage, the value at a segment's start. -/
inductive Net where
  | src (i r c s : Nat)
  | pin (i r c j : Nat)
  | carry (i r c k : Nat)
  | wide (i r c base lev gov : Nat)
  | seg (i r c t x : Nat)
  | sitePin (i : Nat) (s : Site) (u : Nat)
deriving DecidableEq, Repr

/-- A number for a net, so that different undefined nets have different free values. -/
def Site.key : Site → Nat
  | .mem m => m | .slice a => 100 + a | .port j p => 200 + 16 * j + p | .lane j => 300 + j | .noc => 310
  | .probe k => 320 + k | .bank => 330

def Net.key : Net → Nat
  | .src i r c s => (((i * 96 + r) * 50 + c) * 1024 + s) * 8
  | .pin i r c j => (((i * 96 + r) * 50 + c) * 1024 + j) * 8 + 1
  | .carry i r c k => (((i * 96 + r) * 50 + c) * 1024 + k) * 8 + 2
  | .wide i r c b l g => (((i * 96 + r) * 50 + c) * 1024 + (b * 32 + g) % 1024) * 8 * 5 + l * 8 + 3
  | .seg i r c t x => (((i * 96 + r) * 50 + c) * 1024 + t * 15 + x) * 8 + 4
  | .sitePin i s u => ((i * 512 + s.key) * 512 + u) * 8 + 5

/-- A truth table looked up with inputs that may be undefined: defined where every completion agrees. -/
def lutGet (tbl : Nat → Bool) : List (Option Bool) → Nat → Nat → Option Bool
  | [], acc, _ => some (tbl acc)
  | some b :: r, acc, w => lutGet tbl r (acc + if b then w else 0) (2 * w)
  | none :: r, acc, w =>
    match lutGet tbl r acc (2 * w), lutGet tbl r (acc + w) (2 * w) with
    | some x, some y => if x = y then some x else none
    | _, _ => none

def muxOpt (s x y : Option Bool) : Option Bool :=
  match s with
  | some true => y
  | some false => x
  | none => match x, y with
    | some a, some b => if a = b then some a else none
    | _, _ => none

def xorOpt (x y : Option Bool) : Option Bool :=
  match x, y with
  | some a, some b => some (a != b)
  | _, _ => none

/-- Levels of the wide group based at a cell: 0 where it is not an even cell in WIDE mode aligned to its group (R75).
DEDUCED: log entry 21. -/
def wideLevels (d : Dev) (i r c b : Nat) : Nat :=
  if cellFld d i r c b 64 2 = 3 ∧ b % 2 = 0 then
    let l := cellFld d i r c b 72 2 + 1
    if b % 2 ^ l = 0 then l
    else if l ≥ 3 ∧ b % 8 = 0 then 3 else if l ≥ 2 ∧ b % 4 = 0 then 2 else 1
  else 0

/-- The governing base of cell k: the largest group that contains it (R76). -/
def wideBase (d : Dev) (i r c k : Nat) : Option (Nat × Nat) :=
  [4, 3, 2, 1].findSome? (fun l =>
    let b := k - k % 2 ^ l
    if wideLevels d i r c b ≥ l then some (b, wideLevels d i r c b) else none)

/-- Select input of level `lev` in the group based at `gov`: X3 of cell gov + lev - 1 (R75). -/
def selPin (gov lev : Nat) : Nat := (gov + lev - 1) * 12 + 9

/-- Truth-table bit n of a cell. -/
def truthBit (d : Dev) (i r c k n : Nat) : Bool := rowBit d i r (3792 * c + 83 * k + n)

/-- The value of a net. Each unit of fuel is one step along a path; a path longer than any acyclic one is a loop, whose
value is undefined (R110). -/
def netEval (d : Dev) : Nat → Net → Option Bool
  | 0, _ => none
  | fuel + 1, net =>
    let ev := netEval d fuel
    match net with
    | .pin i r c j =>
      let p := cluFld d i r c (3024 + 2 * j) 2
      if p = 0 then some false else ev (.src i r c ((5 * j + 84 * p) % 252))
    | .sitePin i s u =>
      let p := bandFld d i s.band (s.base + 2 * u) 2
      if p = 0 then some false
      else ev (.src i (s.cluster i ((u + p) % s.hs)).1 (s.cluster i ((u + p) % s.hs)).2 ((5 * u + 84 * p) % 252))
    | .carry i r c k =>
      -- the carry out of the cell below (R74)
      if k = 0 ∧ r = 0 then some false
      else
        let (r', k') := if k = 0 then (r - 1, 31) else (r, k - 1)
        if cellFld d i r' c k' 64 2 ≠ 2 then ev (.carry i r' c k')
        else
          let gsel := cellFld d i r' c k' 66 4
          let cis := cellFld d i r' c k' 70 2
          let pin (n : Nat) : Option Bool := ev (.pin i r' c (k' * 12 + n))
          let c0 := if cis = 0 then ev (.carry i r' c k') else if cis = 1 then some false else if cis = 2 then some true else pin 4
          (List.range 4).foldl (fun cin n =>
            let a := pin n
            let b := pin (6 + n)
            let pk := lutGet (fun x => truthBit d i r' c k' (16 * n + x)) [a, b, pin 4, pin 5] 0 1
            muxOpt pk (if gsel.testBit n then b else a) cin) c0
    | .wide i r c base lev gov =>
      if lev = 0 then ev (.src i r c (base * 6))
      else muxOpt (ev (.pin i r c (selPin gov lev))) (ev (.wide i r c base (lev - 1) gov))
        (ev (.wide i r c (base + 2 ^ (lev - 1)) (lev - 1) gov))
    | .seg i r c t x =>
      let drv := cluFld d i r c (2784 + 3 * (t * 15 + x)) 3
      let dd := t * 15 + x
      if drv = 0 then
        match siteDriver d i r c t x with
        | some (.noc, 258) =>
          let f (lo w : Nat) : Option Nat := pinsNat ((List.range w).map (fun k => ev (.sitePin i .noc (lo + k))))
          match f 20 6, f 26 8, f 36 8, f 63 1 with
          | some c, some t, some l, some r => some (nocReady d i c t l (r = 1))
          | _, _, _, _ => none
        | some (s, v) => siteOut d i s v
        | none => some false
      else if drv = 1 then ev (.src i r c (192 + t * 15 + x))
      else if drv = 2 then ev (.src i r c (192 + leftOf t * 15 + (x + 5) % 15))
      else if drv = 3 then ev (.src i r c (192 + rightOf t * 15 + (x + 10) % 15))
      else ev (.src i r c (6 * ((dd + 8 * (drv - 4)) % 32) + dd % 6))
    | .src i r c s =>
      if s ≥ 192 then
        let t := (s - 192) / 15
        let x := (s - 192) % 15
        match segStart d i r c t x with
        | none => some false
        | some (j, r', c', boundary) =>
          if !boundary && wireRegOn d i r c t x then some (tget (d.isl i).wireRegs false (wireKey r c t x))
          else ev (.seg j r' c' t x)
      else
        let k := s / 6
        let o := s % 6
        if o ≥ 4 then some ((d.ff i (r * 50 + c)).getLsbD (2 * k + (o - 4)))
        else
          let mode := cellFld d i r c k 64 2
          let pin (n : Nat) : Option Bool := ev (.pin i r c (k * 12 + n))
          if mode = 2 then
            -- ARITH: sum bit o is p_o XOR c_o (R72)
            let gsel := cellFld d i r c k 66 4
            let cis := cellFld d i r c k 70 2
            let pk (n : Nat) : Option Bool :=
              lutGet (fun x => truthBit d i r c k (16 * n + x)) [pin n, pin (6 + n), pin 4, pin 5] 0 1
            let c0 := if cis = 0 then ev (.carry i r c k) else if cis = 1 then some false else if cis = 2 then some true else pin 4
            let co := (List.range o).foldl (fun cin n => muxOpt (pk n) (if gsel.testBit n then pin (6 + n) else pin n) cin) c0
            xorOpt (pk o) co
          else if o ≥ 2 then some false
          else if o = 0 then
            if mode = 1 then lutGet (fun x => truthBit d i r c k (32 + x)) [pin 0, pin 1, pin 2, pin 3, pin 4] 0 1
            else lutGet (fun x => truthBit d i r c k x) [pin 0, pin 1, pin 2, pin 3, pin 4, pin 5] 0 1
          else if mode = 3 then
            if k % 2 = 1 then some false
            else
              match wideBase d i r c k with
              | none => some false
              | some (b, l) =>
                -- the stage of the highest level whose sub-group starts at this cell (R76)
                let lev := if k = b then l
                  else ([3, 2, 1].find? (fun n => n ≤ l && (k - b) % 2 ^ n = 0)).getD 1
                ev (.wide i r c k lev b)
          else lutGet (fun x => truthBit d i r c k x) [pin 0, pin 1, pin 2, pin 3, pin 4] 0 1

/-- Fuel longer than any loop-free path of the device: every net is passed at most once. -/
def pathFuel : Nat := 2000000000

/-- A net's value now; an undefined one is a free value (R110, R81, R130). -/
def Dev.net (d : Dev) (n : Net) : Bool :=
  match netEval d pathFuel n with
  | some b => b
  | none => Config.freeBit d.free n.key

/-- A group of pins read as one number, least significant first. -/
def sitePins (d : Dev) (i : Nat) (s : Site) (u : Nat) : Nat → Nat
  | 0 => 0
  | w + 1 => (if d.net (.sitePin i s u) then 1 else 0) + 2 * sitePins d i s (u + 1) w

/-! ### Wire clocks: what drives a CK pin (R119, R127, R172) -/

/-- Where a pin's wire comes from: a cell or site output, a constant, or a wire register in use. -/
def wireRoot (d : Dev) : Nat → Net → Net
  | 0, n => n
  | fuel + 1, n =>
    match n with
    | .pin i r c j =>
      let p := cluFld d i r c (3024 + 2 * j) 2
      if p = 0 then n else wireRoot d fuel (.src i r c ((5 * j + 84 * p) % 252))
    | .sitePin i s u =>
      let p := bandFld d i s.band (s.base + 2 * u) 2
      if p = 0 then n
      else wireRoot d fuel (.src i (s.cluster i ((u + p) % s.hs)).1 (s.cluster i ((u + p) % s.hs)).2 ((5 * u + 84 * p) % 252))
    | .seg i r c t x =>
      let drv := cluFld d i r c (2784 + 3 * (t * 15 + x)) 3
      let dd := t * 15 + x
      if drv = 0 then n
      else if drv = 1 then wireRoot d fuel (.src i r c (192 + t * 15 + x))
      else if drv = 2 then wireRoot d fuel (.src i r c (192 + leftOf t * 15 + (x + 5) % 15))
      else if drv = 3 then wireRoot d fuel (.src i r c (192 + rightOf t * 15 + (x + 10) % 15))
      else .src i r c (6 * ((dd + 8 * (drv - 4)) % 32) + dd % 6)
    | .src i r c s =>
      if s < 192 then n
      else
        let t := (s - 192) / 15
        let x := (s - 192) % 15
        match segStart d i r c t x with
        | none => n
        | some (j, r', c', boundary) => if !boundary && wireRegOn d i r c t x then n else wireRoot d fuel (.seg j r' c' t x)
    | _ => n

/-- Whether a transition can reach a CK pin: none reaches one that is tied to 0, and behind a wire register the level is the register's
after the clock that changed it (R119). -/
def ckEdge (d : Dev) (n : Net) (rising : Bool) : Bool :=
  match wireRoot d pathFuel n with
  | .pin .. => false
  | .sitePin .. => false
  | .seg i r c t x => (siteDriver d i r c t x).isSome
  | .src i r c s =>
    if s < 192 then true
    else match segStart d i r c ((s - 192) / 15) ((s - 192) % 15) with
      | none => false
      | some _ => decide (d.net n = rising)
  | _ => true

/-- The CK pin of a memory port, and whether both ports' pins hang on one wire (R126, R144). -/
def ckNet (i m : Nat) (portB : Bool) : Net := .sitePin i (.mem m) (if portB then 363 else 181)
/-- DEDUCED: log entry 132. -/
def oneWire (d : Dev) (i m : Nat) : Bool := wireRoot d pathFuel (ckNet i m false) = wireRoot d pathFuel (ckNet i m true)

/-! ### Configured places: only listed frames can hold a nonzero field -/

/-- Cluster rows of an island with a frame listed. -/
def configuredRows (d : Dev) (i : Nat) : List Nat :=
  ((d.frames.filter (fun e => e.1 / 4608 = i)).map (fun e => e.1 % 4608 / 48)).eraseDups

/-- One island clock of the wire registers in use: each captures its segment (R97). -/
def clockWiresOnce (d : Dev) (i : Nat) : Dev :=
  if (d.isl i).setup.fabricRoute then d
  else
    let new := (configuredRows d i).flatMap (fun r => (List.range 50).flatMap (fun c => (List.range 60).filterMap (fun k =>
      if wireRegOn d i r c (k / 15) (k % 15) then
        (segStart d i r c (k / 15) (k % 15)).map (fun s => (wireKey r c (k / 15) (k % 15), d.net (.seg s.1 s.2.1 s.2.2.1 (k / 15) (k % 15))))
      else none)))
    if new.isEmpty then d
    else d.updIsl i (fun x => { x with wireRegs := new.foldl (fun t e => tput t false e.1 e.2) x.wireRegs })

/-- n island clocks; once a clock changes no wire register, further ones change none. -/
def clockWires (d : Dev) (i : Nat) : Nat → Dev
  | 0 => d
  | n + 1 =>
    let d' := clockWiresOnce d i
    if (d'.isl i).wireRegs = (d.isl i).wireRegs then d' else clockWires d' i n

/-- Clear the wire registers (R98). -/
def clearWires (d : Dev) (i : Nat) : Dev := d.updIsl i (fun x => { x with wireRegs := [] })

end Sys2Proof.Machine
end

