-- ==== Sys2Proof/Machine/Crossing.lean ====
section
/-! DEFINITION. Crossing ports (R216 to R225, R230 to R233): configuration fields, arrival of words, acknowledgement and
credit, and the transport of each path. -/

namespace Sys2Proof.Machine

/-! ### Configuration (R216, R251) -/

def xiOff (off p : Nat) : Nat := off + 0x20 * p

structure PortCfg where
  en : Bool
  count : Nat
  lat : Nat
  path : Nat
  free : Bool
  peer : Nat
  node : Nat
  port : Nat
deriving DecidableEq, Repr

def cfgOf (cfg dest : Word) : PortCfg :=
  ⟨cfg.getLsbD 0, bitsOf cfg.toNat 1 3 + 1, bitsOf cfg.toNat 4 4, bitsOf cfg.toNat 8 3, cfg.getLsbD 11, bitsOf cfg.toNat 12 4,
    bitsOf dest.toNat 0 10, bitsOf dest.toNat 10 5⟩

def xiCfg (d : Dev) (i p : Nat) : PortCfg := cfgOf (d.reg i (xiOff R.XCH_XI_CFG p)) (d.reg i (xiOff R.XCH_XI_SRC p))
def xoCfg (d : Dev) (i p : Nat) : PortCfg := cfgOf (d.reg i (xiOff R.XCH_XO_CFG p)) (d.reg i (xiOff R.XCH_XO_DEST p))

/-- The bank of a pin port (R251). -/
def PortCfg.bank (c : PortCfg) : Nat := c.node % 32

def Dev.xi (d : Dev) (i p : Nat) : XiPort := tget (d.isl i).xi {} p
def Dev.setXi (d : Dev) (i p : Nat) (x : XiPort) : Dev := d.updIsl i (fun s => { s with xi := tput s.xi {} p x })
def Dev.xo (d : Dev) (i p : Nat) : XoPort := tget (d.isl i).xo {} p
def Dev.setXo (d : Dev) (i p : Nat) (x : XoPort) : Dev := d.updIsl i (fun s => { s with xo := tput s.xo {} p x })

/-- Ports of an island that satisfy a condition, lowest first. -/
def portsWith (c : Nat → Bool) : List Nat := (List.range 32).filter c

/-- Enabled stroke XI ports that wait for words, free XI ports, pin ports. -/
def strokeXi (d : Dev) (i : Nat) : List Nat := portsWith (fun p => let c := xiCfg d i p; c.en && !c.free && c.path ≠ 6)
def freeXi (d : Dev) (i : Nat) : List Nat := portsWith (fun p => let c := xiCfg d i p; c.en && c.free)
def pinXi (d : Dev) (i : Nat) : List Nat := portsWith (fun p => let c := xiCfg d i p; c.en && !c.free && c.path = 6)

/-- A path to an island that is IDLE, SLEEP or EVICTING carries nothing (R222). -/
def pathOpen (d : Dev) (i : Nat) : Bool := inIsland (d.isl i).state

/-! ### Acknowledgement and credit (R219, R220) -/

/-- An XI port returns acknowledgements and credits to its XO port. -/
def xiReturn (d : Dev) (i p acked credits : Nat) : Dev :=
  let c := xiCfg d i p
  if acked = 0 ∧ credits = 0 then d
  else if c.path ≤ 3 then (if pathOpen d c.node then d.emit (.nbrAck i c.node c.port acked credits) else d)
  else if c.path = 4 ∨ c.path = 5 then
    d.send i c.node 0x19 0 0 (d.owner i) 1 false (c.port + acked % 256 * 32 + credits % 256 * 8192) [] 0
  else d

/-- Acknowledgements and credits arrive at an XO port. -/
def xoReturn (d : Dev) (i p acked credits : Nat) : Dev :=
  if !(xoCfg d i p).en then d
  else
    let x := d.xo i p
    d.setXo i p { x with undel := x.undel - acked, outst := x.outst - credits }

/-! ### Arrival (R218, R233) -/

/-- Discard n words at an XI port: count field and event bit. -/
def xiDiscard (d : Dev) (i p n lo w b cls : Nat) : Dev :=
  let d := d.countFld i (xiOff R.XCH_XI_DISCARDS p) lo w n
  d.sticky i cls 7 b R.XCH_EVENTS

/-- A word with an unexpected tag, or for a port not enabled: seq_error in both event registers. DEDUCED: log entry 38. -/
def xiSequence (d : Dev) (i p n : Nat) : Dev := (xiDiscard d i p n 24 8 2 5).islEvent i 1 5 2 4 R.STK_EVENTS

def xiDenied (d : Dev) (i p n : Nat) : Dev :=
  ((xiDiscard d i p n 0 16 0 2).orReg i R.XCH_DENIED_PORTS (bit p)).cause i 7

/-- Words of one tag arriving at an XI port; `stale` where their epoch is. -/
def xiArrive (d : Dev) (i p tenant tag : Nat) (free stale : Bool) (ws : List W128) : Dev :=
  let c := xiCfg d i p
  let x := d.xi i p
  let n := ws.length
  if !pathOpen d i then d
  else if !c.en then xiSequence d i p n
  else if c.peer ≠ tenant then xiDenied d i p n
  else if stale then xiDiscard d i p n 16 8 1 2
  else if c.free ≠ free then xiSequence d i p n
  else if c.free then
    if (d.isl i).replay.isSome then xiReturn (d.setXi i p { x with owed := x.owed + n }) i p n 0
    else xiReturn (d.setXi i p { x with buf := x.buf ++ ws.map (fun w => (0, w)) }) i p n 0
  else if tag ≠ x.expect % 65536 ∨ c.count < x.got + n then xiSequence d i p n
  else
    let full := x.got + n = c.count
    xiReturn (d.setXi i p { x with buf := x.buf ++ ws.map (fun w => (x.expect, w)), got := if full then 0 else x.got + n,
                                   expect := if full then x.expect + 1 else x.expect }) i p n 0

/-! ### Sending (R221) -/

/-- Whether an XO port names the tenant of the island it feeds: between islands of different principals both set-ups must name the
channel, or it carries nothing (R54). -/
def namesPeer (d : Dev) (i p node : Nat) : Bool :=
  d.owner i = d.owner node || (d.isl i).setup.xoPeers.getD p 0 = d.owner node

/-- Words of an XO port leave for consumer stroke `cons`. DEDUCED: log entry 38. -/
def xoSend (d : Dev) (i p cons : Nat) (ws : List W128) : Dev :=
  let c := xoCfg d i p
  let x := d.xo i p
  if ws.isEmpty then d
  else
    let d := (d.setXo i p { x with undel := x.undel + ws.length, toSend := [] }).setReg i (xiOff R.XCH_XO_WORDS p)
      (d.reg i (xiOff R.XCH_XO_WORDS p) + BitVec.ofNat 32 ws.length)
    if c.path ≤ 4 && !namesPeer d i p c.node then d
    else if c.path ≤ 3 then
      if pathOpen d c.node then
        ws.foldl (fun (d : Dev) w =>
          d.emit (.nbrWord i c.node c.port (d.owner i) (d.epoch i) (if c.free then 0 else cons % 65536) c.free w)) d
      else d
    else if c.path = 4 ∨ c.path = 5 then
      d.send i c.node 0x18 0 0 (d.owner i) 1 false
        (c.port + (if c.free then 0 else cons % 65536) * 32 + (if c.free then 2 ^ 21 else 0)) ws ws.length
    else d

def enabledXo (d : Dev) (i : Nat) : List Nat := portsWith (fun p => (xoCfg d i p).en)

/-- XO ports that lack credit for the words sampled (R219, R233). -/
def xoBlocked (d : Dev) (i : Nat) : List Nat :=
  (enabledXo d i).filter (fun p =>
    let c := xoCfg d i p
    !(c.path = 6 && !c.free) && decide ((if c.free then 80 else c.count * (c.lat + 2)) < (d.xo i p).outst))

/-- Step 4: once every XO port has credit, the words sampled are sent (R212, R219). -/
def sendSampled (d : Dev) (i : Nat) : Dev :=
  if strokeMode d i && (d.isl i).phase = 3 && (xoBlocked d i).isEmpty then
    (enabledXo d i).foldl (fun (d : Dev) p => xoSend d i p ((d.isl i).count.toNat + (xoCfg d i p).lat) (d.xo i p).toSend) d
  else d

/-- A joined-mode end of a free channel sends what its FIFO holds while the peer's buffer of 80 has room (R219, R233). -/
def freeDrain (d : Dev) (i p : Nat) : Dev :=
  let x := d.xo i p
  let ws := x.fifo.take (80 - x.outst)
  if (d.isl i).setup.groupId = 0 || !(xoCfg d i p).free then d
  else xoSend (d.setXo i p { x with fifo := x.fifo.drop ws.length, outst := x.outst + ws.length }) i p 0 ws

/-- Acknowledgements and credits arrive, and may let the words of a stroke, or a free channel's FIFO, be sent. -/
def xoCredit (d : Dev) (i p acked credits : Nat) : Dev := sendSampled (freeDrain (xoReturn d i p acked credits) i p) i

end Sys2Proof.Machine
end

