-- ==== Sys2Proof/Machine/Edges.lean ====
section
/-! DEFINITION. What a clock edge does to an island's design: flip-flops, block memory ports and slices (R77 to R81, R127 to
R130, R171 to R175), and the rows a stroke's writes will address (R259). Every unit reads the state as it stood before the
edge. -/

namespace Sys2Proof.Machine

/-- Which cluster clock lines have an active edge: the design or group clocks by number, and whether the edge is rising. -/
structure EdgeSet where
  clocks : BitVec 16
  rising : Bool := true
  joined : Bool := false
deriving DecidableEq, Repr

/-- The clock selected by cluster clock line n of a cluster (R79). -/
def clsel (d : Dev) (i r c n : Nat) : Nat := cluFld d i r c (2768 + 4 * n) 4

def EdgeSet.line (x : EdgeSet) (d : Dev) (i r c n : Nat) : Bool := x.clocks.getLsbD (clsel d i r c n)

/-! ### Flip-flops -/

/-- The SR and CE pins of a pair and a cell (R100). -/
def srNet (d : Dev) (i r c p : Nat) : Bool := d.net (.pin i r c ((2 * p + 1) * 12 + 11))
def ceNet (d : Dev) (i r c k : Nat) : Bool := d.net (.pin i r c (k * 12 + 10))

/-- D of FFf of cell k (R77). -/
def ffData (d : Dev) (i r c k f : Nat) : Bool :=
  match cellFld d i r c k (74 + 2 * f) 2 with
  | 0 => d.net (.src i r c (6 * k + f))
  | 1 => d.net (.src i r c (6 * k + 2 + f))
  | 2 => d.net (.pin i r c (k * 12 + 6 + f))
  | _ => d.net (.pin i r c (k * 12 + 8 + f))

def srval (d : Dev) (i r c k f : Nat) : Bool := cellFld d i r c k (81 + f) 1 = 1
def initVal (d : Dev) (i r c k f : Nat) : Bool := cellFld d i r c k (79 + f) 1 = 1

/-- What an active edge gives a flip-flop (R80); none where it keeps its value. -/
def ffEdge (d : Dev) (i r c k f : Nat) : Option Bool :=
  if pairFld d i r c (k / 2) 5 2 = 1 && srNet d i r c (k / 2) then some (srval d i r c k f)
  else if cellFld d i r c k 78 1 = 1 && !ceNet d i r c k then none
  else some (ffData d i r c k f)

/-- The next value of a flip-flop at a set of edges: an asynchronous SR sampled at step 4 (stroke mode) or asserted now
(joined mode) prevails (R81). -/
def ffNext (d : Dev) (i r c k f : Nat) (x : EdgeSet) : Option Bool :=
  let p := k / 2
  let src := pairFld d i r c p 0 2
  let async := pairFld d i r c p 5 2 = 2
  if async && (if x.joined then srNet d i r c p else (d.isl i).srSet.contains ((r * 50 + c) * 16 + p)) then some (srval d i r c k f)
  else if src = 1 && x.line d i r c (pairFld d i r c p 2 2) && (!x.joined || x.rising = (pairFld d i r c p 4 1 = 0)) then ffEdge d i r c k f
  else none

/-- The new bits of a cluster's flip-flops: (bit 2k + f, value). -/
def cluEdge (d : Dev) (i r c : Nat) (x : EdgeSet) : List (Nat × Bool) :=
  (List.range 64).filterMap (fun b => (ffNext d i r c (b / 2) (b % 2) x).map (fun v => (b, v)))

/-- Put bits into a cluster's flip-flops; every node of a written flip-flop is written (R86). -/
def setFfBits (d : Dev) (i clu : Nat) (l : List (Nat × Bool)) : Dev :=
  let w := l.foldl (fun (w : W64) e => if e.2 then w ||| BitVec.ofNat 64 (2 ^ e.1) else w &&& ~~~BitVec.ofNat 64 (2 ^ e.1)) (d.ff i clu)
  { (d.setFf i clu w) with ffUpset := d.ffUpset.filter (fun k => !(k / 64 = i * 4800 + clu && l.any (fun e => e.1 = k % 64))) }

/-- Capture bits into a cluster's flip-flops at an edge: one before which a transient stands takes a free value (R87). -/
def captureFfs (d : Dev) (i clu : Nat) (l : List (Nat × Bool)) : Dev :=
  let hit (b : Nat) : Bool := d.transients.contains ((i * 4800 + clu) * 64 + b)
  if l.any (fun e => hit e.1) then
    setFfBits { d with free := d.free + 1 } i clu (l.map (fun e => if hit e.1 then (e.1, Config.freeBit d.free e.1) else e))
  else setFfBits d i clu l

/-- The transients of an island's clusters are gone once the edge has passed. -/
def transientsEnd (d : Dev) (i : Nat) : Dev := { d with transients := d.transients.filter (fun k => !(k / 64 / 4800 = i)) }

/-! ### Block memory ports and slices -/

/-- The pins of a memory port (R126). -/
def portPins (d : Dev) (i m : Nat) (portB : Bool) : PortPins :=
  let s := Site.mem m
  let o := if portB then 182 else 0
  ⟨sitePins d i s o 16, BitVec.ofNat 144 (sitePins d i s (o + 16) 144), sitePins d i s (o + 160) 18,
    d.net (.sitePin i s (o + 178)), d.net (.sitePin i s (o + 179)), d.net (.sitePin i s (o + 180))⟩

/-- Whether a memory port or slice on a cluster clock line has an edge: the west cluster at the site's lowest row (R127). -/
def memLine (d : Dev) (i m : Nat) (b : Bram) (portB : Bool) (x : EdgeSet) : Bool :=
  b.ckmode portB = 1 && x.rising && x.line d i (4 * (m % 24)) (memCol (m / 24)) (b.clkline portB)

/-- The pins of a slice (R164). -/
def slicePins (d : Dev) (i a : Nat) : SlicePins :=
  let s := Site.slice a
  ⟨BitVec.ofNat 36 (sitePins d i s 0 36), BitVec.ofNat 36 (sitePins d i s 36 36), BitVec.ofNat 36 (sitePins d i s 72 36),
    BitVec.ofNat 64 (sitePins d i s 108 64), BitVec.ofNat 16 (sitePins d i s 174 16), d.net (.sitePin i s 172), d.net (.sitePin i s 173)⟩

def sliceLine (d : Dev) (i a : Nat) (s : Slice) (x : EdgeSet) : Bool :=
  s.ckmode = 1 && x.rising && x.line d i (4 * (a % 24)) (sliceCol (a / 24)) s.clkline

/-- PCIN of a slice: the accumulator of the slice below, 0 at row 0 (R164, R171). -/
def pcinOf (d : Dev) (i a : Nat) : BitVec 128 := if a % 24 = 0 then 0 else (d.slice (i * 48 + a - 1)).acc

/-- The slices of an island that are listed. -/
def listedSlices (d : Dev) (i : Nat) : List Nat := (d.slices.filter (fun e => e.1 / 48 = i)).map (fun e => e.1 % 48)

/-- Sticky bits of ARS_STATUS; a slice overflow raises source k = 5 (R206). DEDUCED: log entry 27. -/
def sliceStatus (d : Dev) (i a : Nat) (v : Word) : Dev :=
  if v = 0 then d
  else
    let o := R.ARS_STATUS + a * 0x40
    let d := d.orReg i o v
    let d := if v.getLsbD 0 || v.getLsbD 4 then d.cause i 5 else d
    (List.range 5).foldl (fun (d : Dev) b => if v.getLsbD b then d.event i 5 6 b o else d) d

/-- The edges of the memory ports of an island that are on the given lines, with their pins. -/
def memEdges (d : Dev) (i : Nat) (x : EdgeSet) : List (Nat × Option PortPins × Option PortPins) :=
  (listedMems d i).filterMap (fun m =>
    let b := d.bram (i * 96 + m)
    let ea := memLine d i m b false x
    let eb := memLine d i m b true x && !b.isRing
    if b.use ≠ 0 && (ea || eb) then some (m, (if ea then some (portPins d i m false) else none), (if eb then some (portPins d i m true) else none))
    else none)

/-- Every unit of an island on the given clock lines takes its edge, each from the state `b` before it. -/
def islandEdgeFrom (b d : Dev) (i : Nat) (x : EdgeSet) : Dev :=
  let clus := (configuredRows b i).flatMap (fun r => (List.range 50).map (fun c => (r * 50 + c, cluEdge b i r c x)))
  let mems := memEdges b i x
  let slices := (listedSlices b i).filterMap (fun a =>
    let s := b.slice (i * 48 + a)
    if s.inUse && sliceLine b i a s x then some (a, sliceEdge s (slicePins b i a) (pcinOf b i a)) else none)
  let d := transientsEnd (clus.foldl (fun (d : Dev) e => if e.2.isEmpty then d else captureFfs d i e.1 e.2) d) i
  let d := mems.foldl (fun (d : Dev) e => memEdge d i e.1 e.2.1 e.2.2) d
  slices.foldl (fun (d : Dev) e => sliceStatus (d.setSlice (i * 48 + e.1) e.2.1) i e.1 e.2.2) d

def islandEdge (d : Dev) (i : Nat) (x : EdgeSet) : Dev := islandEdgeFrom d d i x

/-! ### Rows a set of edges will write (R259) -/

def rowsWritten (d : Dev) (i m : Nat) (pa pb : Option PortPins) : List Nat :=
  let b := d.bram (i * 96 + m)
  if b.use = 1 then
    let one (p : Option PortPins) (code : Nat) : List Nat :=
      match p with
      | some q => if q.en && q.we then [wordRow code (q.addr % depthOf code)] else []
      | none => []
    one pa (b.widthCode false) ++ one pb (b.widthCode true)
  else if pa.any (·.we) && !b.fullF && !b.toFabric then [wordRow (if b.isRing then 7 else b.widthCode false) (b.wr % b.qdepth)]
  else []

/-- Distinct undrained rows that the writes of these edges will address, as memory × 512 + row. -/
def undrainedWrites (d : Dev) (i : Nat) (x : EdgeSet) : List Nat :=
  ((memEdges d i x).flatMap (fun e => ((rowsWritten d i e.1 e.2.1 e.2.2).filter (fun r => undrained d i e.1 r)).map (fun r => e.1 * 512 + r))).eraseDups

/-- The design clocks that have an edge in stroke n (R228). -/
def designClocks (d : Dev) (i : Nat) (n : Nat) : EdgeSet :=
  { clocks := BitVec.ofNat 16 ((List.range 16).foldl (fun a k =>
      let w := d.reg i (R.STK_DCLK + 4 * k)
      if d.flag i R.STK_DCLK_EN k && n % (bitsOf w.toNat 0 16 + 1) = bitsOf w.toNat 16 16 then a + 2 ^ k else a) 0) }

/-- Pairs whose asynchronous SR is asserted now (R81). -/
def asyncPairs (d : Dev) (i : Nat) : List Nat :=
  (configuredRows d i).flatMap (fun r => (List.range 50).flatMap (fun c => (List.range 16).filterMap (fun p =>
    if pairFld d i r c p 5 2 = 2 && srNet d i r c p then some ((r * 50 + c) * 16 + p) else none)))

/-! ### Debug accesses to an array whose port B is in use (R141 to R143) -/

/-- go in MEM_DBG_CTL: ignored while done = 0 (R162); UNIT_TEST for a memory out of service (R160). The access is served at
once, or in a free cycle of port B. -/
def dbgGo (d : Dev) (i m : Nat) : Dev :=
  if !d.flag i (dbgOff m) 12 then d
  else
    let d := d.setFld i (dbgOff m) 12 1 0
    let d := d.setBram (i * 96 + m) { (d.bram (i * 96 + m)) with dbgBusy := true }
    if portBClocked d i m && !(d.bram (i * 96 + m)).outOfService then d else dbgServe (writeBacks d i m) i m

/-- EN of port B. -/
def enB (b : Dev) (i m : Nat) : Bool := b.net (.sitePin i (.mem m) (182 + 179))

/-- An edge of port B with EN = 0 is such a cycle. DEDUCED: log entry 29. -/
def dbgSteal (b d : Dev) (i m : Nat) : Dev := if enB b i m then d else stealOne d i m id

/-- A device agent of port B takes its turn: in a running joined island one cycle with EN = 0, which the first pending agent takes;
elsewhere the higher agents have gone before it (R139 to R142). DEDUCED: log entry 131. -/
def portBTurn (d : Dev) (i m : Nat) (act : Dev → Dev) : Dev :=
  if portBClocked d i m then (if enB d i m then d else stealOne d i m act) else act (dbgRetry (writeBacks d i m) i m)

/-- MEM_PATROL_READ and ECC_WRITE_BACK. -/
def patrolTurn (d : Dev) (i m : Nat) : Dev := portBTurn d i m (fun d => patrolRead d i m)
def writeBackTurn (d : Dev) (i m w : Nat) : Dev := if portBClocked d i m && enB d i m then d else eccWriteBack d i m w

end Sys2Proof.Machine
end

