-- ==== Sys2Proof/Machine/Trigger.lean ====
section
/-! DEFINITION. Probe ports, comparators and the trigger unit of an island (R569 to R572). -/

namespace Sys2Proof.Machine

/-- Nothing is configured in an island: every site pin reads 0. -/
def unconfigured (d : Dev) (i : Nat) : Bool := d.frames.all (fun e => e.1 / 4608 ≠ i)

/-- The samples of the eight probe ports (R569). -/
def probeSamples (d : Dev) (i : Nat) : Tab W128 :=
  if unconfigured d i then []
  else (List.range 8).foldl (fun t k => tput t 0 k (BitVec.ofNat 128 (sitePins d i (.probe k) 0 128))) []

/-- Whether comparator c matches sample P after previous sample P' (R570). -/
def cmpMatch (d : Dev) (i c : Nat) (now before : Tab W128) : Bool :=
  let o := 0x40 * c
  let cfg := (d.reg i (R.DBG_CMP_CFG + o)).toNat
  let v := d.reg128 i (R.DBG_CMP_VAL + o)
  let m := d.reg128 i (R.DBG_CMP_MASK + o)
  let p := tget now 0 (cfg % 8)
  let p' := tget before 0 (cfg % 8)
  cfg.testBit 6 &&
    (match bitsOf cfg 3 3 with
     | 0 => (p &&& m) = (v &&& m)
     | 1 => (p &&& m) ≠ (v &&& m)
     | 2 => decide ((v &&& m).toNat < (p &&& m).toNat)
     | 3 => decide ((p &&& m).toNat < (v &&& m).toNat)
     | 4 => ((p ^^^ p') &&& m) ≠ 0
     | 5 => (p &&& ~~~p' &&& m) ≠ 0
     | _ => false)

/-- A term: its mask is not empty and every comparator in it matches. -/
def termTrue (mask hits : Nat) : Bool := mask ≠ 0 && (List.range 8).all (fun c => !mask.testBit c || hits.testBit c)

/-! ### Cross-triggers (R572) -/

def xtrgOff (t : Nat) : Nat := dbgArea R.DBG_XTRG_STATUS t

/-- The end of a cross-trigger: status and N recorded, with a debug-class event. DEDUCED: log entry 51. -/
def xtrgDone (d : Dev) (t : Nat) (st : Status) (n : W64) : Dev :=
  let d := (d.setReg 0x143 (xtrgOff t) (BitVec.ofNat 32 (2 * st.code))).setReg64 0x143 (dbgArea R.DBG_XTRG_N t) n
  d.eventP 0x143 0 11 23 63 t (d.reg 0x143 (xtrgOff t)) 0 0 0

/-- Start the region feather of a cross-trigger; it waits for a region command in progress on any of its islands. -/
def xtrgStart (d : Dev) (t : Nat) : Dev :=
  let isls := xtrgIslands d t
  let d := d.setReg 0x143 (xtrgOff t) (d.reg 0x143 (xtrgOff t) ||| 1)
  if d.regions.any (fun c => c.ended.isNone && c.islands.any (fun i => isls.contains i)) then
    { d with xtrgWait := if d.xtrgWait.contains t then d.xtrgWait else d.xtrgWait ++ [t] }
  else
    match regionRefused d t isls with
    | some st => xtrgDone d t st 0
    | none => regionStart d .feather t isls 0 (.xtrigger t) false

/-! ### The trigger unit (R571) -/

/-- The actions of a hit (R572). -/
def triggerActions (d : Dev) (i : Nat) (n : W64) : Dev :=
  let a := (d.reg i R.DBG_TRG_ACTION).toNat
  let t := d.owner i
  let stop := a % 4
  let d := if stop = 1 ∨ stop = 2 then
      (if strokeMode d i then
        let lim := d.reg64 i R.STK_LIMIT
        d.setReg64 i R.STK_LIMIT (if n + 1 < lim then n + 1 else lim)
      else gateGroup d (d.isl i).setup.groupId true)
    else d
  let d := if stop = 2 then xtrgStart d t else d
  let d := if a.testBit 2 then haltEngine (haltEngine d (2 * i) 1) (2 * i + 1) 1 else d
  let d := if a.testBit 3 then debugHalt d t 2 else d
  if a.testBit 4 then d.cause i 5 else d

/-- One sample of the probe ports; the armed unit evaluates it. `n` is the stroke of the sample. DEDUCED: log entry 106. -/
def triggerSample (d : Dev) (i : Nat) (n : W64) : Dev :=
  let x := d.isl i
  let now := probeSamples d i
  if !x.armed then d.updIsl i (fun x => { x with probe := now })
  else
    let before := if x.trgSamples = 0 then now else x.probe
    let hits := (List.range 8).foldl (fun a c => a + if cmpMatch d i c now before then 2 ^ c else 0) 0
    let cond := (d.reg i R.DBG_TRG_COND).toNat
    let a := termTrue (bitsOf cond 0 8) hits
    let b := termTrue (bitsOf cond 8 8) hits
    let c := match bitsOf cond 16 2 with
      | 0 => a | 1 => a || b | 2 => a && b | _ => b && x.trgA
    let need := if c then x.trgNeed - 1 else x.trgNeed
    let hit := c && need = 0
    let d := d.updIsl i (fun x => { x with
      probe := now, trgSamples := x.trgSamples + 1, trgA := x.trgA || a, trgNeed := need, armed := !hit })
    let d := (d.setFld i R.DBG_TRG_STATUS 0 8 hits).setFld i R.DBG_TRG_COUNT 16 16 need
    if !hit then d
    else
      let d := (d.setFld i R.DBG_TRG_STATUS 9 1 0).sticky i 11 24 8 R.DBG_TRG_STATUS
      let d := d.setReg64 i R.DBG_TRG_STROKE (if strokeMode d i then n else BitVec.ofNat 64 (x.trgSamples + 1))
      let d := d.setReg128 i R.DBG_TRG_CAPT (tget now 0 (bitsOf (d.reg i R.DBG_TRG_ACTION).toNat 5 3))
      triggerActions d i n

/-- The trigger is disarmed; its registers keep their values (R577, R578). -/
def trgDisarm (d : Dev) (i : Nat) : Dev :=
  (d.updIsl i (fun x => { x with armed := false })).setFld i R.DBG_TRG_STATUS 9 1 0

/-- A write of DBG_TRG_CTL: arm clears hit and reloads the match count; disarm; both bits BAD_STATE (R578). -/
def trgCtlWriter (d : Dev) (i v : Nat) : Dev × Status :=
  if v % 4 = 3 then (d, .badState)
  else if v % 4 = 1 then
    let need := d.fld i R.DBG_TRG_COUNT 0 16 + 1
    let d := d.updIsl i (fun x => { x with armed := true, trgSamples := 0, trgA := false, trgNeed := need })
    ((((d.setFld i R.DBG_TRG_STATUS 8 1 0).setFld i R.DBG_TRG_STATUS 9 1 1).setFld i R.DBG_TRG_COUNT 16 16 need), .ok)
  else if v % 4 = 2 then
    (trgDisarm d i, .ok)
  else (d, .ok)

end Sys2Proof.Machine
end

