-- ==== Sys2Proof/Machine/Stroke.lean ====
section
/-! DEFINITION. One stroke of an island (R211 to R215, R228 to R235), its input log and replay at stroke boundaries (R154,
R272 to R277), and the writes that stop, release and start an island (R236, R237, R240). -/

namespace Sys2Proof.Machine

/-! ### Step 1: what the island waits for -/

/-- Whether an XI port holds its words for stroke n (R217). -/
def xiReady (d : Dev) (i p n : Nat) : Bool :=
  let c := xiCfg d i p
  let l := (d.xi i p).buf.take c.count
  l.length = c.count && l.all (fun e => e.1 = n)

def xiLacking (d : Dev) (i : Nat) : List Nat :=
  let n := (d.isl i).count.toNat
  (strokeXi d i).filter (fun p => !xiReady d i p n)

/-- A replaying island lacks log coverage for the stroke it would start (R276). -/
def lacksCoverage (d : Dev) (i : Nat) : Bool :=
  let x := d.isl i
  match x.replay with
  | some rp => !(rp.fin ≤ x.count) && rp.covered ≤ x.count.toNat
  | none => false

/-! ### Replay (R154, R276, R277) -/

/-- A replaying island feathers at the stroke it would start next, with a CAT event; FEATHERED already, it is at its limit (R277). -/
def replayStop (d : Dev) (i b : Nat) : Dev :=
  let n := (d.isl i).count + (if midStroke d i then 1 else 0)
  let lim := d.reg64 i R.STK_LIMIT
  let d := d.setReg64 i R.STK_LIMIT (if n < lim then n else lim)
  let d := d.islEvent i 2 6 3 b R.CAT_EVENTS
  if (d.isl i).state = .feathered then d.updIsl i (fun x => { x with atLimit := true })
  else if midStroke d i then d
  else regionAdvance (featherNow d i)

/-- Rings of an island, and their release mode (R154). -/
def rings (d : Dev) (i : Nat) : List Nat := (listedMems d i).filter (fun m => (d.bram (i * 96 + m)).isRing)
def replayMode (d : Dev) (i m : Nat) : Bool := d.flag i (R.QCT_CTL + m * 0x40) 11

/-- Live inputs again; the staging entries appended in replay are discarded (R308). -/
def replayOff (d : Dev) (i : Nat) : Dev :=
  let d := d.updIsl i (fun x => { x with
    replay := none, logWait := false, ps0 := { x.ps0 with staging := [] }, ps1 := { x.ps1 with staging := [] } })
  (rings d i).foldl (fun (d : Dev) m => d.setFld i (R.QCT_CTL + m * 0x40) 11 1 0) d

/-- Take n entries off the front of the written pushes. -/
def dropPushed : List Push → Nat → List Push
  | [], _ => []
  | q :: r, n => if n = 0 then q :: r else if q.n ≤ n then dropPushed r (n - q.n) else { q with n := q.n - n, written := q.written - n } :: r

/-- The content of the next n pending entries of a ring to fabric, in order. -/
def pendingWords (d : Dev) (i m n : Nat) : List W128 :=
  let k := i * 96 + m
  let b := d.bram k
  (List.range n).map (fun j => (decodeRow b.ecc (d.row k ((b.rd + b.level + j) % 512))).1.setWidth 128)

/-- One record of the stroke that begins, for a ring: taken, waiting, or diverged. -/
inductive RecResult where
  | taken | waits | diverged
deriving DecidableEq, Repr

/-- DEDUCED: log entry 40. -/
def replayRing (d : Dev) (i : Nat) (r : LogRec) : Dev × RecResult :=
  let m := r.src
  let k := i * 96 + m
  let b := d.bram k
  let n := bitsOf r.param.toNat 0 16
  if r.typ = 4 then
    if (b.pushes.map (·.written)).sum < n then (d, .waits)
    else if crc32c (pendingWords d i m n) ≠ r.param.extractLsb' 32 32 then (d, .diverged)
    else (releaseEntries (d.setBram k { b with pushes := dropPushed b.pushes n }) i m n, .taken)
  else
    if n ≤ b.freed then (ringFlags (d.setBram k { b with freed := b.freed - n }) i m, .taken)
    else if n ≤ b.freed + b.level then (d, .waits) else (d, .diverged)

/-- Ring records of the stroke in log order; stops at one that waits or diverges. -/
def replayRings (d : Dev) (i : Nat) : List LogRec → List LogRec → Dev × List LogRec × RecResult
  | [], kept => (d, kept, .taken)
  | r :: rest, kept =>
    if (r.typ = 4 ∨ r.typ = 5) ∧ r.stroke = (d.isl i).count.toNat ∧ replayMode d i r.src then
      match replayRing d i r with
      | (d', .taken) => replayRings d' i rest kept
      | (d', x) => (d', kept ++ r :: rest, x)
    else replayRings d i rest (kept ++ [r])

/-- The release of a push at a live boundary: its record, then its entries (R154, R273). -/
def releasePush (d : Dev) (i m n : Nat) : Dev :=
  let k := i * 96 + m
  let b := d.bram k
  match b.pushes with
  | q :: rest =>
    let crc := crc32c (pendingWords d i m q.n)
    let d := logRecord d i 4 m n (BitVec.ofNat 128 (q.n + crc.toNat * 2 ^ 32)) []
    releaseEntries (d.setBram k { b with pushes := rest }) i m q.n
  | [] => d

/-- Ring effects at the boundary into stroke n, live: every push already written, and space freed. -/
def ringBoundary (d : Dev) (i n m : Nat) : Dev :=
  let k := i * 96 + m
  let b := d.bram k
  if replayMode d i m then d
  else
    let ready := (b.pushes.takeWhile (fun q => q.written = q.n)).length
    let d := (List.range ready).foldl (fun (d : Dev) _ => releasePush d i m n) d
    let b := d.bram k
    if b.fromFabric && 0 < b.freed then
      let d := logRecord d i 5 m n (BitVec.ofNat 128 b.freed) []
      ringFlags (d.setBram k { b with freed := 0 }) i m
    else d

/-- The boundary into replay_end, E: live inputs again, the ring effects of this boundary among them (R276). -/
def replayEnd (d : Dev) (i : Nat) : Dev :=
  (rings d i).foldl (fun (d : Dev) m => ringBoundary d i (d.isl i).count.toNat m) (replayOff d i)

/-! ### Step 2 -/

/-- Records of a type and source for stroke n, and the rest. -/
def takeRecs (d : Dev) (i typ : Nat) (n : Nat) (src : Nat → Bool) : Dev × List LogRec :=
  match (d.isl i).replay with
  | none => (d, [])
  | some rp =>
    let hit (r : LogRec) : Bool := r.typ = typ && r.stroke = n && src r.src
    (d.updIsl i (fun x => { x with replay := some { rp with recs := rp.recs.filter (fun r => !hit r) } }), rp.recs.filter hit)

/-- Words onto the design side of a port set: entry words appear on consecutive ports (R307). -/
def downOf (l : List (Nat × List W128)) : Tab W128 × BitVec 16 :=
  (l.flatMap (fun e => e.2.zipIdx.map (fun w => (e.1 + w.2, w.1)))).foldl
    (fun acc w => (tput acc.1 0 w.1 w.2, acc.2 ||| BitVec.ofNat 16 (2 ^ w.1))) ([], 0)

/-- The head staging entry of port set j moves, with its ENGINE records; in replay the records supply the words (R307, R308). -/
def moveEntry (d : Dev) (i j n : Nat) : Dev :=
  let upd (d : Dev) (f : PortSet → PortSet) : Dev := d.updIsl i (fun x => if j = 0 then { x with ps0 := f x.ps0 } else { x with ps1 := f x.ps1 })
  let put (d : Dev) (l : List (Nat × List W128)) : Dev := upd d (fun q => { q with down := (downOf l).1, downValid := (downOf l).2 })
  if (d.isl i).replay.isSome then
    let (d, recs) := takeRecs d i 6 n (fun s => s / 256 % 2 = j)
    put (upd d (fun q => { q with staging := [] })) (recs.map (fun r => (r.src % 16, r.payload)))
  else
    match (portSet (d.isl i) j).staging with
    | [] => put d []
    | (p, ws) :: rest =>
      let d := put (upd d (fun q => { q with staging := rest })) [(p, ws)]
      let d := logRecord d i 6 (256 * j + p) n (BitVec.ofNat 128 (min ws.length 8)) (ws.take 8)
      if 8 < ws.length then logRecord d i 6 (256 * j + (p + 8) % 16) n (BitVec.ofNat 128 (ws.length - 8)) (ws.drop 8) else d

/-- A stroke XI port presents its words and returns their credit (R217, R219). DESIGN CHOICE: the spec attaches no routing to XI ports, so
the words stand in the port, where XCH_PEEK and a catch read them, and no net reads them. DESIGN CHOICE: log entry 135. -/
def presentXi (d : Dev) (i n p : Nat) : Dev :=
  let c := xiCfg d i p
  let x := d.xi i p
  let d := d.setXi i p { x with buf := x.buf.drop c.count, shown := (x.buf.take c.count).map (·.2), valid := 0 }
  let d := d.setReg i (xiOff R.XCH_XI_WORDS p) (d.reg i (xiOff R.XCH_XI_WORDS p) + BitVec.ofNat 32 c.count)
  xiReturn d i p 0 (if n < x.preUntil then 0 else c.count)

/-- A pin port samples its bank, or takes the logged sample (R230, R273). DEDUCED: log entry 37. -/
def samplePin (d : Dev) (i n p : Nat) : Dev :=
  let bank := (xiCfg d i p).bank
  let x := d.isl i
  let last := tget x.log.lastPin 0 bank
  let (d, recs) := takeRecs d i 2 n (fun s => s = bank)
  let v : BitVec 48 := if x.replay.isSome then (match recs with | r :: _ => r.param.setWidth 48 | [] => last) else tget d.pinLevels 0 bank
  let d := if x.replay.isNone && (x.log.forcePin || v ≠ last) then logRecord d i 2 bank n (v.setWidth 128) [] else d
  let d := d.updIsl i (fun x => { x with log := { x.log with lastPin := tput x.log.lastPin 0 bank v } })
  let q := d.xi i p
  (d.setXi i p { q with shown := [v.setWidth 128] }).setReg i (xiOff R.XCH_XI_WORDS p) (d.reg i (xiOff R.XCH_XI_WORDS p) + 1)

/-- A free XI port takes up to count words that have arrived (R233). DEDUCED: log entry 37. -/
def takeFree (d : Dev) (i n p : Nat) : Dev :=
  let c := xiCfg d i p
  let x := d.xi i p
  if (d.isl i).replay.isSome then
    let (d, recs) := takeRecs d i 3 n (fun s => s = p)
    let (shown, valid) := match recs with
      | r :: _ => (r.payload, r.param.setWidth 8)
      | [] => ([], 0)
    let d := d.setXi i p { x with shown := shown, valid := valid, owed := 0 }
    let d := d.setReg i (xiOff R.XCH_XI_WORDS p) (d.reg i (xiOff R.XCH_XI_WORDS p) + BitVec.ofNat 32 shown.length)
    xiReturn d i p 0 x.owed
  else
    let ws := (x.buf.take c.count).map (·.2)
    let valid : BitVec 8 := BitVec.ofNat 8 (2 ^ ws.length - 1)
    let d := d.setXi i p { x with buf := x.buf.drop c.count, shown := ws, valid := valid, owed := 0 }
    let d := d.setReg i (xiOff R.XCH_XI_WORDS p) (d.reg i (xiOff R.XCH_XI_WORDS p) + BitVec.ofNat 32 ws.length)
    let d := if ws.isEmpty then d else logRecord d i 3 p n (valid.setWidth 128) ws
    xiReturn d i p 0 (ws.length + x.owed)

/-- Input levels at the banks' pins, as the environment sets them; held while boundary scan disconnects the core (R561). -/
def setPins (d : Dev) (pins : List (Nat × BitVec 48)) : Dev :=
  if bscanActive d then d else { d with pinLevels := pins.foldl (fun t e => tput t 0 (e.1 % 30) e.2) d.pinLevels }

/-- Step 2 of stroke n: engine words, XI words, pin samples, free words; the settle count starts. -/
def presentAll (d : Dev) (i : Nat) : Dev :=
  let n := (d.isl i).count.toNat
  let d := moveEntry (moveEntry d i 0 n) i 1 n
  let d := (strokeXi d i).foldl (fun (d : Dev) p => presentXi d i n p) d
  let pins := pinXi d i
  let d := pins.foldl (fun (d : Dev) p => samplePin d i n p) d
  let d := if pins.isEmpty then d else d.updIsl i (fun x => { x with log := { x.log with forcePin := false } })
  let d := (freeXi d i).foldl (fun (d : Dev) p => takeFree d i n p) d
  let mon := d.flag i R.STK_MON_CTL 0
  d.updIsl i (fun x => { x with phase := 2, monOn := mon, monDone := false, waitReported := false })

/-- The island must hold before step 2 (R272, R275): both staging buffers await the seal unit, a failed block is being retried, or the
records of this stroke need a block and none is free. -/
def logBlocked (d : Dev) (i : Nat) : Bool :=
  let l := (d.isl i).log
  logEn d i && (2 ≤ l.staging.length || l.failed.isSome || (logFull d i && overfull ((presentAll d i).isl i).log))

/-- Wait at step 1: the phase says so. -/
def stayAtOne (d : Dev) (i : Nat) : Dev := d.updIsl i (fun x => { x with phase := 1 })

/-- The log hold of R272 begins: log_full where no block is free. DEDUCED: log entry 39. -/
def logHolds (d : Dev) (i : Nat) : Dev :=
  if (d.isl i).logHold then d
  else
    let d := d.updIsl i (fun x => { x with logHold := true })
    if (d.isl i).log.staging.length < 2 && (d.isl i).log.failed.isNone then d.islEvent i 2 6 3 5 R.CAT_EVENTS else d

/-- STROKE_BEGIN: steps 1 and 2 of the stroke that STK_COUNT names. `waited` island clocks have passed since the island came to
step 1. -/
def strokeBegin (d : Dev) (i waited : Nat) : Dev :=
  let x := d.isl i
  if !(strokeMode d i && islClocked d i && isRunning x.state && (x.phase = 1 || x.phase = 4) && !x.prBusy) then d
  else
    let d := clockWires d i (waited + (if x.phase = 4 then 2 else 0))
    let d := d.when (waited ≠ 0) (fun d => d.countFld i (if x.logHold then R.CAT_HOLD_CLOCKS else R.STK_WAIT_IN) 0 32 waited)
    let d := match x.replay with
      | some rp => if rp.fin ≤ x.count then replayEnd d i else d
      | none => d
    if !mayStart d i || x.featheredByStandby then regionAdvance (featherNow d i)
    else if lacksCoverage d i then stayAtOne (d.updIsl i (fun x => { x with logWait := true })) i
    else
      let d := d.updIsl i (fun x => { x with logWait := false })
      let (d, kept, res) := match (d.isl i).replay with
        | some rp => replayRings d i rp.recs []
        | none => (d, [], RecResult.taken)
      let d := d.updIsl i (fun x => { x with replay := x.replay.map (fun rp => { rp with recs := kept }) })
      match res with
      | .waits => stayAtOne d i
      | .diverged => replayStop d i 3
      | .taken =>
        if logBlocked d i then stayAtOne (logHolds d i) i
        else
          let d := d.updIsl i (fun x => { x with logHold := false })
          if !(xiLacking d i).isEmpty then stayAtOne d i else presentAll d i

def execStrokeBegin (i : Isl) (waited : Nat) (pins : List (Nat × BitVec 48)) (s : State) : Host.Outcome State Fault Refusal :=
  s.run (fun d => strokeBegin (setPins d pins) i.val waited)

/-! ### Step 4 -/

/-- The word an XO port's inputs carry: what the design drives there, supplied with the command as (port, word, value); the spec
attaches no routing to these inputs, so a word not supplied is a free value. -/
def xoWord (d : Dev) (given : List (Nat × Nat × W128)) (p k : Nat) : W128 × Dev :=
  match given.find? (fun e => e.1 = p && e.2.1 = k) with
  | some e => (e.2.2, d)
  | none => let (v, d) := d.draw; (BitVec.ofNat 128 v, d)

/-- The words sampled at an XO port with their places in the stroke: count words of a stroke channel, the valid ones of a free
channel. -/
def xoWords (d : Dev) (given : List (Nat × Nat × W128)) (p : Nat) (c : PortCfg) : List (Nat × W128) × Dev :=
  if c.free then (((List.range c.count).filterMap (fun k => (given.find? (fun e => e.1 = p && e.2.1 = k)).map (·.2))), d)
  else (List.range c.count).foldl (fun acc k => let (w, d) := xoWord acc.2 given p k; (acc.1 ++ [(k, w)], d)) ([], d)

/-- An XO port is sampled at step 4. DESIGN CHOICE: its words count as outstanding from here on, also while they wait for credit.
DESIGN CHOICE: log entry 125. -/
def sampleXo (d : Dev) (i : Nat) (given : List (Nat × Nat × W128)) (p : Nat) : Dev :=
  let c := xoCfg d i p
  let (ws, d) := xoWords d given p c
  let x := d.xo i p
  if c.path = 6 && !c.free then
    (d.setXo i p { x with last := ws }).updIsl i (fun s => { s with pinWords := s.pinWords ++ [(c.bank, (ws.map (·.2)).headD 0)] })
  else d.setXo i p { x with last := ws, toSend := ws.map (·.2), outst := x.outst + ws.length }

/-- The engine ports' inputs at step 4: each valid word goes to its up FIFO, or waits where that is full (R307). -/
def sampleUp (d : Dev) (i j : Nat) : Dev :=
  if unconfigured d i then d
  else
    let n := (d.isl i).count
    let new := (List.range 16).filterMap (fun p =>
      if d.net (.sitePin i (.port j p) 128) then some (p, BitVec.ofNat 128 (sitePins d i (.port j p) 0 128)) else none)
    let f (q : PortSet) : PortSet := new.foldl (fun q e => upFlush { q with upStroke := n, upPend := q.upPend ++ [e] } e.1) q
    d.updIsl i (fun x => if j = 0 then { x with ps0 := f x.ps0 } else { x with ps1 := f x.ps1 })

/-- SETTLE_DONE: S island clocks counted, everything is sampled. -/
def settleDone (d : Dev) (i : Nat) (given : List (Nat × Nat × W128)) : Dev :=
  let x := d.isl i
  if !(midStroke d i && islClocked d i && x.phase = 2) then d
  else
    let d := clockWires d i (d.fld i R.STK_SETTLE 0 8)
    let d := d.updIsl i (fun x => { x with pinWords := [], srSet := [], phase := 3 })
    let sr := asyncPairs d i
    let d := d.updIsl i (fun x => { x with srSet := sr })
    let d := (enabledXo d i).foldl (fun (d : Dev) p => sampleXo d i given p) d
    let d := sendSampled (sampleUp (sampleUp d i 0) i 1) i
    triggerSample d i x.count

def execSettleDone (i : Isl) (xo : List (Nat × Nat × W128)) (s : State) : Host.Outcome State Fault Refusal :=
  s.run (fun d => settleDone d i.val xo)

/-! ### The settle monitor (R235) -/

/-- The first port and word whose re-sample differs. -/
def firstDiff (d : Dev) (i : Nat) (given : List (Nat × Nat × W128)) : Option (Nat × Nat) :=
  (enabledXo d i).findSome? (fun p =>
    ((List.range (xoCfg d i p).count).find? (fun k =>
      match given.find? (fun e => e.1 = p && e.2.1 = k) with
      | some e => !(d.xo i p).last.contains (k, e.2.2)
      | none => false)).map (fun k => (p, k)))

/-- The re-sample at S + 2: words not supplied have not changed. -/
def monitorSample (d : Dev) (i : Nat) (given : List (Nat × Nat × W128)) : Dev :=
  let x := d.isl i
  if !(midStroke d i && islClocked d i && x.phase = 3 && x.monOn && !x.monDone) then d
  else
    let d := clockWires d i 2
    let d := d.updIsl i (fun x => { x with monDone := true })
    match firstDiff d i given with
    | none => d
    | some (p, k) =>
      if d.flag i R.STK_EVENTS 3 then d.event i 5 2 3 R.STK_EVENTS
      else
        let d := d.setReg i R.STK_MON_PORT (BitVec.ofNat 32 (p + 32 * k + 2 ^ 31))
        let d := (d.setReg64 i R.STK_MON_STROKE x.count).islEvent i 1 5 2 3 R.STK_EVENTS
        if d.flag i R.STK_MON_CTL 1 then
          let lim := d.reg64 i R.STK_LIMIT
          d.setReg64 i R.STK_LIMIT (if x.count + 1 < lim then x.count + 1 else lim)
        else d

def execSettleMonitorSample (i : Isl) (xo : List (Nat × Nat × W128)) (s : State) : Host.Outcome State Fault Refusal :=
  s.run (fun d => monitorSample d i.val xo)

/-! ### Steps 5 and 6 -/

def upWaits (x : Island) : Bool := !x.ps0.upPend.isEmpty || !x.ps1.upPend.isEmpty

/-- The Owner holds a bank's outputs high-impedance (R643). DEDUCED: log entry 120. -/
def forcedHiz (d : Dev) (bank : Nat) : Bool := d.flag 0x142 (R.IO_BANK_CTL + 0x10 * bank) 0

/-- IO_BANK_STATUS of a bank. -/
def bankStatus (n : Nat) : Nat := R.IO_BANK_STATUS + 0x10 * n
/-- Whether a bank is of the HP type (R634). -/
def bankHp (n : Nat) : Bool := n < 28 && n % 7 < 4

/-- Whether an island's crossing ports use a bank, and whether its joined-mode attachment does (R230, R637). -/
def pinPortOn (d : Dev) (i n : Nat) : Bool :=
  (List.range 32).any (fun p => let a := xiCfg d i p; let b := xoCfg d i p
    (a.en && !a.free && a.path = 6 && a.bank = n) || (b.en && !b.free && b.path = 6 && b.bank = n))
def attachOn (d : Dev) (i : Nat) : Bool :=
  (List.range 21).any (fun k => bandFld d i 0 (12112 + 16 * k) 16 ≠ 0)

/-- The loaded island that uses a bank. -/
def bankUser (d : Dev) (n : Nat) : Option Nat :=
  ((d.islands.filter (fun e => inIsland e.2.state)).map (·.1)).find? (fun i =>
    pinPortOn d i n || (!strokeMode d i && bankOf i = some n && attachOn d i))

/-- The pins of a bank that are driven, by the state of what they belong to (R231, R636, R643), the core being connected to them.
DEDUCED: log entry 105. -/
def padEnable (d : Dev) (n : Nat) : BitVec 48 :=
  match bankUser d n with
  | none => 0
  | some i =>
    let s := (d.isl i).state
    if forcedHiz d n || s = .idle || s = .loaded || s = .evicting || s = .sleep then 0 else tget d.pinEn 0 n

/-- Outputs of an island's banks follow its leaving for SLEEP or EVICTING, and its return from an emulated sleep (R199, R636); `old` is the
device before. -/
def padsFollow (old d : Dev) (i : Nat) : Dev :=
  if bscanActive d then d
  else ((List.range 30).filter (fun n => tget d.pinEn 0 n ≠ 0 && (bankUser old n = some i || bankUser d n = some i))).foldl (fun (d : Dev) n =>
    d.emit (.pins n (tget d.pinOut 0 n) (padEnable d n))) d

/-- An island's banks hold no pin word any more: until its first stroke they drive nothing (R231, R636). `old` tells its banks. -/
def padsClear (old d : Dev) (i : Nat) : Dev :=
  { d with pinEn := d.pinEn.filter (fun e => bankUser old e.1 ≠ some i), pinOut := d.pinOut.filter (fun e => bankUser old e.1 ≠ some i) }

/-- Bank outputs take a pin word (R231). DEDUCED: log entry 122. -/
def drivePins (d : Dev) (bank : Nat) (w : W128) : Dev :=
  let lv : BitVec 48 := w.extractLsb' 0 48
  let en : BitVec 48 := w.extractLsb' 48 48
  let d := { d with pinOut := tput d.pinOut 0 bank lv, pinEn := tput d.pinEn 0 bank en }
  if bscanActive d then d else d.emit (.pins bank lv (if forcedHiz d bank then 0 else en))

/-- Steps 5 and 6 of stroke n, to the boundary into stroke n + 1: the wire registers and the design's units take their edges from
the state before them (R97, R212). -/
def commitStroke (d : Dev) (i : Nat) : Dev :=
  let x := d.isl i
  let n := x.count.toNat
  let d := islandEdgeFrom d (clockWires d i 1) i (designClocks d i n)
  let d := x.pinWords.foldl (fun (d : Dev) e => drivePins d e.1 e.2) d
  let d := d.updIsl i (fun x => { x with
    count := x.count + 1, phase := 4, inserted := 0, srSet := [], pinWords := [], preserveHold := false, waitReported := false,
    log := { x.log with sinceClose := x.log.sinceClose + 1 } })
  (rings d i).foldl (fun (d : Dev) m => ringBoundary d i (n + 1) m) d

/-- STROKE_COMMIT: once every XO port has credit and the preserve buffer has room; `waited` island clocks have passed at step
4. -/
def strokeCommit (d : Dev) (i waited : Nat) : Dev :=
  let x := d.isl i
  if !(midStroke d i && islClocked d i && x.phase = 3 && (!x.monOn || x.monDone)) then d
  else
    let d := clockWires d i waited
    let d := d.when (waited ≠ 0) (fun d => d.countFld i (if x.preserveHold then R.CAT_HOLD_CLOCKS else R.STK_WAIT_OUT) 0 32 waited)
    if !(xoBlocked d i).isEmpty || upWaits x then d
    else if preserveFree d i < (undrainedWrites d i (designClocks d i x.count.toNat)).length then
      if x.preserveHold then d else (d.updIsl i (fun x => { x with preserveHold := true })).cause i 2
    else commitStroke d i

def execStrokeCommit (i : Isl) (waited : Nat) (s : State) : Host.Outcome State Fault Refusal :=
  s.run (fun d => strokeCommit d i.val waited)

/-- 65,536 strokes without another close (R274). -/
def execLogBlockPeriodicClose (i : Isl) (s : State) : Host.Outcome State Fault Refusal :=
  s.run (fun d =>
    let x := d.isl i.val
    if 65536 ≤ x.log.sinceClose then closeBlock d i.val x.count.toNat else d)

/-! ### Neighbour paths -/

/-- A word on a dedicated path (R218): its epoch is checked against the island's own table. -/
def execNeighbourWord (i src : Isl) (p : Fin 32) (tenant : Fin 16) (epoch : Byte) (tag : BitVec 16) (free : Bool) (w : W128)
    (s : State) : Host.Outcome State Fault Refusal :=
  s.run (fun d => xiArrive d i.val p.val tenant.val tag.toNat free (d.epochOf i.val src.val ≠ epoch.toNat) [w])

def execNeighbourAck (i : Isl) (p : Fin 32) (acked credits : Fin 81) (s : State) : Host.Outcome State Fault Refusal :=
  s.run (fun d => xoCredit d i.val p.val acked.val credits.val)

/-! ### The stall detector (R234) -/

/-- A replaying island waits for entries of a ring that the records of its next stroke name (R154). -/
def replayWaits (d : Dev) (i : Nat) : Bool :=
  match (d.isl i).replay with
  | some rp => (replayRings d i rp.recs []).2.2 = .waits
  | none => false

/-- Whether the island waits at step 1 or step 4 for something other than a bound. -/
def stalled (d : Dev) (i : Nat) : Bool :=
  let x := d.isl i
  isRunning x.state && strokeMode d i &&
    ((x.phase = 1 && mayStart d i && (!(xiLacking d i).isEmpty || lacksCoverage d i || replayWaits d i || logBlocked d i)) ||
      (x.phase = 3 && (!(xoBlocked d i).isEmpty || upWaits x)))

def maskOf (l : List Nat) : Word := BitVec.ofNat 32 (l.foldl (fun a p => a + 2 ^ p) 0)

/-- A debug halt freezes the stall detectors of its principal's islands (R575). -/
def stallFrozen (d : Dev) (i : Nat) : Bool :=
  debugFrozen d (d.owner i) 2

/-- The wait has lasted the threshold, measured by the environment in DTIME. DEDUCED: log entry 39. -/
def stallDetect (d : Dev) (i : Nat) : Dev :=
  let x := d.isl i
  if !stalled d i || x.waitReported || d.fld i R.STK_STALL_CFG 0 16 = 0 || stallFrozen d i then d
  else
    let held := d.flag i R.STK_EVENTS 2
    let d := if held then d
      else (d.setReg i R.STK_STALL_IN (maskOf (if x.phase = 1 then xiLacking d i else []))).setReg i R.STK_STALL_OUT
        (maskOf (if x.phase = 3 then xoBlocked d i else []))
    (d.islEvent i 1 5 2 2 R.STK_EVENTS).updIsl i (fun x => { x with waitReported := true })

def execStallDetect (i : Isl) (s : State) : Host.Outcome State Fault Refusal := s.run (fun d => stallDetect d i.val)

/-! ### Writes that stop, release and start (R236, R237, R240) -/

/-- The SCL registers of an engine but those that configuration gives, at their reset values (R311, R321). -/
def sclReset (d : Dev) (e : Nat) : Dev :=
  let o := sclOff e 0x3000
  (d.resetRegs (engNode e) (o + 0x14) (o + 0x40)).resetRegs (engNode e) (o + 0x44) (o + 0x50)

/-- An island starts: RUNNING at STK_COUNT; its engines' registers reset, each released where its run bit is set and else held in reset
(R240, R311, R506). -/
def startIsland (d : Dev) (i : Nat) : Dev :=
  let d := [2 * i, 2 * i + 1].foldl (fun (d : Dev) e =>
    let x := d.eng e
    if x.outOfService then d else engResetRegs (sclReset d e) e (if x.runBit then 1 else 0)) (padsClear d d i)
  let joined := !strokeMode d i
  (d.updIsl i (fun x => { x with phase := if joined then 6 else 1, atLimit := false, atHold := false })).goState i .running

/-- A start: every LOADED island of a joined group starts with it (R196). -/
def startTogether (d : Dev) (i : Nat) : Dev :=
  if strokeMode d i then startIsland d i
  else ((groupIslands d (d.isl i).setup.groupId).filter (fun j => (d.isl j).state = .loaded)).foldl startIsland d

/-- STK_CTL (R250): feather, resume, start; more than one is BAD_STATE. -/
def stkCtlWriter : Writer := fun d r i off v =>
  match v % 8 with
  | 0 => (d, .ok)
  | 1 => (boundChanged (setBound d i r.tenant (nextStroke d i)) i, .ok)
  | 2 => (boundChanged (setBound d i r.tenant allOnes64) i, .ok)
  | 4 =>
    if r.tenant ≠ d.owner i then (deniedHere d r i off, .denied)
    else if (d.isl i).state ≠ .loaded then (d, .badState)
    else (startTogether d i, .ok)
  | _ => (d, .badState)

def execStkFeather (r : Req) (i : Isl) (s : State) : Host.Outcome State Fault Refusal :=
  s.run (fun d => d.regCmd r i.val R.STK_CTL 1 stkCtlWriter)
def execStkResume (r : Req) (i : Isl) (s : State) : Host.Outcome State Fault Refusal :=
  s.run (fun d => d.regCmd r i.val R.STK_CTL 2 stkCtlWriter)
def execStkStart (r : Req) (i : Isl) (s : State) : Host.Outcome State Fault Refusal :=
  s.run (fun d => d.regCmd r i.val R.STK_CTL 4 stkCtlWriter)

/-- STK_LIMIT and STK_HOLD: the committed 64-bit value takes effect at the next step 1. -/
def boundWriter : Writer := fun d _ i off v => (boundChanged (d.setReg64 i off (BitVec.ofNat 64 v)) i, .ok)

def execStkLimitWrite (r : Req) (i : Isl) (v : Word) (s : State) : Host.Outcome State Fault Refusal :=
  s.run (fun d => d.regCmd r i.val R.STK_LIMIT v boundWriter)
def execStkHoldWrite (r : Req) (i : Isl) (v : Word) (s : State) : Host.Outcome State Fault Refusal :=
  s.run (fun d => d.regCmd r i.val R.STK_HOLD v boundWriter)

/-- STK_SETTLE (R215): only while LOADED or FEATHERED, never 0. -/
def settleWriter : Writer := fun d _ i off v =>
  let s := (d.isl i).state
  if v % 256 = 0 || !(s = .loaded || s = .feathered) then (d, .badState) else (d.setReg i off (BitVec.ofNat 32 (v % 256)), .ok)

end Sys2Proof.Machine
end

