-- ==== Sys2Proof/Machine/Load.lean ====
section
/-! DEFINITION. What configuration sections and zeroisation do to an island: frames, memory and engine contents, set-up, initial
values (R82, R158, R159, R183, R311, R499 to R502, R509 to R513). -/

namespace Sys2Proof.Machine

/-! ### Words of a body -/

def bodyWord (b : List W128) (k : Nat) : W128 := b.getD k 0
/-- Bit n onwards, w bits, of words `lo` onwards read as one image. -/
def bodyBits (b : List W128) (lo n w : Nat) : Nat :=
  bitsOf ((bodyWord b (lo + n / 128)).toNat + (bodyWord b (lo + n / 128 + 1)).toNat * 2 ^ 128) (n % 128) w
def wf (w : W128) (lo n : Nat) : Nat := bitsOf w.toNat lo n

/-- A number from 128-bit words, first word least significant. -/
def wordsNum (l : List W128) : Nat := l.foldr (fun w a => w.toNat + 2 ^ 128 * a) 0

/-! ### Frames (R499, R500) -/

/-- SCB_UE drops the entries of an island's frames that are rewritten (R520). -/
def scrubForget (d : Dev) (i : Nat) (p : Nat → Bool) : Dev :=
  (List.range 8).foldl (fun (d : Dev) k =>
    let node := 0x164 + quarterOf i
    let o := R.SCB_UE + 4 * k
    if d.flag node o 31 && d.fld node o 0 6 = localIx i && p (d.fld node o 6 13) then d.setReg node o 0 else d) d

/-- Write one frame: both planes and the reference code (R522). -/
def writeFrame (d : Dev) (i f : Nat) (bits : Frame) : Dev := scrubForget (d.setFrame i f { bits := bits }) i (· = f)

/-- The frames a FRAME_WRITE body names. -/
def frameRange (b : List W128) : List Nat := (List.range (wf (bodyWord b 0) 21 13)).map (· + wf (bodyWord b 0) 8 13)

/-- FRAME_WRITE into an island. -/
def applyFrames (d : Dev) (i : Nat) (b : List W128) : Dev :=
  (List.range (wf (bodyWord b 0) 21 13)).foldl (fun (d : Dev) k =>
    writeFrame d i (wf (bodyWord b 0) 8 13 + k) (BitVec.ofNat 4096 (wordsNum ((b.drop (1 + 32 * k)).take 32)))) d

/-- The memories and slices whose site record lies in a configured band. -/
def bandsOf (d : Dev) (i : Nat) : List Nat :=
  ((configuredRows d i).map (· / 4) ++ (listedMems d i).map (· % 24) ++ (listedSlices d i).map (· % 24)).eraseDups

/-- The units' configuration as their site records in the frames hold it (R162, R187, R500). -/
def refreshUnits (d : Dev) (i : Nat) : Dev :=
  let d := (bandsOf d i).foldl (fun (d : Dev) b =>
    let d := (List.range 4).foldl (fun (d : Dev) n =>
      let m := 24 * n + b
      let o := 1760 * n + 1616
      let k := i * 96 + m
      let cfg := BitVec.ofNat 32 (bandFld d i b o 29) ||| ((d.bram k).cfg &&& bit 29)
      let d := d.setBram k { (d.bram k) with cfg := cfg }
      d.setReg i (R.MEM_CFG + m * 0x40) cfg) d
    (List.range 2).foldl (fun (d : Dev) n =>
      let a := 24 * n + b
      let o := 7040 + 768 * n + 700
      let k := i * 48 + a
      d.setSlice k { (d.slice k) with
        cfg := BitVec.ofNat 32 (bandFld d i b o 18), outCfg := BitVec.ofNat 32 (bandFld d i b (o + 18) 15),
        detCfg := BitVec.ofNat 32 (bandFld d i b (o + 33) 20) }) d) d
  d

/-- Thresholds from the site records of the given bands (R162): "config" values of QCT_THRESH. -/
def loadThresholds (d : Dev) (i : Nat) (bands : List Nat) : Dev :=
  bands.foldl (fun (d : Dev) b => (List.range 4).foldl (fun (d : Dev) n =>
    let o := 1760 * n + 1616 + 29
    d.setReg i (R.QCT_THRESH + (24 * n + b) * 0x40) (BitVec.ofNat 32 (bandFld d i b o 13 + bandFld d i b (o + 13) 13 * 65536))) d) d

/-! ### MEMORY_INIT (R501) -/

/-- Store lines into an engine's SRAM. -/
def initSram (d : Dev) (e : Nat) (isI : Bool) (first : Nat) (ws : List W128) : Dev :=
  ws.zipIdx.foldl (fun (d : Dev) w => d.updEng e (fun x => (List.range 4).foldl (fun (x : Engine) n =>
    x.setSram isI ((first + w.2) * 4 + n) (BitVec.ofNat 32 (bitsOf w.1.toNat (32 * n) 32))) x)) d

/-- Rows of a memory: with ecc = 1 one word a row; with ecc = 0 a further word after each group of up to 8 rows. -/
def initRows (d : Dev) (i m first count : Nat) (wide : Bool) (ws : List W128) : Dev :=
  (List.range count).foldl (fun (d : Dev) j =>
    let at' (n : Nat) : W128 := ws.getD n 0
    let row : Row := if !wide then eccRow (at' j)
      else
        let g := j / 8
        let data := at' (9 * g + j % 8)
        let extra := at' (9 * g + min 8 (count - 8 * g))
        (BitVec.ofNat 16 (bitsOf extra.toNat (16 * (j % 8)) 16)) ++ data
    d.setRow (i * 96 + m) (first + j) row) d

def memTarget (b : List W128) : Nat := wf (bodyWord b 0) 8 7

/-- MEMORY_INIT into an island. -/
def applyMemInit (d : Dev) (i : Nat) (b : List W128) : Dev :=
  let w := bodyWord b 0
  let t := memTarget b
  let first := wf w 16 12
  let count := wf w 28 13
  if t < 96 then
    let d := d.setBram (i * 96 + t) { (d.bram (i * 96 + t)) with cfg := (d.bram (i * 96 + t)).cfg ||| bit 29 }
    initRows d i t first count (w.getLsbD 41) (b.drop 1)
  else initSram d (2 * i + (t - 96) / 2) ((t - 96) % 2 = 0) first ((b.drop 1).take count)

/-! ### ISLAND_SETUP (R502) -/

def setupOf (b : List W128) : Setup :=
  let w := bodyWord b 0
  { fabricRoute := w.getLsbD 8, groupId := BitVec.ofNat 6 (wf w 9 6), gcMask := BitVec.ofNat 16 (wf w 15 16), fClose := wf w 31 12,
    nocPort := w.getLsbD 51, laneAttach := w.getLsbD 52, catchPeers := BitVec.ofNat 16 (wf w 53 16), run0 := w.getLsbD 69,
    run1 := w.getLsbD 70, xoPeers := (List.range 32).map (fun p => wf (bodyWord b (11 + p)) 12 4) }

/-- The configuration of XO or XI port p in a set-up body: CFG and DEST words. -/
def portWords (b : List W128) (base p : Nat) : Word × Word :=
  let w := bodyWord b (base + p)
  (BitVec.ofNat 32 (wf w 0 16), BitVec.ofNat 32 (wf w 16 31))

/-- Preload words by XI port: (port, words). -/
def preloads (b : List W128) : List (Nat × List W128) :=
  ((List.range 32).foldl (fun (acc : List (Nat × List W128) × Nat) p =>
    let c := cfgOf (portWords b 43 p).1 (portWords b 43 p).2
    if c.en && !c.free then (acc.1 ++ [(p, (b.drop acc.2).take (c.count * c.lat))], acc.2 + c.count * c.lat) else acc) ([], 75)).1

/-- An XI port as a load leaves it: its preload words for the next L strokes from stroke n (R217). -/
def freshXi (n : Nat) (c : PortCfg) (ws : List W128) : XiPort :=
  { buf := ws.zipIdx.map (fun w => (n + w.2 / c.count, w.1)), expect := n + c.lat, preUntil := n + c.lat }

/-- Put the crossing ports of a set-up body into an island. An XI port it writes starts afresh with its preload words, whether or not its
configuration changes (R217); an XO port keeps its account where its configuration stays. `all` starts every port afresh. The peer that
an XO port names is kept in Setup, as it is reserved in XCH_XO_CFG (R251). -/
def applyPorts (d : Dev) (i : Nat) (b : List W128) (all : Bool) : Dev :=
  let n := (d.isl i).count.toNat
  let pre := preloads b
  (List.range 32).foldl (fun (d : Dev) p =>
    let xo := ((portWords b 11 p).1 &&& 0xFFF, (portWords b 11 p).2)
    let xi := portWords b 43 p
    let xoNew := all || d.reg i (xiOff R.XCH_XO_CFG p) ≠ xo.1 || d.reg i (xiOff R.XCH_XO_DEST p) ≠ xo.2
    -- the words an XI port discards give their credit back to the producer (R249)
    let d := if !all then xiReturn d i p 0 ((d.xi i p).buf.filter (fun w => (d.xi i p).preUntil ≤ w.1)).length else d
    let d := (d.setReg i (xiOff R.XCH_XO_CFG p) xo.1).setReg i (xiOff R.XCH_XO_DEST p) xo.2
    let d := (d.setReg i (xiOff R.XCH_XI_CFG p) xi.1).setReg i (xiOff R.XCH_XI_SRC p) xi.2
    let d := if xoNew then d.setXo i p {} else d
    d.setXi i p (freshXi n (xiCfg d i p) ((pre.find? (fun e => e.1 = p)).map (·.2) |>.getD []))) d

/-- Group clock sources and DPLL settings of a set-up body, written by the load that claims them: what an island already names keeps the
settings it has (R117, R194). DEDUCED: log entry 42. -/
def applyClocks (d : Dev) (b : List W128) : Dev :=
  let mask := (setupOf b).gcMask
  let src (n : Nat) : Nat := wf (bodyWord b 6) (5 * n) 5
  let used := (List.range 16).filter (fun n => mask.getLsbD n && (gcClaimant d n).isNone)
  let held (k : Nat) : Bool := (dpllClaimant d k).isSome
  let pairs := (List.range 8).filter (fun p => used.any (fun n => src n = 16 + p) && (gcinClaimant d p).isNone)
  let d := pairs.foldl (fun (d : Dev) p =>
    { d with gcinTerm := if wf (bodyWord b 6) (80 + p) 1 = 1 then d.gcinTerm ||| BitVec.ofNat 8 (2 ^ p) else d.gcinTerm &&& ~~~BitVec.ofNat 8 (2 ^ p) }) d
  let d := used.foldl (fun (d : Dev) n => d.setReg 0x146 (R.PWR_GC_SEL + 4 * n) (BitVec.ofNat 32 (src n))) d
  let plls := (((used.map src).filter (· < 16)).map (· / 2) |>.eraseDups).filter (fun k => !held k)
  plls.foldl (fun (d : Dev) k =>
    let o := 0x10 * k
    let f (lo w : Nat) : Nat := bodyBits b 7 (64 * k + lo) w
    let d := d.setReg 0x146 (R.PWR_DPLL_CTL + o) (BitVec.ofNat 32 (f 0 1 + f 1 6 * 256))
    let d := d.setReg 0x146 (R.PWR_DPLL_FRAC + o) (BitVec.ofNat 32 (f 7 24))
    let d := d.setReg 0x146 (R.PWR_DPLL_DIV + o) (BitVec.ofNat 32 (f 31 13 + f 44 13 * 65536))
    d.setFld 0x146 (R.PWR_DPLL_STATUS + o) 0 1 0) d

/-- ISLAND_SETUP: mode, settle count, design clocks, engines and ports. `full` marks a load that takes the island from IDLE. -/
def applySetup (d : Dev) (i : Nat) (b : List W128) (full : Bool) : Dev :=
  let w := bodyWord b 0
  let s := setupOf b
  let d := d.updIsl i (fun x => { x with setup := s })
  let d := d.setReg i R.STK_SETTLE (BitVec.ofNat 32 (wf w 43 8))
  let d := d.setReg i R.STK_DCLK_EN (BitVec.ofNat 32 (wf w 73 16))
  let d := (List.range 16).foldl (fun (d : Dev) k => d.setReg i (R.STK_DCLK + 4 * k) (BitVec.ofNat 32 (bodyBits b 2 (32 * k) 32))) d
  let d := if full then d.setReg i R.ISL_CLK_REQ (BitVec.ofNat 32 s.fClose) else d
  let d := d.setReg i R.SCL_PORT_MAP (BitVec.ofNat 32 (wf w 71 2))
  let d := [0, 1].foldl (fun (d : Dev) e =>
    let d := d.setReg i (sclOff (2 * i + e) R.SCL_START) (BitVec.ofNat 32 (wf (bodyWord b 1) (32 * e) 32) &&& 0xFFFFFFFC)
    d.updEng (2 * i + e) (fun x => { x with runBit := if e = 0 then s.run0 else s.run1 })) d
  applyClocks (applyPorts d i b full) b

/-! ### Initial values (R82, R158, R183) -/

/-- Whether the record of cell k of a cluster overlaps a frame. -/
def cellInFrames (r c k : Nat) (frames : Nat → Bool) : Bool :=
  frames (48 * r + (3792 * c + 83 * k) / 4096) || frames (48 * r + (3792 * c + 83 * k + 82) / 4096)

/-- Cluster rows with a frame or a flip-flop listed: elsewhere every flip-flop holds its initial value 0. -/
def ffRows (d : Dev) (i : Nat) : List Nat :=
  (configuredRows d i ++ (d.ffs.filter (fun (e : Nat × W64) => e.1 / 4800 = i)).map (fun (e : Nat × W64) => e.1 % 4800 / 50)).eraseDups

/-- Flip-flops whose cell lies in one of the frames take their initial values. -/
def initFfs (d : Dev) (i : Nat) (frames : Nat → Bool) : Dev :=
  (ffRows d i).foldl (fun (d : Dev) r => (List.range 50).foldl (fun (d : Dev) c =>
    let l := (List.range 64).filterMap (fun b =>
      if cellInFrames r c (b / 2) frames then some (b, initVal d i r c (b / 2) (b % 2)) else none)
    if l.isEmpty then d else setFfBits d i (r * 50 + c) l) d) d

/-- Whether a site's mode fields or its record overlap a frame: band bits lo to hi. -/
def bandInFrames (b lo hi : Nat) (frames : Nat → Bool) : Bool :=
  let f (x : Nat) : Nat := 48 * (4 * b + x / 7008) + (189600 + x % 7008) / 4096
  (List.range (f hi + 1 - f lo)).any (fun k => frames (f lo + k))

/-- A slice whose configuration is written starts afresh (R183). -/
def initSlices (d : Dev) (i : Nat) (frames : Nat → Bool) : Dev :=
  (listedSlices d i).foldl (fun (d : Dev) a =>
    let lo := 7040 + 768 * (a / 24)
    if bandInFrames (a % 24) lo (lo + 767) frames then
      (d.setSlice (i * 48 + a) (d.slice (i * 48 + a)).cleared).setReg i (R.ARS_STATUS + a * 0x40) 0
    else d) d

/-- A memory at START: pointers, level, pending and latches at 0 (R158). -/
def Bram.fresh (b : Bram) : Bram := { cfg := b.cfg, outOfService := b.outOfService }

def initMems (d : Dev) (i : Nat) (which : Nat → Bool) : Dev :=
  (listedMems d i).foldl (fun (d : Dev) m => if which m then d.setBram (i * 96 + m) (d.bram (i * 96 + m)).fresh else d) d

/-! ### Zeroisation (R61, R159, R183, R311) -/

def keyIn (lo n k : Nat) : Bool := lo ≤ k && k < lo + n

/-- All design state and configuration of an island erased; what is out of service stays so. -/
def eraseIsland (d : Dev) (i : Nat) : Dev :=
  let d := lanesLeave d i
  let brams := (listedMems d i).map (fun m => (m, (d.bram (i * 96 + m)).outOfService))
  let sls := (listedSlices d i).map (fun a => (a, (d.slice (i * 48 + a)).outOfService))
  let d := { d with
    frames := tdrop d.frames (keyIn (i * 4608) 4608), ffs := tdrop d.ffs (keyIn (i * 4800) 4800),
    ffUpset := d.ffUpset.filter (fun k => !(k / 64 / 4800 = i)), transients := d.transients.filter (fun k => !(k / 64 / 4800 = i)),
    rows := tdrop d.rows (keyIn (i * 49152) 49152), brams := tdrop d.brams (keyIn (i * 96) 96),
    slices := tdrop d.slices (keyIn (i * 48) 48) }
  let d := brams.foldl (fun (d : Dev) e => d.setBram (i * 96 + e.1) { outOfService := e.2 }) d
  let d := sls.foldl (fun (d : Dev) e => d.setSlice (i * 48 + e.1) { outOfService := e.2 }) d
  [2 * i, 2 * i + 1].foldl (fun (d : Dev) e => sigDropHeld (d.setEng e { outOfService := (d.eng e).outOfService }) e) d

/-- Every register of an island's window at its reset value but the service bits, the epoch and the epoch table. -/
def zeroRegs (d : Dev) (i : Nat) : Dev :=
  ((((d.resetRegs i 0 0xF000).resetRegs i 0xF008 0xF100).resetRegs i 0xF500 0x10000))

/-- A cache entry becomes invalid: cache_fail (R512). -/
def cacheLost (d : Dev) : Dev := d.sticky 0x142 1 18 2 R.CFG_EVENTS

/-- Zeroisation of an island: state IDLE, owner tag 0, hash 48 zero bytes. -/
def zeroiseIsland (d : Dev) (i : Nat) : Dev :=
  -- a valid cache entry is lost with the island (R512); its scrub records are cleared (R520, R524)
  let d := if (d.isl i).cacheValid then cacheLost d else d
  let d := (scrubForget { d with cfgCache := tput d.cfgCache [] i [], wakeQueue := d.wakeQueue.filter (· ≠ i) } i (fun _ => true)).setReg (0x164 + quarterOf i)
    (R.SCB_ISL + 4 * localIx i) 0
  -- a throttle of R200 stays in force for every island it covers
  let x := d.isl i
  let ofLog : SealUse → Bool
    | .log j _ => j = i
    | .replay j => j = i
    | _ => false
  let d := sealDrop d ofLog
  -- its node's injection buckets are at their reset value (R360)
  let d := { d with noc := { d.noc with bucket := tdrop d.noc.bucket (fun k => k / 16 = i) } }
  sigZeroise (zeroRegs (((eraseIsland d i).setIsl i { throttleOc := x.throttleOc, throttleTh := x.throttleTh })) i) i

/-! ### The configuration cache (R512, R513) -/

/-- The sections of an island in load order, each its type and body, with `true` where a partial reconfiguration begins. -/
abbrev Sections := List (Nat × List W128)

/-- Apply content sections to an island. -/
def applySections (d : Dev) (i : Nat) (full : Bool) (l : Sections) : Dev :=
  l.foldl (fun (d : Dev) s =>
    if s.1 = 5 then applyFrames d i s.2 else if s.1 = 6 then applyMemInit d i s.2 else if s.1 = 7 then applySetup d i s.2 full else d) d

/-- What a full load starts from: the records of the memories at reset, every row of a memory in use zero and both engines' SRAMs zero
until MEMORY_INIT gives them content (R158, R162, R311). -/
def clearContent (d : Dev) (i : Nat) : Dev :=
  let d := refreshUnits (d.resetRegs i 0x4000 0x5800) i
  let d := { d with rows := tdrop d.rows (fun k => keyIn (i * 49152) 49152 k && (d.bram (k / 512)).use ≠ 0) }
  [2 * i, 2 * i + 1].foldl (fun (d : Dev) e => d.updEng e (fun x => { x with imem := [], dmem := [], ierr := [], derr := [] })) d

/-- The content of a full load: frames first, then what they configure. -/
def applyFull (d : Dev) (i : Nat) (l : Sections) : Dev :=
  applySections (clearContent (applySections d i true (l.filter (fun s => s.1 = 5))) i) i true (l.filter (fun s => s.1 ≠ 5))

/-- After a full load's content is in: units configured, initial values taken (R506 step 5). -/
def finishFull (d : Dev) (i : Nat) : Dev :=
  let d := refreshUnits d i
  let d := loadThresholds d i (bandsOf d i)
  initFfs (initMems (initSlices d i (fun _ => true)) i (fun _ => true)) i (fun _ => true)

/-! ### Partial reconfiguration (R82, R98, R158, R183, R217, R311, R510) -/

def framesIn (l : Sections) (f : Nat) : Bool := l.any (fun s => s.1 = 5 && (frameRange s.2).contains f)
def memsIn (l : Sections) : List Nat := (l.filter (fun s => s.1 = 6)).map (fun s => memTarget s.2)

/-- Engines whose SRAM a stream wrote are held in reset, then released where the section's run bit is set and the island is
started. -/
def restartEngines (d : Dev) (i : Nat) (l : Sections) (started : Bool) : Dev :=
  [0, 1].foldl (fun (d : Dev) e =>
    match (l.filter (fun s => s.1 = 6 && 96 ≤ memTarget s.2 && (memTarget s.2 - 96) / 2 = e)).getLast? with
    | some s =>
      let run := (bodyWord s.2 0).getLsbD 15
      engResetRegs (d.updEng (2 * i + e) (fun x => { x with runBit := run })) (2 * i + e) (if started && run then 1 else 0)
    | none => d) d

/-- The content of a partial reconfiguration goes into an island and takes effect where it changes it; its trigger is disarmed (R577). -/
def applyPartial (d : Dev) (i : Nat) (l : Sections) : Dev :=
  let old (m : Nat) : Word := (d.bram (i * 96 + m)).cfg &&& 0x1FEF#32
  let frames := framesIn l
  let d' := refreshUnits (applySections d i false l) i
  let d' := loadThresholds d' i ((bandsOf d' i).filter (fun b => bandInFrames b 0 7007 frames))
  let d' := (listedMems d' i).foldl (fun (d' : Dev) m =>
    if (d'.bram (i * 96 + m)).cfg &&& 0x1FEF#32 ≠ old m then d'.setBram (i * 96 + m) (d'.bram (i * 96 + m)).fresh else d') d'
  let d' := initFfs (initSlices d' i frames) i frames
  trgDisarm (restartEngines (clearWires d' i) i l ((d.isl i).state = .feathered)) i

/-- Wake reload (R513): the full load's sections, then each partial reconfiguration. DEDUCED: log entry 73. -/
def reloadCache (d : Dev) (i : Nat) (l : List Sections) : Dev :=
  (l.drop 1).foldl (fun (d : Dev) p => applyPartial d i p) (finishFull (applyFull d i (l.headD [])) i)

end Sys2Proof.Machine
end

