-- ==== Sys2Proof/Machine/Cache.lean ====
section
/-! DEFINITION. The configuration cache (R56, R512, R513): the ENCRYPTED sections of an island's slot, how they are written to and read
from the granule. -/

namespace Sys2Proof.Machine

/-- The first address of island i's slot in the cache granule. -/
def slotBase (d : Dev) (i : Nat) : Nat := d.devId * 2 ^ 46 + d.fld 0x142 R.CFG_CACHE_CFG 0 10 * 2 ^ 30 + i * 0x400000

/-- A section header of R490 for this device. -/
def secHeader (d : Dev) (typ level len : Nat) (isLast : Bool) : W128 :=
  BitVec.ofNat 128 (packBits [(8, typ), (1, bn isLast), (7, 0), (3, level), (13, 0), (32, len), (64, 1 <<< d.devId)])

/-- The child sections of an entry's section as words, in order. -/
def childWords (d : Dev) : List (Nat × List W128) → List W128
  | [] => []
  | s :: r => secHeader d s.1 2 s.2.length r.isEmpty :: s.2 ++ childWords d r

/-- The cache key of a principal (R537); what an entry is sealed under whose principal holds no root key is open. -/
def cacheKeyOf (d : Dev) (t : Nat) : BitVec 256 := keyCache d ((tget d.roots none t).getD (BitVec.ofNat 256 (Config.freeNat d.free)))

/-- One ENCRYPTED section of a slot: header, IV, ciphertext, tag over the header as additional data (R496, R512). -/
def cacheSection (d : Dev) (t : Nat) (iv : BitVec 96) (l : List (Nat × List W128)) : List W128 :=
  let w := childWords d l
  let h := secHeader d 4 1 (w.length + 2) false
  let ct := gcmApply (cacheKeyOf d t) iv w
  h :: iv.setWidth 128 :: ct ++ [gcmTagOf (cacheKeyOf d t) iv [h] ct]

/-- The sections in a run of words, `n` bounding their number. -/
def cutSections : Nat → List W128 → List (Nat × List W128)
  | 0, _ => []
  | _, [] => []
  | n + 1, h :: r =>
    let len := bitsOf h.toNat 32 32
    (bitsOf h.toNat 0 8, r.take len) :: cutSections n (r.drop len)

/-- The child sections of an ENCRYPTED section; none where its tag fails. -/
def cacheOpen (d : Dev) (t : Nat) (s : List W128) : Option (List (Nat × List W128)) :=
  match s with
  | h :: iv :: r =>
    let ct := r.dropLast
    let k := cacheKeyOf d t
    if gcmTagOf k (iv.setWidth 96) [h] ct = r.getLastD 0 then
      some (cutSections ct.length (gcmApply k (iv.setWidth 96) ct)) else none
  | _ => none

/-! ### The granule's words -/

/-- The unit of DRAM at an address. -/
def dramUnit (d : Dev) (a : Nat) : W128 :=
  match dramOf d (localAddr a) with
  | some (n, c) => tget (d.dram n).data 0 (c / 16)
  | none => 0

/-- Units go into DRAM from an address on, with their check bits. -/
def dramPut (d : Dev) (a : Nat) (l : List W128) : Dev :=
  l.zipIdx.foldl (fun (d : Dev) e =>
    match dramOf d (localAddr a + 16 * e.2) with
    | some (n, c) =>
      let x := d.dram n
      d.setDram n { x with data := tput x.data 0 (c / 16) e.1, errs := tput x.errs 0 (c / 64) 0 }
    | none => d) d

/-- The configuration controller writes words of a slot: tenant field 0 (R39, R512). -/
def slotWrite (d : Dev) (a : Nat) (l : List W128) : Dev :=
  (cutUnits 128 l.length a l).foldl (fun (d : Dev) e =>
    (dramPut d e.1 e.2).asked 0x142 ((destOf d e.1).getD 0x142) 8 e.2.length 0 e.1 e.2) d

/-- It reads `n` words of a slot. -/
def slotRead (d : Dev) (a n : Nat) : Dev × List W128 :=
  let l := (List.range n).map (fun k => dramUnit d (a + 16 * k))
  ((cutUnits 128 n a l).foldl (fun (d : Dev) e => d.asked 0x142 ((destOf d e.1).getD 0x142) 1 e.2.length 0 e.1 []) d, l)

/-- Words that an island's entry uses, its header word included: the sections written are listed by place and header. -/
def entryUsed (l : List (Nat × List W128)) : Nat :=
  l.foldl (fun n e => max n (e.1 + 1 + bitsOf (e.2.headD 0).toNat 32 32)) 1

/-- The words of an entry's sections cut one by one, `n` bounding their number. -/
def cutEntry : Nat → List W128 → List (List W128)
  | 0, _ => []
  | _, [] => []
  | n + 1, h :: r =>
    let len := bitsOf h.toNat 32 32
    (h :: r.take len) :: cutEntry n (r.drop len)

/-- What an island's entry holds: the sections of the full load, then those of each appended partial reconfiguration; none where a tag
fails. -/
def cacheEntry (d : Dev) (i : Nat) : Option (List (List (Nat × List W128))) :=
  let a := slotBase d i
  let h := (dramUnit d a).toNat
  let n := min (bitsOf h 0 24) 0x40000 - 1
  let ws := (List.range n).map (fun k => dramUnit d (a + 16 + 16 * k))
  (cutEntry n ws).foldr (fun s l => match l, cacheOpen d (bitsOf h 24 4) s with
    | some r, some x => some (x :: r)
    | _, _ => none) (some [])

end Sys2Proof.Machine
end

