-- ==== Sys2Proof/Machine/Power.lean ====
section
/-! DEFINITION. Island clocks, sleep and wake, device PLLs, sensing and protection (R189 to R206). Standby and the thermal trip
stand in DevStates.lean. -/

namespace Sys2Proof.Machine

/-! ### The island clock (R189 to R191) -/

/-- f_grade: 700, 800 or 900 MHz by the speed grade of the fuses (R189, FUS_DEV of R557). PRESUMED: log entry 30. -/
def fGrade (d : Dev) : Nat :=
  if d.fld 0x141 R.FUS_DEV 0 2 = 2 then 800 else if d.fld 0x141 R.FUS_DEV 0 2 = 3 then 900 else 700

/-- Throttle kinds in force at an island (R200). -/
def throttles (x : Island) : Nat := (if x.throttleOc then 1 else 0) + (if x.throttleTh then 1 else 0)

def fBase (d : Dev) (i : Nat) : Nat :=
  min (min (d.fld i R.ISL_CLK_REQ 0 12) (d.fld i R.ISL_CLK_LIMIT 0 12)) (min (d.isl i).setup.fClose (fGrade d))

/-- The effective frequency the island's generator is set to (R189). -/
def fTarget (d : Dev) (i : Nat) : Nat := max 25 (fBase d i / 2 ^ throttles (d.isl i))

/-- clk_limited: the limit is what holds the frequency down (R208). DEDUCED: log entry 43. -/
def clkLimited (d : Dev) (i : Nat) : Bool :=
  let l := d.fld i R.ISL_CLK_LIMIT 0 12
  throttles (d.isl i) = 0 && l < d.fld i R.ISL_CLK_REQ 0 12 && l < (d.isl i).setup.fClose && l < fGrade d

def clkReqWriter : Writer := fun d _ i off v =>
  (((d.setReg i off (BitVec.ofNat 32 (v % 4096))).updIsl i (fun x => { x with clkClamped := decide (x.setup.fClose < v % 4096) })), .ok)

def clkLimitWriter : Writer := fun d _ i off v => (d.setReg i off (BitVec.ofNat 32 (min (v % 4096) (fGrade d))), .ok)

def execIslClkReqWrite (r : Req) (i : Isl) (v : Word) (s : State) : Host.Outcome State Fault Refusal :=
  s.run (fun d => d.regCmd r i.val R.ISL_CLK_REQ v clkReqWriter)
def execIslClkLimitWrite (r : Req) (i : Isl) (v : Word) (s : State) : Host.Outcome State Fault Refusal :=
  s.run (fun d => d.regCmd r i.val R.ISL_CLK_LIMIT v clkLimitWriter)

/-- t_FCHG has passed: the generator runs at f_eff (R191). -/
def execClockChangeDone (i : Isl) (s : State) : Host.Outcome State Fault Refusal :=
  s.run (fun d => d.updIsl i.val (fun x => { x with fEff := fTarget d i.val }))

/-! ### Sleep and wake (R197 to R199) -/

/-- Whether the principal of an island has a debugger attached (R576). -/
def attached (d : Dev) (t : Nat) : Bool := d.flag 0x143 (dbgArea R.DBG_ATTACHED t) 0

/-- Whether a sleep command is accepted in the island's state (R196, R197, R207). DEDUCED: log entry 114. -/
def maySleep (d : Dev) (i : Nat) : Bool :=
  let x := d.isl i
  !x.prBusy && !x.drainActive && (x.state = .idle || ((x.state = .loaded || x.state = .feathered) && x.cacheValid))

/-- A sleep command: emulated while the owning principal is attached, else steps 1 to 3 of R197. DEDUCED: log entry 114. -/
def sleepIsland (d : Dev) (i : Nat) : Dev × Status :=
  if !maySleep d i then (d, .badState)
  else
    let emu := attached d (d.owner i)
    let old := d
    let d := d.updIsl i (fun x => { x with sleptFrom := x.state, sleepEmulated := emu, powerGated := false, waking := false })
    let d := padsFollow old (lanesLeave ((if emu then d else clearWires d i).goState i .sleep) i) i
    (if emu then d else padsClear old d i, .ok)

/-- The power domain is gated: everything but the owner tag, the epoch and the ISL, PWR and NoC registers is lost (R197). -/
def gateIsland (d : Dev) (i : Nat) : Dev :=
  let d := (eraseIsland d i).resetRegs i 0x1000 0x9000
  -- what had not left the node is lost with it
  let d := dropInject d i (· < 3)
  d.updIsl i (fun x => { ({} : Island) with
    state := x.state, sleptFrom := x.sleptFrom, powerGated := true, waking := x.waking, setup := x.setup, hash := x.hash,
    cacheValid := x.cacheValid, clkClamped := x.clkClamped, fEff := x.fEff, throttleOc := x.throttleOc, throttleTh := x.throttleTh,
    energyFrac := x.energyFrac })

/-- Requests of the island's units that still await a response; those of its other units that await injection. A request of an engine or
of the fabric port that was never injected awaits nothing (R197). -/
def unitsBusy (d : Dev) (node : Nat) : Bool :=
  let held (o : Outst) : Bool := d.noc.inject.any (fun e => e.1 = node && e.2.1 = o.unit && e.2.2.tag = o.tag && e.2.2.rr)
  d.noc.outst.any (fun o => o.node = node && !(o.unit < 3 && held o)) || d.noc.inject.any (fun e => e.1 = node && 3 ≤ e.2.1)

def execSleepGated (i : Isl) (s : State) : Host.Outcome State Fault Refusal :=
  s.run (fun d =>
    let x := d.isl i.val
    if x.state = .sleep && !x.sleepEmulated && !x.powerGated && !unitsBusy d i.val then gateIsland d i.val else d)

/-- Zeroisation ends in IDLE: a state change of the island (R61, R206). -/
def zeroiseToIdle (d : Dev) (i : Nat) : Dev := ((zeroiseIsland d i).cause i 0).event i 5 1 0 R.ISL_SIG_CAUSE

/-- A wake command (R198, R199). DEDUCED: log entry 114. -/
def wakeIsland (d : Dev) (i : Nat) : Dev × Status :=
  let x := d.isl i
  if x.state ≠ .sleep || x.waking then (d, .badState)
  else if x.sleepEmulated then (padsFollow d ((d.updIsl i (fun x => { x with sleepEmulated := false })).goState i x.sleptFrom) i, .ok)
  else
    let d := if x.powerGated then d else gateIsland d i
    if x.sleptFrom = .idle then (zeroiseToIdle d i, .ok)
    else if coxState d ≠ 1 then (d, .badState)
    else ({ (d.updIsl i (fun x => { x with waking := true })) with wakeQueue := d.wakeQueue ++ [i] }, .ok)

/-- ISL_PWR_CMD. -/
def pwrCmdWriter : Writer := fun d _ i _ v =>
  if v % 4 = 1 then sleepIsland d i else if v % 4 = 2 then wakeIsland d i else if v % 4 = 3 then (d, .badState) else (d, .ok)

def execSleep (r : Req) (i : Isl) (s : State) : Host.Outcome State Fault Refusal :=
  s.run (fun d => d.regCmd r i.val R.ISL_PWR_CMD 1 pwrCmdWriter)
def execWake (r : Req) (i : Isl) (s : State) : Host.Outcome State Fault Refusal :=
  s.run (fun d => d.regCmd r i.val R.ISL_PWR_CMD 2 pwrCmdWriter)

/-- The words of a body that the configuration hash covers, with bits [7:0] of word 0 taken as 0 (R509). -/
def hashBody (b : List W128) : List W128 :=
  match b with
  | [] => []
  | w :: r => (w &&& ~~~(0xFF : W128)) :: r

/-- SHA-384 over the FRAME_WRITE and ISLAND_SETUP bodies of a list of sections, after `pre` (48 bytes or none). -/
def hashSections (pre : Option (BitVec 384)) (l : Sections) : BitVec 384 :=
  let ws := (l.filter (fun s => s.1 = 5 || s.1 = 7)).flatMap (fun s => hashBody s.2)
  match pre with
  | none => Config.sha384 (wordsNum ws) (16 * ws.length)
  | some h => Config.sha384 (h.toNat + 2 ^ 384 * wordsNum ws) (48 + 16 * ws.length)

/-- The hash a cache entry produces on reload. -/
def cacheHash (l : List Sections) : BitVec 384 :=
  (l.drop 1).foldl (fun h p => hashSections (some h) p) (hashSections none (l.headD []))

/-- The sections that a wake reload replays: every read of the slot answered OK (`ok`), every tag verified, and the hash they produce the
one the island held. -/
def reloadOf (d : Dev) (i : Nat) (ok : Bool) : Option (List Sections) :=
  match cacheEntry d i with
  | some l => if ok && cacheHash l = (d.isl i).hash then some l else none
  | none => none

/-- The Cox ends a wake reload; the wake command completes OK or AUTH_FAIL (R198, R513). DEDUCED: log entry 73. -/
def wakeReloadDone (d : Dev) (i : Nat) (ok : Bool) : Dev :=
  let x := d.isl i
  if !(x.state = .sleep && x.waking) || d.load.isSome || d.wakeQueue.head? ≠ some i then d
  else
    let d := { d with wakeQueue := d.wakeQueue.drop 1 }
    let found := reloadOf d i ok
    let d := (slotRead d (slotBase d i) (entryUsed (tget d.cfgCache [] i))).1
    match found with
    | some l =>
      let d := reloadCache (d.updIsl i (fun x => { x with powerGated := false, waking := false })) i l
      wakeAnswer ((d.updIsl i (fun y => { y with count := 0, hash := x.hash, cacheValid := true })).goState i .loaded) i .ok
    | none =>
      let t := d.owner i
      let d := zeroiseToIdle d i
      -- the AUTH_FAIL outcome is recorded in the security class with the island in P1 (R596)
      let d := d.orReg 0x141 R.COX_EVENTS (bit 5)
      wakeAnswer (d.eventP 0x141 0 2 21 5 t (d.reg 0x141 R.COX_EVENTS) (BitVec.ofNat 32 i) 0 0) i .authFail

def execWakeReloadDone (i : Isl) (ok : Bool) (s : State) : Host.Outcome State Fault Refusal := s.run (fun d => wakeReloadDone d i.val ok)

/-! ### Device PLLs (R193, R194) -/

/-- Whether an enabled setting lies in range: oscillator 2,000 to 4,800 MHz, dividers 4 to 4,096, outputs 1 to 600 MHz. Frequencies
are in units of 1/2^24 MHz. -/
def dpllLegal (ctl frac div : Word) : Bool :=
  let vco := 100 * (bitsOf ctl.toNat 8 6 * 2 ^ 24 + bitsOf frac.toNat 0 24)
  let okDiv (n : Nat) : Bool := 4 ≤ n && n ≤ 4096 && n * 2 ^ 24 ≤ vco && vco ≤ 600 * n * 2 ^ 24
  !ctl.getLsbD 0 || (2000 * 2 ^ 24 ≤ vco && vco ≤ 4800 * 2 ^ 24 && okDiv (bitsOf div.toNat 0 13) && okDiv (bitsOf div.toNat 16 13))

/-- A write of a setting of a DPLL or group clock that another principal has claimed is refused as R12 says; the Owner's own claim or none
leaves it to the register's class (R210). -/
def claimedWriter (claimant : Dev → Option Nat) (f : Writer) : Writer := fun d r node off v =>
  match claimant d with
  | some t => if t ≠ r.tenant then (deniedHere d r node off, .denied) else f d r node off v
  | none => f d r node off v

/-- A write of a DPLL setting: refused where the setting it leaves is out of range, else stored; a change of the feedback relocks. -/
def dpllStore : Writer := fun d _ node off v =>
  let k := (off - 0x200) / 16
  let o := 0x10 * k
  let which := (off - 0x200) % 16
  let w := BitVec.ofNat 32 v
  let ctl := if which = 0 then w &&& 0x3F01 else d.reg node (R.PWR_DPLL_CTL + o)
  let frac := if which = 4 then w &&& 0xFFFFFF else d.reg node (R.PWR_DPLL_FRAC + o)
  let div := if which = 8 then w &&& 0x1FFF1FFF else d.reg node (R.PWR_DPLL_DIV + o)
  if !dpllLegal ctl frac div then (d, .badState)
  else
    let d := ((d.setReg node (R.PWR_DPLL_CTL + o) ctl).setReg node (R.PWR_DPLL_FRAC + o) frac).setReg node (R.PWR_DPLL_DIV + o) div
    (if which = 8 then d else d.setFld node (R.PWR_DPLL_STATUS + o) 0 1 0, .ok)

/-- PWR_DPLL_CTL, _FRAC and _DIV. DEDUCED: log entry 42. -/
def dpllWriter : Writer := fun d r node off v =>
  claimedWriter (fun d => dpllClaimant d ((off - 0x200) / 16)) dpllStore d r node off v

/-- PWR_GC_SEL. -/
def gcSelWriter : Writer := fun d r node off v =>
  claimedWriter (fun d => gcClaimant d ((off - R.PWR_GC_SEL) / 4)) storeWriter d r node off v

/-- The setting written: 0 CTL, 1 FRAC, 2 DIV. -/
def execDpllWrite (r : Req) (k : Fin 8) (which : Fin 3) (v : Word) (s : State) : Host.Outcome State Fault Refusal :=
  s.run (fun d => d.regCmd r 0x146 (R.PWR_DPLL_CTL + 0x10 * k.val + 4 * which.val) v dpllWriter)

def execDpllLock (k : Fin 8) (s : State) : Host.Outcome State Fault Refusal :=
  s.run (fun d =>
    if d.flag 0x146 (R.PWR_DPLL_CTL + 0x10 * k.val) 0 then d.setFld 0x146 (R.PWR_DPLL_STATUS + 0x10 * k.val) 0 1 1 else d)

/-- Whether source n of the group clocks runs: a DPLL output only while its DPLL is enabled and locked (R194). -/
def sourceRuns (d : Dev) (n : Nat) : Bool :=
  if n < 16 then d.flag 0x146 (R.PWR_DPLL_CTL + 0x10 * (n / 2)) 0 && d.flag 0x146 (R.PWR_DPLL_STATUS + 0x10 * (n / 2)) 0 else n < 24

/-- A DPLL loses lock, or a GCIN source stops: locked reads 0, and no edge comes from the source until it runs again (R609). -/
def execGroupClockSourceLost (n : Fin 24) (s : State) : Host.Outcome State Fault Refusal :=
  s.run (fun d => if n.val < 16 then d.setFld 0x146 (R.PWR_DPLL_STATUS + 0x10 * (n.val / 2)) 0 1 0 else d)

/-! ### Protection (R200) -/

/-- Islands of a quarter, and those a temperature sensor serves. -/
def quarterIslands (q : Nat) : List Nat := (List.range 256).filter (fun i => quarterOf i = q)
def sensorIslands (n : Nat) : List Nat := (List.range 256).filter (fun i => i % 16 / 2 = n % 8 && i / 16 / 2 = n / 8)

/-- An action on islands: their alarm bit, source k = 6. -/
def islandAlarm (d : Dev) (b : Nat) (l : List Nat) : Dev :=
  l.foldl (fun (d : Dev) i => d.islEvent i 6 10 8 b R.PWR_ISL_ALARM) d

def throttleIslands (d : Dev) (l : List Nat) (f : Island → Island) : Dev := l.foldl (fun (d : Dev) i => d.updIsl i f) d

/-- The quarter's current has stood above limit_q for 1 µs. A limit of 600 A is no protection (R210). -/
def execQuarterOvercurrent (q : Fin 4) (s : State) : Host.Outcome State Fault Refusal :=
  s.run (fun d =>
    if 6000 ≤ d.fld 0x146 (R.PWR_EMERG_CFG + 4 * q.val) 0 16 then d
    else
      let l := quarterIslands q.val
      let d := throttleIslands d l (fun x => { x with throttleOc := true })
      (islandAlarm d 2 l).sticky 0x146 10 22 (2 + q.val) R.PWR_ALARM)

def execOvercurrentRelease (q : Fin 4) (s : State) : Host.Outcome State Fault Refusal :=
  s.run (fun d => throttleIslands d (quarterIslands q.val) (fun x => { x with throttleOc := false }))

def execThermalThrottle (n : Fin 64) (s : State) : Host.Outcome State Fault Refusal :=
  s.run (fun d =>
    let l := sensorIslands n.val
    let d := throttleIslands d l (fun x => { x with throttleTh := true })
    ((islandAlarm d 1 l).setFld 0x146 R.PWR_THERM_STATUS 25 1 1).sticky 0x146 10 22 7 R.PWR_ALARM)

/-- The throttle status bit clears once no island is throttled. -/
def execThermalThrottleRelease (n : Fin 64) (s : State) : Host.Outcome State Fault Refusal :=
  s.run (fun d =>
    let d := throttleIslands d (sensorIslands n.val) (fun x => { x with throttleTh := false })
    if d.islands.any (fun e => e.2.throttleTh) then d else d.setFld 0x146 R.PWR_THERM_STATUS 25 1 0)

/-! ### Bank supplies (R626, R643, R644) -/

/-- Whether a supply lies within R626 for one of the bank type's nominal values: 3 % either way. -/
def vccioOk (n mv : Nat) : Bool :=
  (if bankHp n then [1000, 1100, 1200] else [1200, 1500, 1800]).any (fun v => 97 * v ≤ 100 * mv && 100 * mv ≤ 103 * v)

/-- A reading of VCCIO_n: where it leaves its range while the bank is in use, the bank's event bit is set. DEDUCED: log entry 51. -/
def vccioSample (d : Dev) (n mv : Nat) : Dev :=
  let was := d.flag 0x142 (bankStatus n) 12
  let ok := vccioOk n mv
  let d := (d.setFld 0x142 (bankStatus n) 0 12 (min mv 4095)).setFld 0x142 (bankStatus n) 12 1 (if ok then 1 else 0)
  if was && !ok && (bankUser d n).isSome then d.sticky 0x142 10 27 n R.IO_EVENTS else d

/-- VCCIO_n at a level outside its range. -/
def execVccioOutOfRange (n : Fin 30) (mv : BitVec 12) (s : State) : Host.Outcome State Fault Refusal :=
  s.run (fun d => d.when (!vccioOk n.val mv.toNat) (fun d => vccioSample d n.val mv.toNat))

/-! ### Measurements (R201, R202) -/

/-- Bits of a value held as a signed 16-bit reading. -/
def s16 (v : Nat) : Int := (BitVec.ofNat 16 v).toInt

/-- One island's readings: current in mA, at its quarter's voltage in mV. DESIGN CHOICE: the current alarm fires above its threshold, not at
it. DESIGN CHOICE: log entry 136. -/
def sampleIsland (d : Dev) (i cur : Nat) : Dev :=
  let mv := d.fld 0x146 (R.PWR_RAIL + 4 * quarterOf i) 16 12
  let p := min (cur * mv / 1000) 65535
  let e := (d.isl i).energyFrac + p
  let d := d.updIsl i (fun x => { x with energyFrac := e % 100 })
  let d := (d.setReg i R.PWR_ISL_CURRENT (BitVec.ofNat 32 (min cur 65535))).setReg i R.PWR_ISL_POWER (BitVec.ofNat 32 p)
  let d := d.setReg64 i R.PWR_ISL_ENERGY (d.reg64 i R.PWR_ISL_ENERGY + BitVec.ofNat 64 (e / 100))
  let n := i / 16 / 2 * 8 + i % 16 / 2
  let d := d.setReg i R.PWR_ISL_TEMP (BitVec.ofNat 32 (d.fld 0x146 (R.PWR_TS + 4 * n) 0 16 + n * 65536))
  if d.fld i R.PWR_ISL_CUR_LIMIT 0 16 < min cur 65535 && !d.flag i R.PWR_ISL_ALARM 0 then d.islEvent i 6 10 8 0 R.PWR_ISL_ALARM else d

/-- The tenants' power sums. -/
def tenantPower (d : Dev) (t : Nat) : Nat :=
  ((List.range 256).filter (fun i => d.owner i = t)).foldl (fun a i => a + d.fld i R.PWR_ISL_POWER 0 16) 0

/-- A tenant's power and cap in mW; whether it holds a cap and is above it; whether the device is above its own (R202, R203). -/
def tenPower (d : Dev) (t : Nat) : Nat := d.fld 0x146 (R.PWR_TEN_POWER + 4 * t) 0 20
def tenCap (d : Dev) (t : Nat) : Nat := 100 * d.fld 0x146 (R.PWR_TEN_CAP + 4 * t) 0 16
def tenOver (d : Dev) (t : Nat) : Bool := tenCap d t ≠ 0 && tenCap d t < tenPower d t
def devOver (d : Dev) : Bool := 100 * d.fld 0x146 R.PWR_CAP 0 16 < d.fld 0x146 R.PWR_DEV_POWER 0 20

/-- A bit of PWR_ALARM is set and recorded where its condition holds and it is clear. -/
def alarmIf (d : Dev) (b : Nat) (c : Bool) : Dev := if c && !d.flag 0x146 R.PWR_ALARM b then d.sticky 0x146 10 22 b R.PWR_ALARM else d

/-- The cap alarms: the device above its cap while every tenant is within its own, a tenant above its cap, and such a tenant with a joined
island, over which the governor has no other action (R192, R203). DESIGN CHOICE: they are raised at the measurement (log entry 137). -/
def capAlarms (d : Dev) : Dev :=
  let exceeded := (List.range 16).filter (tenOver d)
  let d := alarmIf d 0 (devOver d && exceeded.isEmpty)
  let d := alarmIf d 1 (!exceeded.isEmpty)
  alarmIf d 8 ((List.range 256).any (fun i => isJoined d i && inIsland (d.isl i).state && exceeded.contains (d.owner i)))

/-- The hottest sensor and its reading. -/
def hottest (d : Dev) : Nat × Int :=
  (List.range 64).foldl (fun a n => let v := s16 (d.fld 0x146 (R.PWR_TS + 4 * n) 0 16); if a.2 < v then (n, v) else a)
    (0, s16 (d.fld 0x146 R.PWR_TS 0 16))

/-- POWER_SAMPLE: what the monitors measured over the last 10 µs. `rails` by rail number: current in 10 mA, voltage in mV; `temps`
by sensor in 0.125 °C; `currents` by island in mA; a rail, sensor or island not given keeps its reading. Rails 16 to 45 are VCCIO_0 to
VCCIO_29 (R643). DESIGN CHOICE: the device's power is the sum over the 11 rails of PWR_RAIL, and warn is set at warn_c itself as at anything
above it. DESIGN CHOICE: log entries 136 and 137. -/
def powerSample (d : Dev) (rails : List (Nat × Nat × Nat)) (temps currents : List (Nat × Nat)) : Dev :=
  let d := rails.foldl (fun (d : Dev) e =>
    if 16 ≤ e.1 && e.1 < 46 then vccioSample d (e.1 - 16) e.2.2
    else if e.1 < 11 then d.setReg 0x146 (R.PWR_RAIL + 4 * e.1) (BitVec.ofNat 32 (min e.2.1 65535 + min e.2.2 4095 * 65536)) else d) d
  let d := temps.foldl (fun (d : Dev) e => if e.1 < 64 then d.setReg 0x146 (R.PWR_TS + 4 * e.1) (BitVec.ofNat 32 (e.2 % 65536)) else d) d
  let cur (i : Nat) : Nat := match currents.find? (fun e => e.1 = i) with | some e => e.2 | none => d.fld i R.PWR_ISL_CURRENT 0 16
  let d := (List.range 256).foldl (fun (d : Dev) i => sampleIsland d i (cur i)) d
  let d := (List.range 16).foldl (fun (d : Dev) t => d.setReg 0x146 (R.PWR_TEN_POWER + 4 * t) (BitVec.ofNat 32 (min (tenantPower d t) (2 ^ 20 - 1)))) d
  let total := (List.range 11).foldl (fun a n => a + d.fld 0x146 (R.PWR_RAIL + 4 * n) 0 16 * d.fld 0x146 (R.PWR_RAIL + 4 * n) 16 12 / 100) 0
  let d := d.setReg 0x146 R.PWR_DEV_POWER (BitVec.ofNat 32 (min total (2 ^ 20 - 1)))
  let d := capAlarms d
  let (n, v) := hottest d
  let d := (d.setFld 0x146 R.PWR_THERM_STATUS 0 16 (BitVec.ofInt 16 v).toNat).setFld 0x146 R.PWR_THERM_STATUS 16 6 n
  let warn := decide ((8 * d.fld 0x146 R.PWR_THERM_CFG 0 8 : Int) ≤ v)
  let d := d.setFld 0x146 R.PWR_THERM_STATUS 24 1 (if warn then 1 else 0)
  alarmIf d 6 warn

def execPowerSample (rails : List (Nat × Nat × Nat)) (temps currents : List (Nat × Nat)) (s : State) : Host.Outcome State Fault Refusal :=
  s.run (fun d => powerSample d rails temps currents)

end Sys2Proof.Machine
end

