-- ==== Sys2Proof/Machine/Image.lean ====
section
/-! DEFINITION. What a catch image holds: the records of slices and memories, lengths, and the layout of header, directory and sections
(R253, R263 to R268). -/

namespace Sys2Proof.Machine

/-! ### Record layouts (R267, R268) -/

/-- A slice's record; `sticky` is ARS_STATUS [4:0]. The SAT and OVF outputs are those presented. -/
def sliceRecord (s : Slice) (sticky : Nat) : BitVec 768 :=
  let o := outStage s
  BitVec.ofNat 768 (packBits
    [(128, s.acc.toNat), (73, s.m.toNat), (64, if s.oreg then s.p.toNat else o.1.toNat),
     (1, bn (if s.oreg then s.satOut else o.2.1)), (1, bn (if s.oreg then s.ovfOut else o.2.2)), (36, s.a.toNat), (36, s.b.toNat),
     (36, s.d.toNat), (64, s.c.toNat), (16, s.flIn.toNat), (16, s.flM.toNat), (16, s.flAcc.toNat), (64, s.min.toNat),
     (64, s.max.toNat), (16, s.minIdx.toNat), (16, s.maxIdx.toNat), (16, s.count.toNat), (1, bn s.valid), (16, s.blkCount.toNat),
     (7, s.runMin.toNat), (7, s.exp.toNat), (1, bn s.expValid), (5, sticky), (16, if s.oreg then s.flP.toNat else 0)])

/-- The field of a record at bit lo, w bits. -/
def rf {w : Nat} (v : BitVec w) (lo n : Nat) : Nat := bitsOf v.toNat lo n

/-- A slice as a record restores it. What the record does not hold (the addend travelling with M, the overflow travelling with ACC
and the indices presented with P where oreg = 1, the exponent pulse) is a free value `u`. DEDUCED: log entry 28. -/
def sliceRestore (s : Slice) (v : BitVec 768) (u : Nat) : Slice :=
  { s.cleared with
    acc := BitVec.ofNat 128 (rf v 0 128), m := BitVec.ofNat 73 (rf v 128 73), p := if s.oreg then BitVec.ofNat 64 (rf v 201 64) else 0,
    satOut := s.oreg && rf v 265 1 = 1, ovfOut := s.oreg && rf v 266 1 = 1, a := BitVec.ofNat 36 (rf v 267 36),
    b := BitVec.ofNat 36 (rf v 303 36), d := BitVec.ofNat 36 (rf v 339 36), c := BitVec.ofNat 64 (rf v 375 64),
    flIn := BitVec.ofNat 16 (rf v 439 16), flM := BitVec.ofNat 16 (rf v 455 16), flAcc := BitVec.ofNat 16 (rf v 471 16),
    min := BitVec.ofNat 64 (rf v 487 64), max := BitVec.ofNat 64 (rf v 551 64), minIdx := BitVec.ofNat 16 (rf v 615 16),
    maxIdx := BitVec.ofNat 16 (rf v 631 16), count := BitVec.ofNat 16 (rf v 647 16), valid := rf v 663 1 = 1,
    blkCount := BitVec.ofNat 16 (rf v 664 16), runMin := BitVec.ofNat 7 (rf v 680 7), exp := BitVec.ofNat 7 (rf v 687 7),
    expValid := rf v 694 1 = 1, flP := BitVec.ofNat 16 (rf v 700 16),
    cM := BitVec.ofNat 64 u, accOvf := if s.oreg then u.testBit 64 else rf v 266 1 = 1, accOvf1 := s.oreg && u.testBit 65,
    minIdxOut := BitVec.ofNat 16 (u / 2 ^ 66), maxIdxOut := BitVec.ofNat 16 (u / 2 ^ 82), expPulse := u.testBit 98 }

/-- A memory's record; `sticky` is QCT_FLAGS [12:8]. -/
def memRecord (b : Bram) (sticky : Nat) : BitVec 768 :=
  let pa := doOf b false
  let pb := doOf b true
  BitVec.ofNat 768 (packBits
    [(144, pa.1.toNat), (144, b.portA.latch.toNat), (144, pb.1.toNat), (144, b.portB.latch.toNat), (2, pa.2.toNat),
     (2, b.portA.latchErr.toNat), (2, pb.2.toNat), (2, b.portB.latchErr.toNat), (13, b.level), (13, b.pending), (13, b.rd), (13, b.wr),
     (13, b.wrSync.getD 0 0), (13, b.wrSync.getD 1 0), (13, b.wrSync.getD 2 0), (13, b.rdSync.getD 0 0), (13, b.rdSync.getD 1 0),
     (13, b.rdSync.getD 2 0), (5, sticky)])

/-- A port as its record gives it: DO as presented stands in the output register where there is one. -/
def portRestore (doreg : Bool) (dout latch e le : Nat) : BramPort :=
  { latch := BitVec.ofNat 144 (if doreg then latch else dout), latchErr := BitVec.ofNat 2 (if doreg then le else e),
    outReg := if doreg then BitVec.ofNat 144 dout else 0, outErr := if doreg then BitVec.ofNat 2 e else 0 }

/-- A memory as its record restores it. Pending entries form one push that is written and awaits its release (R256).
DEDUCED: log entry 40. -/
def memRestore (b : Bram) (v : BitVec 768) : Bram :=
  let reg (p : Bool) : Bool := b.doreg p && !(b.fwft && b.use = 2)
  let pend := rf v 597 13
  let req : Pkt := ⟨0, [], false⟩
  { b.fresh with
    portA := portRestore (reg false) (rf v 0 144) (rf v 144 144) (rf v 576 2) (rf v 578 2),
    portB := portRestore (reg true) (rf v 288 144) (rf v 432 144) (rf v 580 2) (rf v 582 2),
    level := rf v 584 13, pending := pend, rd := rf v 610 13, wr := rf v 623 13,
    wrSync := [rf v 636 13, rf v 649 13, rf v 662 13], rdSync := [rf v 675 13, rf v 688 13, rf v 701 13],
    pushes := if pend = 0 then [] else [⟨pend, pend, req⟩] }

/-- The registered flags of a queue that its restored pointers give (R146, R148). -/
def queueFlags (d : Dev) (i m : Nat) : Dev :=
  let k := i * 96 + m
  let b := d.bram k
  if b.isRing then ringFlags d i m
  else if b.use ≠ 2 then d
  else
    let depth := b.qdepth
    let wr := if b.qmode = 0 then b.wr else b.wrSync.getD (b.syncN - 1) 0
    let rd := if b.qmode = 0 then b.rd else b.rdSync.getD (b.syncN - 1) 0
    let vis := if b.qmode = 0 then b.level else (wr + 2 * depth - b.rd) % (2 * depth)
    let held := if b.qmode = 0 then b.level else (b.wr + 2 * depth - rd) % (2 * depth)
    d.setBram k { b with emptyF := vis = 0, aemptyF := vis ≤ aeThresh d i m, fullF := held ≥ depth, afullF := held ≥ afThresh d i m }

/-! ### Lengths (R263 to R265) -/

/-- Memories of an island in use and in service. -/
def memsInUse (d : Dev) (i : Nat) : List Nat :=
  (listedMems d i).filter (fun m => let b := d.bram (i * 96 + m); b.use ≠ 0 && !b.outOfService)

/-- XO ports with path 6. -/
def pinXo (d : Dev) (i : Nat) : List Nat := portsWith (fun p => let c := xoCfg d i p; c.en && !c.free && c.path = 6)

/-- Longest section of an island: all parts, the uncorrectable map included. DEDUCED: log entry 44. -/
def sectionMax (d : Dev) (i : Nat) : Nat :=
  let words := (strokeXi d i).foldl (fun a p => a + (xiCfg d i p).count * (xiCfg d i p).lat) 0
  let rows := (memsInUse d i).foldl (fun a m => a + 512 * (if (d.bram (i * 96 + m)).ecc then 16 else 18)) 0
  16 + 64 + 32 * 16 + words * 16 + (pinXo d i).length * 32 + 38400 + 48 * 96 + 96 * 96 + rows + 96 * 128 + 16

/-- Up to the next multiple of k. -/
def roundUp (n k : Nat) : Nat := (n + k - 1) / k * k

/-- Bytes of an image's header and directory, padded to a 4 KiB boundary. -/
def dirEnd (n : Nat) : Nat := roundUp (256 + 64 * n) 4096

/-- Longest image of a set of islands: header, directory to a 4 KiB boundary, sections. -/
def imageMax (d : Dev) (l : List Nat) : Nat :=
  l.foldl (fun a i => roundUp (a + sectionMax d i) 16) (dirEnd l.length)

/-- Owner tags of a region, ascending, each with its islands. -/
def byOwner (d : Dev) (l : List Nat) : List (Nat × List Nat) :=
  ((List.range 16).map (fun t => (t, (List.range 256).filter (fun i => l.contains i && d.owner i = t)))).filter (fun e => !e.2.isEmpty)

/-- Where each owner's image goes: from the base, each at a 4 KiB boundary (R253). -/
def imagePlan (d : Dev) (base : Nat) (l : List Nat) : List (Nat × Nat × List Nat) :=
  ((byOwner d l).foldl (fun (acc : List (Nat × Nat × List Nat) × Nat) e =>
    (acc.1 ++ [(e.1, acc.2, e.2)], acc.2 + roundUp (imageMax d e.2) 4096)) ([], roundUp base 4096)).1

/-! ### Layout of a section (R265) -/

/-- The channel words of a section: XI words and path-6 words together. -/
def channelWords (s : ImgSection) : Nat := (s.xi.map (fun e => e.2.length)).sum + s.pins.length

/-- The island record, 64 bytes. -/
def islandRecord (s : ImgSection) : Nat :=
  packBytes [(8, s.n.toNat), (1, s.island),
    (1, bn (!s.ue.isEmpty) + 2 * bn s.wireClock + 4 * bn s.joined + 8 * bn s.logOn),
    (2, ((List.range 96).filter (fun m => s.use.getLsbD m)).length), (4, channelWords s), (12, s.use.toNat), (12, s.ecc.toNat),
    (4, s.logSeq), (20, 0)]

/-- The channel part: a record and its words for each XI port, then for each XO port with path 6. -/
def channelPart (s : ImgSection) : List W128 :=
  (List.range 32).flatMap (fun p =>
    let ws := tget s.xi [] p
    BitVec.ofNat 128 (packBytes [(1, p), (1, ws.length), (2, 0), (2, tget s.expect 0 p), (10, 0)]) :: ws)
  ++ s.pins.flatMap (fun e => [BitVec.ofNat 128 e.1, e.2])

/-- The rows of one memory: 16 bytes each with ecc = 1, 18 with ecc = 0. -/
def rowsPart (s : ImgSection) (m : Nat) : List W128 :=
  let row (r : Nat) : Nat := (tget s.rows 0 (m * 512 + r)).toNat
  if s.ecc.getLsbD m then (List.range 512).map (fun r => BitVec.ofNat 128 (row r))
  else unitsOfNum 576 (packBytes ((List.range 512).map (fun r => (18, row r))))

/-- The uncorrectable map: 128 bytes a memory, bit 2r + h for half h of row r. -/
def ueMap (s : ImgSection) : List W128 := (List.range 768).map (fun k =>
  BitVec.ofNat 128 ((s.ue.filter (fun b => b / 128 = k)).map (fun b => 2 ^ (b % 128))).sum)

/-- The parts of a section in order. -/
def sectionPlain (s : ImgSection) : List W128 :=
  unitsOfNum 4 (islandRecord s) ++ channelPart s
    ++ (List.range 2400).map (fun k => (tget s.ffs 0 (2 * k + 1)) ++ (tget s.ffs 0 (2 * k)))
    ++ (List.range 48).flatMap (fun a => unitsOfNum 6 (tget s.slices 0 a).toNat)
    ++ (List.range 96).flatMap (fun m => unitsOfNum 6 (tget s.mems 0 m).toNat)
    ++ ((List.range 96).filter (fun m => s.use.getLsbD m)).flatMap (rowsPart s)
    ++ (if s.ue.isEmpty then [] else ueMap s)

/-- Bytes of a section as sealed. -/
def sectionBytes (s : ImgSection) : Nat := 16 * ((sectionPlain s).length + 2)

/-! ### Header and directory (R263, R264) -/

/-- Directory entry, 64 bytes. -/
def dirEntry (e : ImgEnt) : Nat :=
  packBytes [(1, e.isl), (1, bn e.drained + 2 * bn e.ue + 4 * bn e.wire), (2, 0), (4, e.len), (8, e.off), (48, e.hash.toNat)]

/-- Bytes 0x00 to 0xBF of the header. -/
def headerBytes (d : Dev) (c : CatchCmd) (p : ImgPlan) (complete : Bool) : Nat :=
  let hashes := p.ents.map (fun e => (48, e.hash.toNat))
  packBytes [(4, 0x43544354), (2, 1), (1, p.tenant), (1, d.devId), (8, c.n.toNat), (8, c.dtime.toNat), (4, p.id),
    (4, bn complete + 2 * bn (p.ents.any (·.ue)) + 4 * bn (p.ents.any (·.wire)) + 8 * bn (p.ents.any (·.joined)) + 16 * bn (p.ents.any (·.logOn))
      + 32 * bn c.stay),
    (32, (p.ents.map (fun e => 2 ^ e.isl)).sum),
    (48, (Config.sha384 (packBytes hashes) (48 * p.ents.length)).toNat),
    (2, stepLetter d + 256 * stepDigit d), (2, p.ents.length), (4, (p.ents.head?.map (·.seq)).getD 0),
    (8, (p.ents.getLast?.map (fun e => e.off + e.len)).getD (dirEnd 0)), (48, (devHash d).toNat), (12, (imgIv p.rnd 0).toNat), (4, 0)]

/-- Header and directory, padded to a 4 KiB boundary, the tag over them under the owner's sealing key. -/
def headUnits (d : Dev) (c : CatchCmd) (p : ImgPlan) (complete : Bool) : List W128 :=
  let head := unitsOfNum 12 (headerBytes d c p complete)
  let dir := p.ents.flatMap (fun e => unitsOfNum 4 (dirEntry e))
  let q := quarterOf ((p.ents.head?.map (·.isl)).getD 0)
  let tag := gcmTagOf (sealKey d q p.tenant) (imgIv p.rnd 0) (head ++ dir) []
  let l := head ++ [tag, 0, 0, 0] ++ dir
  l ++ List.replicate (dirEnd p.ents.length / 16 - l.length) 0

end Sys2Proof.Machine
end

