-- ==== Sys2Proof/Machine/Catch.lean ====
section
/-! DEFINITION. Catch, restore and replay (R252 to R279): what an image holds, the drain, the restore, the input log's writes and
the reading of a log for replay. The bytes a seal unit encrypts are opaque; the model keeps the content of each part and emits it
as it is written. -/

namespace Sys2Proof.Machine

/-! ### Issuing a catch (R252) -/

/-- A principal that may act on an island in a catch or restore: the Owner, its owner, or one its catch_peers names. -/
def peerOk (d : Dev) (tenant i : Nat) : Bool := tenant = 0 || d.owner i = tenant || (d.isl i).setup.catchPeers.getLsbD tenant

/-- The device that XCH_XI_SRC of a port with path 5 names (R251). -/
def xiDevice (d : Dev) (i p : Nat) : Nat := bitsOf (d.reg i (xiOff R.XCH_XI_SRC p)).toNat 25 6

/-- Every stroke XI port's producer lies in the region; one across a link does where its device is one of a crew-wide command's
(R246, R252): XCH_XI_SRC names the producer's device and link channel, not its island. DEDUCED: log entry 45. -/
def closedUnder (d : Dev) (l : List Nat) (crew : Option (List Nat)) : Bool :=
  l.all (fun i => (strokeXi d i).all (fun p =>
    let c := xiCfg d i p
    if c.path = 5 then (match crew with | some devs => devs.contains (xiDevice d i p) | none => false) else l.contains c.node))

def catchRefused (d : Dev) (tenant : Nat) (l : List Nat) (limit : Nat) (crew : Option (List Nat)) : Bool :=
  l.isEmpty || !closedUnder d l crew
    || l.any (fun i => !(groupIslands d (d.isl i).setup.groupId).all (fun j => l.contains j))
    || l.any (fun i => !peerOk d tenant i)
    || limit < ((byOwner d l).map (fun e => imageMax d e.2)).sum
    || l.any (fun i => let x := d.isl i; x.state = .idle || x.state = .loaded || x.state = .sleep || x.state = .evicting
                       || x.state = .catching || x.drainActive)
    || l.any (fun i => !d.flag (sealNode i) R.CAT_SEAL_KEYS (d.owner i))
    || d.regions.any (fun c => c.ended.isNone && c.islands.any (fun i => l.contains i))

/-- Step 1 of R254: refused before any island is feathered, or the region's islands feather at one stroke. -/
def catchStart (d : Dev) (tenant : Nat) (l : List Nat) (base limit : Nat) (stay : Bool) (origin : Origin) (crew : Option (List Nat)) : Dev × Option Status :=
  if catchRefused d tenant l limit crew then (d, some .badState)
  else
    let c : CatchCmd := { restore := false, tenant := tenant, islands := l, base := base, origin := origin, stay := stay, crew := crew.isSome }
    (regionStart { d with catches := d.catches ++ [c] } .catchAt tenant l 0 origin crew.isSome, none)

/-! ### The shadow copy (R255, R256) -/

/-- quiet: FEATHERED with every word sent acknowledged (R220). -/
def quiet (d : Dev) (i : Nat) : Bool :=
  (d.isl i).state = .feathered && (d.isl i).xo.all (fun e => e.2.undel = 0)

/-- wire_clock: a pair, a memory port or a slice on a wire (R83, R127, R172). -/
def islWire (d : Dev) (i : Nat) : Bool :=
  (configuredRows d i).any (fun r => (List.range 50).any (fun c => (List.range 16).any (fun p => pairFld d i r c p 0 2 = 2)))
    || (listedMems d i).any (fun m => (d.bram (i * 96 + m)).wireClock) || (listedSlices d i).any (fun a => (d.slice (i * 48 + a)).ckmode = 2)

/-- A set of numbers below 96 as a bitmap. -/
def bitmap96 (l : List Nat) : BitVec 96 := l.foldl (fun (a : BitVec 96) n => a ||| BitVec.ofNat 96 (2 ^ n)) 0

/-- Entries of a table with keys in [lo, lo + n), keyed from 0. -/
def slot {α : Type} (t : Tab α) (lo n : Nat) : Tab α := (t.filter (fun e => lo ≤ e.1 && e.1 < lo + n)).map (fun e => (e.1 - lo, e.2))

/-- The section of an island as it stands, with no row drained. -/
def sectionOf (d : Dev) (i logSeq : Nat) : ImgSection :=
  let x := d.isl i
  let n := x.count.toNat
  let used := memsInUse d i
  { island := i, n := x.count, wireClock := islWire d i, joined := !strokeMode d i, logOn := logEn d i,
    use := bitmap96 used, ecc := bitmap96 (used.filter (fun m => (d.bram (i * 96 + m)).ecc)), logSeq := logSeq,
    xi := (strokeXi d i).map (fun p =>
      (p, ((d.xi i p).buf.filter (fun w => n ≤ w.1 && w.1 < n + (xiCfg d i p).lat)).map (·.2))),
    expect := (strokeXi d i).map (fun p => (p, (n + (xiCfg d i p).lat) % 65536)),
    pins := (pinXo d i).map (fun p => (p, (((d.xo i p).last.map (·.2)).headD 0))),
    ffs := slot d.ffs (i * 4800) 4800,
    slices := (listedSlices d i).map (fun a => (a, sliceRecord (d.slice (i * 48 + a)) (d.fld i (R.ARS_STATUS + a * 0x40) 0 5))),
    mems := used.map (fun m => (m, memRecord (d.bram (i * 96 + m)) (d.fld i (R.QCT_FLAGS + m * 0x40) 8 5))),
    rows := [], ue := [], hash := x.hash, drained := false, tagOk := true }

/-- One island's copy, with its CATCH_MARK record and the close of the log block (R273, R274). -/
def copyIsland (d : Dev) (i catchId : Nat) : Dev :=
  let x := d.isl i
  let seq := (d.reg i R.CAT_LOG_SEQ).toNat
  let on := logEn d i && strokeMode d i
  let sec := sectionOf d i (if on then seq else 0)
  let d := if on then
      let d := logRecord d i 1 0 x.count.toNat (BitVec.ofNat 128 (catchId % 2 ^ 32 + x.count.toNat * 2 ^ 64)) []
      (closeBlock d i x.count.toNat).updIsl i (fun x => { x with log := { x.log with forcePin := true } })
    else d
  let d := (listedMems d i).foldl (fun (d : Dev) m => d.setBram (i * 96 + m) { (d.bram (i * 96 + m)) with drained := 0 }) d
  d.updIsl i (fun x => { x with shadow := some { catchId := catchId, sec := sec }, drainActive := true })

/-- The region command of a catch has brought its islands to one stroke. -/
def catchRegion (d : Dev) (c : CatchCmd) : Option RegionCmd :=
  d.regions.find? (fun r => r.op = .catchAt && r.origin = c.origin && r.islands = c.islands)

def readyToCopy (d : Dev) (c : CatchCmd) : Bool :=
  !c.restore && !c.copied && c.islands.all (fun i => quiet d i) &&
    (match catchRegion d c with | some r => regionDone d r && r.ended.isNone | none => false)

/-- The directory of an image as it stands at step 4: every section at its reserved place (R264). -/
def imageEnts (d : Dev) (l : List Nat) : List ImgEnt :=
  (l.foldl (fun (acc : List ImgEnt × Nat) i =>
    match (d.isl i).shadow with
    | some w =>
      let s := w.sec
      let e : ImgEnt := { isl := i, wire := s.wireClock, joined := s.joined, logOn := s.logOn, ue := false, seq := s.logSeq, hash := s.hash,
                          off := acc.2, len := sectionMax d i, drained := false }
      (acc.1 ++ [e], roundUp (acc.2 + sectionMax d i) 16)
    | none => acc) ([], dirEnd l.length)).1

/-- Who is told of writes of a catch's images. -/
def CatchCmd.use (c : CatchCmd) : SealUse := if c.restore then .restore c.origin c.islands else .image c.origin c.islands

/-- The seal unit of the image's first island writes its header and directory, with the issuer's tenant field (R253, R254).
DESIGN CHOICE: log entry 46. -/
def writeHead (d : Dev) (c : CatchCmd) (p : ImgPlan) (complete : Bool) : Dev :=
  sealWrite d (quarterOf ((p.ents.head?.map (·.isl)).getD 0)) p.tenant c.tenant p.addr (headUnits d c p complete) false c.use

/-- Steps 3 and 4 on this device: counters advance, every island copies; each image draws a value for its IVs, and its provisional header
and directory are written with complete = 0 (R254, R263, R264, R266). DEDUCED: log entry 45. -/
def catchCopy (d : Dev) (c : CatchCmd) : Dev × CatchCmd :=
  let n := match catchRegion d c with | some r => r.n.getD 0 | none => 0
  let plan := imagePlan d c.base c.islands
  let d := plan.foldl (fun (d : Dev) e => { d with catchIds := tput d.catchIds 0 e.1 ((tget d.catchIds 0 e.1 + 1) % 2 ^ 32) }) d
  let d := plan.foldl (fun (d : Dev) e => e.2.2.foldl (fun (d : Dev) i => copyIsland d i (tget d.catchIds 0 e.1)) d) d
  let images : List ImgPlan := plan.zipIdx.map (fun (e, k) =>
    { tenant := e.1, addr := e.2.1, id := tget d.catchIds 0 e.1, rnd := BitVec.ofNat 64 (Config.freeNat (d.free + k)), ents := imageEnts d e.2.2 })
  let d := { d with free := d.free + plan.length }
  let c := { c with copied := true, n := n, images := images, dtime := d.dtime }
  (images.foldl (fun (d : Dev) p => writeHead d c p false) d, c)

/-- Replace entry k of the catches. -/
def setCatch (d : Dev) (k : Nat) (c : CatchCmd) : Dev := { d with catches := d.catches.set k c }

def execCatchShadowCopy (k : Nat) (s : State) : Host.Outcome State Fault Refusal :=
  s.run (fun d =>
    match d.catches[k]? with
    | some c =>
      -- a crew-wide catch copies at its issuer's COPY message
      if readyToCopy d c && !c.crew then (let (d, c) := catchCopy d c; setCatch d k c) else d
    | none => d)

/-- The islands' part of completion: last catch, event, source k = 2 (R254 steps 6 and 7). -/
def catchDone (d : Dev) (c : CatchCmd) : Dev :=
  c.images.foldl (fun (d : Dev) p => p.ents.foldl (fun (d : Dev) e =>
    ((d.setReg64 e.isl R.CAT_LAST_STROKE c.n).setReg e.isl R.CAT_LAST_ID (BitVec.ofNat 32 p.id)).islEvent e.isl 2 6 3 0 R.CAT_EVENTS) d) d

/-- The bounds of a catch's region return to their values before the command; joined groups stay gated (R254 step 5, R278). -/
def catchUnbind (d : Dev) (c : CatchCmd) : Dev :=
  let mine (r : RegionCmd) : Bool := r.op = .catchAt && r.origin = c.origin && r.islands = c.islands
  let saved := ((d.regions.find? (fun r => mine r && r.ended.isNone)).map (·.saved)).getD []
  let d := { d with regions := d.regions.filter (fun r => !mine r) }
  if c.stay then d
  else (saved.filter (fun e => strokeMode d e.1)).foldl (fun (d : Dev) e => unfeather (setBound d e.1 c.tenant e.2) e.1) d

/-- Step 5: the issuer's bound returns to its value before the command, unless the catch stays feathered; joined groups stay gated
until their own drain has ended (R254, R260). -/
def catchResume (d : Dev) (k : Nat) (c : CatchCmd) : Dev := setCatch (catchUnbind d c) k { c with resumed := true }

def execCatchResume (k : Nat) (s : State) : Host.Outcome State Fault Refusal :=
  s.run (fun d =>
    match d.catches[k]? with
    | some c => if c.copied && !c.resumed && !c.crew then catchResume d k c else d
    | none => d)

/-! ### The drain (R257 to R261) -/

/-- Put a row into the section: each half corrected where it can be; an uncorrectable one as stored, and marked. -/
def drainRow (d : Dev) (i m r : Nat) (row : Row) : Dev :=
  let ecc := (d.bram (i * 96 + m)).ecc
  let (v, k0, k1) := decodeRow ecc row
  let d := memReport2 d i m r 4 k0 k1
  let d := if k0 = 2 ∨ k1 = 2 then d.islEvent i 2 6 3 7 R.CAT_EVENTS else d
  let stored : Row := if ecc then (v.setWidth 128).setWidth 144 else v
  let bad := (if k0 = 2 then [m * 1024 + 2 * r] else []) ++ (if k1 = 2 then [m * 1024 + 2 * r + 1] else [])
  d.updIsl i (fun x => { x with shadow := x.shadow.map (fun s =>
    { s with sec := { s.sec with rows := tput s.sec.rows 0 (m * 512 + r) stored, ue := s.sec.ue ++ bad } }) })

/-- Undrained rows of memories in use, ascending. -/
def nextUndrained (d : Dev) (i : Nat) : Option (Nat × Nat) :=
  (memsInUse d i).findSome? (fun m => ((List.range 512).find? (fun r => undrained d i m r)).map (fun r => (m, r)))

/-- The drain of an island's parts and rows waits while its owner has preserve entries or log blocks for the seal unit of the quarter
(R262). -/
def drainWaits (d : Dev) (i : Nat) : Bool :=
  let near (j : Nat) : Bool := quarterOf j = quarterOf i && d.owner j = d.owner i && j ≠ i
  d.islands.any (fun e => near e.1 && (match e.2.shadow with | some w => !w.preserve.isEmpty | none => false))
    || d.sealQ.any (fun j => j.q = quarterOf i && j.owner = d.owner i && isLogUse j.use)

/-- One turn of the seal unit: the rows a held stroke waits for, then filled preserve entries, then the shadow parts, then rows in
ascending order (R258, R259). -/
def drainNext (d : Dev) (i : Nat) : Dev :=
  let x := d.isl i
  match x.shadow with
  | none => d
  | some s =>
    let direct (m r : Nat) : Dev :=
      let d := writeBacks d i m
      let (v, d) := if s.spoiled.contains (m * 512 + r) then d.draw else ((d.row (i * 96 + m) r).toNat, d)
      drainRow (markDrained d i m r) i m r (BitVec.ofNat 144 v)
    let held := if x.preserveHold then undrainedWrites d i (designClocks d i x.count.toNat) else []
    match held with
    | k :: _ => direct (k / 512) (k % 512)
    | [] =>
      match s.preserve with
      | (m, r, row) :: rest =>
        dbgRetryAll (drainRow (d.updIsl i (fun x => { x with shadow := some { s with preserve := rest } })) i m r row) i
      | [] =>
        if drainWaits d i then d
        else if s.part < 5 then d.updIsl i (fun x => { x with shadow := some { s with part := s.part + 1 } })
        else
          match nextUndrained d i with
          | some (m, r) => direct m r
          | none => d

/-- Every row drained and the preserve buffer empty. -/
def drained (d : Dev) (i : Nat) : Bool :=
  match (d.isl i).shadow with
  | some s => s.preserve.isEmpty && s.part = 5 && (nextUndrained d i).isNone
  | none => false

/-- The drain of an island ends: the shadow is let go, and it leaves CATCHING. -/
def dropShadow (d : Dev) (i : Nat) : Dev :=
  let d := d.updIsl i (fun x => { x with shadow := none, drainActive := false, preserveHold := false })
  dbgRetryAll (if (d.isl i).state = .catching then d.goState i .running else d) i

/-- Joined groups among some islands run again once every island of the group has ended its drain (R260). -/
def regroup (d : Dev) (stay : Bool) (l : List Nat) : Dev :=
  if stay then d
  else ((l.map (fun i => (d.isl i).setup.groupId)).eraseDups.filter (fun g => g ≠ 0)).foldl (fun (d : Dev) g =>
    if (groupIslands d g).all (fun i => !(d.isl i).drainActive) then gateGroup d g false else d) d

/-- The catch stops with a status: what still waits to be written never is, every shadow is let go, the images stay incomplete, and the
islands run on (R278). -/
def catchStop (d : Dev) (c : CatchCmd) (st : Status) : Dev :=
  let held := if c.copied then c.islands.filter (fun i => (d.isl i).shadow.isSome) else c.islands
  let d := held.foldl (fun (d : Dev) i => if (d.isl i).shadow.isSome then dropShadow d i else d) (sealDrop d (fun u => decide (u = c.use)))
  let d := if c.resumed then d else catchUnbind d c
  (regroup { d with catches := d.catches.filter (fun q => q ≠ c) } c.stay held).finish c.origin st 0

/-- A catch moves on once its writes have been answered: with a failure it stops; every section written, its final headers go out with
complete = 1; those written, it completes OK (R254, R278). A restore whose image could not be read fails.
DESIGN CHOICE: log entry 46; DEDUCED: log entry 141. -/
def catchSettle (fail : Dev → CatchCmd → Status → Dev) (d : Dev) (k : Nat) : Dev :=
  match d.catches[k]? with
  | none => d
  | some c =>
    match c.bad with
    | some st => if c.restore then fail d c st else catchStop d c st
    | none =>
      if c.restore || !c.resumed || !c.islands.all (fun j => c.ended.contains j) || sealBusy d c.use then d
      else if !c.final then c.images.foldl (fun (d : Dev) p => writeHead d c p true) (setCatch d k { c with final := true })
      else { catchDone d c with catches := d.catches.filter (fun q => q ≠ c) }.finish c.origin .ok c.n

/-- An island's entry of its image once its section has been drained. -/
def ImgPlan.drained (p : ImgPlan) (i : Nat) (ue : Bool) : ImgPlan :=
  { p with ents := p.ents.map (fun e => if e.isl = i then { e with drained := true, ue := ue } else e) }

/-- DRAIN_DONE: every row of an island is drained: its section is sealed under the owner's key and waits to be written at its place,
with the issuer's tenant field; the island leaves CATCHING (R253, R254, R258, R265). How the writes end, their responses tell. -/
def drainDone (d : Dev) (i : Nat) : Dev :=
  match d.catches.findIdx? (fun c => !c.restore && c.copied && c.islands.contains i && !c.ended.contains i), (d.isl i).shadow with
  | some k, some s =>
    match d.catches[k]? with
    | none => d
    | some c =>
      if !drained d i then d
      else
        let images := c.images.map (fun p => p.drained i (!s.sec.ue.isEmpty))
        let send (d : Dev) (p : ImgPlan) : Dev :=
          match p.ents.zipIdx.find? (fun e => e.1.isl = i) with
          | some (e, j) =>
            sealWrite d (quarterOf i) p.tenant c.tenant (p.addr + e.off)
              (sealUnits (sealKey d (quarterOf i) p.tenant) (imgIv p.rnd (j + 1)) (sectionPlain s.sec)) true c.use
          | none => d
        regroup (setCatch (dropShadow (c.images.foldl send d) i) k { c with ended := c.ended ++ [i], images := images }) c.stay [i]
  | _, _ => d

/-- DRAIN_DONE happens with status OK: a failure is told by the responses. DESIGN CHOICE: log entry 151. -/
def execDrainDone (i : Isl) (st : Status) (s : State) : Host.Outcome State Fault Refusal :=
  s.run (fun d => d.when (decide (st = .ok)) (fun d => drainDone d i.val))

/-- The seal unit has drained enough rows: the held stroke goes on (R259). -/
def execPreserveHoldEnd (i : Isl) (waited : Nat) (s : State) : Host.Outcome State Fault Refusal :=
  s.run (fun d =>
    if (d.isl i.val).preserveHold && !(preserveFree d i.val < (undrainedWrites d i.val (designClocks d i.val (d.isl i.val).count.toNat)).length) then
      strokeCommit d i.val waited
    else d)

/-! ### Restore (R269 to R271) -/

/-- The first check that refuses a restore. -/
def restoreRefused (d : Dev) (tenant : Nat) (m : CatchImage) (targets : List Nat) : Option Status :=
  if tenant ≠ 0 && tenant ≠ m.tenant && !(targets.all (fun i => (d.isl i).setup.catchPeers.getLsbD tenant)) then some .denied
  else if targets.any (fun i => !d.flag (sealNode i) R.CAT_SEAL_KEYS m.tenant) then some .badState
  else if !m.hdrOk then some .authFail
  else if !m.complete then some .badState
  else if m.stepping % 256 ≠ stepLetter d then some .badState
  else if targets.any (fun i => let x := d.isl i; !(x.state = .loaded || x.state = .feathered) || x.drainActive || x.prBusy) then some .badState
  else if targets.any (fun i => d.owner i ≠ m.tenant) then some .badState
  else if (targets.zip m.sections).any (fun e => (d.isl e.1).hash ≠ e.2.hash) then some .badState
  else none

/-- The target of each directory entry: the same island number unless named. -/
def targetsOf (m : CatchImage) (named : List Nat) : List Nat := if named.isEmpty then m.sections.map (·.island) else named

/-- Both staging queues and all up FIFOs of an island's engine ports are emptied (R308). -/
def emptyPorts (d : Dev) (i : Nat) : Dev :=
  let f (q : PortSet) : PortSet := { q with staging := [], taken := 0, up := [], upPend := [] }
  d.updIsl i (fun x => { x with ps0 := f x.ps0, ps1 := f x.ps1 })

/-- The sections of a restore's image wait to be read from their places, by the seal unit of each target, with the issuer's tenant field
(R253, R269). DEDUCED: log entry 141. -/
def restoreReads (d : Dev) (c : CatchCmd) (m : CatchImage) : Dev :=
  ((c.islands.zip m.sections).foldl (fun (acc : Dev × Nat) e =>
    (sealRead acc.1 (quarterOf e.1) m.tenant c.tenant (c.base + acc.2) (sectionBytes e.2 / 16) c.use,
      roundUp (acc.2 + sectionMax d e.1) 16)) (d, dirEnd m.sections.length)).1

/-- A restore command: refused, or its islands enter RESTORING, their wire registers clear, and the image at `base` is read.
DESIGN CHOICE: log entry 46. -/
def restoreStart (d : Dev) (tenant : Nat) (m : CatchImage) (base : Nat) (named : List Nat) (replay : Bool) (fin : Option W64)
    (origin : Origin) (crew : Bool) : Dev × Option Status :=
  let l := targetsOf m named
  match restoreRefused d tenant m l with
  | some st => (d, some st)
  | none =>
    let d := l.foldl (fun (d : Dev) i => (emptyPorts (clearWires d i) i).goState i .restoring) d
    let d := match fin with | some e => l.foldl (fun (d : Dev) i => d.setReg64 i R.CAT_REPLAY_END e) d | none => d
    let c : CatchCmd :=
      { restore := true, tenant := tenant, islands := l, base := base, origin := origin, replay := replay, crew := crew, n := m.n,
        image := some m }
    (restoreReads { d with catches := d.catches ++ [c] } c m, none)

/-- A restored row: with ecc = 1 check bits are computed, a half marked uncorrectable takes its check byte XOR 0x03 (R270). -/
def restoreRow (ecc : Bool) (v : Row) (bad0 bad1 : Bool) : Row :=
  if !ecc then v
  else
    let x0 := halfData v 0
    let x1 := halfData v 1
    rowOf x0 x1 (if bad0 then checkByte x0 ^^^ 0x03#8 else checkByte x0) (if bad1 then checkByte x1 ^^^ 0x03#8 else checkByte x1)

/-- Flip-flops, slices and memories of a section into island i. -/
def restoreContent (d : Dev) (i : Nat) (s : ImgSection) : Dev :=
  let d := { d with
    ffs := s.ffs.foldl (fun t e => tput t 0 (i * 4800 + e.1) e.2) (tdrop d.ffs (keyIn (i * 4800) 4800)),
    ffUpset := d.ffUpset.filter (fun k => !(k / 64 / 4800 = i)),
    rows := tdrop d.rows (fun k => keyIn (i * 49152) 49152 k && s.use.getLsbD ((k - i * 49152) / 512)) }
  let d := (listedSlices d i).foldl (fun (d : Dev) a =>
    let v := tget s.slices 0 a
    let (u, d) := d.draw
    (d.setSlice (i * 48 + a) (sliceRestore (d.slice (i * 48 + a)) v u)).setReg i (R.ARS_STATUS + a * 0x40) (BitVec.ofNat 32 (rf v 695 5))) d
  let d := (listedMems d i).foldl (fun (d : Dev) m =>
    if !s.use.getLsbD m then d
    else
      let v := tget s.mems 0 m
      let d := d.setBram (i * 96 + m) (memRestore (d.bram (i * 96 + m)) v)
      queueFlags (d.setFld i (R.QCT_FLAGS + m * 0x40) 8 5 (rf v 714 5)) i m) d
  let put (d : Dev) (k : Nat) (v : Row) : Dev :=
    d.setRow (i * 96 + k / 512) (k % 512)
      (restoreRow ((d.bram (i * 96 + k / 512)).ecc) v (s.ue.contains (k / 512 * 1024 + 2 * (k % 512)))
        (s.ue.contains (k / 512 * 1024 + 2 * (k % 512) + 1)))
  s.rows.foldl (fun (d : Dev) e => put d e.1 e.2) d

/-- Channel words and credit of a section (R217, R219, R270). DEDUCED: log entry 41. -/
def restoreChannels (d : Dev) (i : Nat) (s : ImgSection) : Dev :=
  let n := s.n.toNat
  let d := (List.range 32).foldl (fun (d : Dev) p =>
    let c := xiCfg d i p
    let d := if c.en && !c.free && c.path ≠ 6 then
        let ws := tget s.xi [] p
        d.setXi i p { buf := ws.zipIdx.map (fun w => (n + w.2 / c.count, w.1)), expect := n + c.lat, preUntil := c.lat }
      else d.setXi i p {}
    let o := xoCfg d i p
    d.setXo i p (if o.en && !o.free then { outst := if o.path = 6 then 0 else o.count * min o.lat n, last := if o.path = 6 then [(0, tget s.pins 0 p)] else [] } else {})) d
  if n = 0 then d
  else (pinXo d i).foldl (fun (d : Dev) p => drivePins d (xoCfg d i p).bank (tget s.pins 0 p)) d

/-- One island takes its section and enters FEATHERED at N. -/
def restoreIsland (d : Dev) (c : CatchCmd) (m : CatchImage) (i : Nat) (s : ImgSection) : Dev :=
  let d := restoreChannels (restoreContent d i s) i s
  let rp : Option Replay := if c.replay && strokeMode d i then
      some { markId := m.catchId, markSeq := s.logSeq, nextBlk := d.fld i R.CAT_LOG_TAIL 0 24, fin := d.reg64 i R.CAT_REPLAY_END,
             srcIsland := s.island, srcDevice := m.device }
    else none
  let d := d.updIsl i (fun x => { x with count := s.n, phase := 5, replay := rp, logWait := false, srSet := [], pinWords := [],
                                         monDone := false, waitReported := false, log := { x.log with forcePin := true } })
  let d := setBound d i c.tenant s.n
  let d := (rings d i).foldl (fun (d : Dev) r => d.setFld i (R.QCT_CTL + r * 0x40) 11 1 (bn c.replay)) d
  let d := (d.setReg64 i R.CAT_LAST_STROKE s.n).setReg i R.CAT_LAST_ID (BitVec.ofNat 32 m.catchId)
  let d := d.goState i .feathered
  let d := (d.orReg i R.CAT_EVENTS (bit 1)).cause i 2
  d.eventP i 0 6 3 1 (d.owner i) (d.reg i R.CAT_EVENTS) (BitVec.ofNat 32 m.catchId) 0 0

/-- An island of a restore that failed starts afresh, as at START, FEATHERED at stroke 0 (R271): initial values, MEMORY_INIT or zeros in
its rows (R158), preload words in its XI ports (R217). -/
def reinitIsland (d : Dev) (tenant i : Nat) : Dev :=
  let l := (d.isl i).inits
  let d := { d with rows := tdrop d.rows (keyIn (i * 49152) 49152) }
  let d := initFfs (initMems (initSlices d i (fun _ => true)) i (fun _ => true)) i (fun _ => true)
  let d := (l.filter (fun s => s.1 = 6 && memTarget s.2 < 96)).foldl (fun (d : Dev) s => applyMemInit d i s.2) d
  let pre := ((l.filter (fun s => s.1 = 7)).getLast?.map (fun s => preloads s.2)).getD []
  let d := (List.range 32).foldl (fun (d : Dev) p =>
    let c := xiCfg d i p
    let ws := ((pre.find? (fun e => e.1 = p)).map (·.2)).getD []
    (d.setXi i p (if c.en && !c.free then freshXi 0 c ws else {})).setXo i p {}) d
  let d := d.updIsl i (fun x => { x with count := 0, phase := 5, replay := none, srSet := [], pinWords := [] })
  (setBound ((d.goState i .feathered).islEvent i 2 6 3 2 R.CAT_EVENTS) i tenant 0)

/-- A restore ends without success (R271): AUTH_FAIL or ABORTED. -/
def restoreFail (d : Dev) (c : CatchCmd) (st : Status) : Dev :=
  let d := (c.islands.filter (fun i => (d.isl i).state = .restoring)).foldl (fun (d : Dev) i => regionRejoin (reinitIsland d c.tenant i) i)
    (sealDrop d (fun u => decide (u = c.use)))
  { d with catches := d.catches.filter (fun q => q ≠ c) }.finish c.origin st 0

/-- RESTORE_DONE: the seal units have written every section. DEDUCED: log entry 45. -/
def restoreDone (d : Dev) (k : Nat) : Dev :=
  match d.catches[k]? with
  | some c =>
    match c.restore, c.image with
    | true, some m =>
      if sealBusy d c.use || c.bad.isSome then d
      else if m.sections.all (·.tagOk) then
        let d := (c.islands.zip m.sections).foldl (fun (d : Dev) e => restoreIsland d c m e.1 e.2) d
        let d := { d with catches := d.catches.filter (fun q => q ≠ c) }
        (c.islands.foldl (fun (d : Dev) i => regionRejoin d i) d).finish c.origin .ok m.n
      else
        let bad := (c.islands.zip m.sections).filter (fun e => !e.2.tagOk)
        restoreFail (bad.foldl (fun (d : Dev) e => d.sticky (sealNode e.1) 6 20 0 R.CAT_SEAL_ERR) d) c .authFail
    | _, _ => d
  | none => d

def execRestoreDone (k : Nat) (s : State) : Host.Outcome State Fault Refusal := s.run (fun d => restoreDone d k)

/-! ### The log's block writes (R272, R275) -/

/-- Logging stops after a failed write: the failed block and later inputs go unlogged. DEDUCED: log entry 47. -/
def logLost (d : Dev) (i : Nat) (b : LogBlk) (st : Status) : Dev :=
  let mine : SealUse → Bool
    | .log j _ => j = i
    | _ => false
  let d := ((sealDrop d mine).setFld i R.CAT_LOG_CTL 0 1 0).updIsl i (fun x => { x with
    logHold := false, log := { x.log with openRecs := [], staging := [], failed := none, sinceClose := 0, closeDue := none } })
  let d := (d.orReg i R.CAT_EVENTS (bit 9)).cause i 2
  d.eventP i 0 6 3 9 (d.owner i) (d.reg i R.CAT_EVENTS) (BitVec.ofNat 32 st.code) (BitVec.ofNat 32 b.num)
    (BitVec.ofNat 32 ((b.recs.head?.map (·.stroke)).getD b.covered))

/-- Closes that waited for room are made. -/
def logGo (d : Dev) (i : Nat) : Dev := logFlush d i ((d.isl i).log.openRecs.length + 1)

/-- The status of the block whose writes are looked at: the one being retried, or the oldest staged. -/
def logWritten (d : Dev) (i : Nat) : Option Status :=
  ((d.isl i).log.failed.or (d.isl i).log.staging.head?).map (fun b => b.bad.getD .ok)

/-- LOG_BLOCK_WRITE_DONE: the writes of the block being retried, or of the oldest staged block, have all been answered (R275). -/
def logWriteDone (d : Dev) (i : Nat) : Dev :=
  let l := (d.isl i).log
  match l.failed, l.staging with
  | some b, _ =>
    if sealBusy d (.log i b.num) || b.bad.isSome then d
    else logGo (d.updIsl i (fun x => { x with logHold := false, log := { x.log with failed := none } })) i
  | none, b :: rest =>
    if sealBusy d (.log i b.num) then d
    else match b.bad with
      | none => logGo (d.updIsl i (fun x => { x with log := { x.log with staging := rest } })) i
      | some st =>
        if d.flag i R.CAT_LOG_CTL 3 then
          d.updIsl i (fun x => { x with logHold := true, log := { x.log with staging := rest, failed := some b, failedSt := st } })
        else logLost d i b st
  | none, [] => d

/-- LOG_BLOCK_WRITE_DONE, with the status that the writes' responses gave. DESIGN CHOICE: log entry 151. -/
def execLogBlockWriteDone (i : Isl) (st : Status) (s : State) : Host.Outcome State Fault Refusal :=
  s.run (fun d => d.when (decide (logWritten d i.val = some st)) (fun d => logWriteDone d i.val))

/-- LOG_RETRY: every 100 µs of a hold the seal unit writes the failed block again. -/
def logRetry (d : Dev) (i : Nat) : Dev :=
  match (d.isl i).log.failed with
  | some b =>
    if sealBusy d (.log i b.num) then d
    else writeBlock (d.updIsl i (fun x => { x with log := { x.log with failed := some { b with bad := none } } })) i b
  | none => d

def execLogRetry (i : Isl) (s : State) : Host.Outcome State Fault Refusal := s.run (fun d => logRetry d i.val)

/-- A write of CAT_LOG_CTL (R272, R279). -/
def logCtlWriter : Writer := fun d _ i off v =>
  let x := d.isl i
  let w := BitVec.ofNat 32 v
  let en := w.getLsbD 0
  let was := logEn d i
  match x.log.failed with
  | some b =>
    if was && !en then (logLost (d.setReg i off ((w &&& 0xA) ||| 1)) i b x.log.failedSt, .ok)
    else if x.state = .loaded || x.state = .feathered then (d.setReg i off (w &&& 0xB), .ok) else (d, .badState)
  | none =>
    if !(x.state = .loaded || x.state = .feathered) then (d, .badState)
    else if en && d.fld i R.CAT_LOG_SIZE 0 24 ≤ 1 then (d, .badState)
    else
      let d := if was && (!en || w.getLsbD 2) && !x.log.openRecs.isEmpty then closeBlock d i x.count.toNat else d
      (d.setReg i off (w &&& 0xB), .ok)

def execLogEnable (r : Req) (i : Isl) (v : Word) (s : State) : Host.Outcome State Fault Refusal :=
  s.run (fun d => d.regCmd r i.val R.CAT_LOG_CTL (v ||| 1) logCtlWriter)
def execLogDisable (r : Req) (i : Isl) (v : Word) (s : State) : Host.Outcome State Fault Refusal :=
  s.run (fun d => d.regCmd r i.val R.CAT_LOG_CTL (v &&& ~~~1) logCtlWriter)
def execLogClose (r : Req) (i : Isl) (v : Word) (s : State) : Host.Outcome State Fault Refusal :=
  s.run (fun d => d.regCmd r i.val R.CAT_LOG_CTL (v ||| 4) logCtlWriter)

/-- CAT_LOG_BASE and CAT_LOG_SIZE are written only while LOADED or FEATHERED; the base is a 52-bit address, 4 KiB aligned (R279). -/
def logPlaceWriter : Writer := fun d r i off v =>
  let s := (d.isl i).state
  let v := if off = R.CAT_LOG_BASE then v / 4096 % 2 ^ 40 * 4096 else v
  if s = .loaded || s = .feathered then storeWriter d r i off v else (d, .badState)

/-- CAT_LOG_TAIL: blocks are freed, and a hold for log space ends where it no longer applies. -/
def logTailWriter : Writer := fun d _ i off v =>
  let d := logGo (d.setReg i off (BitVec.ofNat 32 (v % 2 ^ 24))) i
  (if logBlocked d i then d else d.updIsl i (fun x => { x with logHold := false }), .ok)

def execLogTailWrite (r : Req) (i : Isl) (v : Word) (s : State) : Host.Outcome State Fault Refusal :=
  s.run (fun d => d.regCmd r i.val R.CAT_LOG_TAIL v logTailWriter)

/-! ### Reading a log for replay (R276, R277) -/

/-- Sequence numbers follow each other from `n`. -/
def seqFrom (n : Nat) : List LogRec → Bool
  | [] => true
  | r :: l => r.seq = n && seqFrom ((n + 1) % 2 ^ 32) l

/-- The records after the CATCH_MARK that a restore's replay begins at. -/
def afterMark (rp : Replay) : List LogRec → Option (List LogRec)
  | [] => none
  | r :: l => if r.typ = 1 ∧ bitsOf r.param.toNat 0 32 = rp.markId ∧ r.seq = rp.markSeq then some l else afterMark rp l

/-- A replaying island that lacks coverage has block nextBlk of its log read: from the region that its own CAT_LOG_BASE and CAT_LOG_SIZE
name, by the seal unit of its quarter, with its owner's tenant field (R276). DESIGN CHOICE: log entry 142. -/
def replayRead (d : Dev) (i : Nat) : Dev :=
  match (d.isl i).replay with
  | some rp =>
    if rp.reading || !lacksCoverage d i || d.fld i R.CAT_LOG_SIZE 0 24 ≤ rp.nextBlk then d
    else
      let d := sealRead d (quarterOf i) (d.owner i) (d.owner i) ((d.reg64 i R.CAT_LOG_BASE).toNat + rp.nextBlk * 4096) 256 (.replay i)
      d.updIsl i (fun x => { x with replay := some { rp with reading := true, readBad := none } })
  | none => d

/-- LOG_BLOCK_READ_DONE: the block that was being read is there, `b` what it unseals to; or a read of it failed, with the status that its
response gave. DESIGN CHOICE: log entry 142. -/
def logReadDone (d : Dev) (i : Nat) (b : LogBlock) : Dev :=
  match (d.isl i).replay with
  | none => d
  | some rp =>
    if !rp.reading || sealBusy d (.replay i) then d
    else
      let size := d.fld i R.CAT_LOG_SIZE 0 24
      let put (rp : Replay) : Dev := d.updIsl i (fun x => { x with replay := some { rp with reading := false } })
      let go (rp : Replay) : Dev := put { rp with nextBlk := if size = 0 then 0 else (rp.nextBlk + 1) % size }
      let mine := b.island = rp.srcIsland && b.device = rp.srcDevice && b.num = rp.nextBlk
      if rp.readBad.isSome || !b.tagOk then replayStop (put rp) i 4
      else
        match rp.nextSeq with
        | none =>
          match if mine then afterMark rp b.recs else none with
          | some l =>
            if seqFrom ((rp.markSeq + 1) % 2 ^ 32) l then
              go { rp with recs := rp.recs ++ l, covered := b.covered + 1, nextSeq := some ((rp.markSeq + 1 + l.length) % 2 ^ 32) }
            else replayStop (put rp) i 4
          | none => if size ≤ rp.searched + 1 then replayStop (put rp) i 4 else go { rp with searched := rp.searched + 1 }
        | some n =>
          if mine && seqFrom n b.recs then
            go { rp with recs := rp.recs ++ b.recs, covered := b.covered + 1, nextSeq := some ((n + b.recs.length) % 2 ^ 32) }
          else replayStop (put rp) i 4

/-- LOG_BLOCK_READ_DONE, with the status that the reads' responses gave. DESIGN CHOICE: log entry 151. -/
def execLogBlockReadDone (i : Isl) (st : Status) (b : LogBlock) (s : State) : Host.Outcome State Fault Refusal :=
  s.run (fun d => d.when (decide ((d.isl i.val).replay.map (fun rp => rp.readBad.getD .ok) = some st)) (fun d => logReadDone d i.val b))

/-! ### The seal units' own pace (R262) -/

/-- The catches and restores move on as far as their writes and reads allow. -/
def catchesSettle (d : Dev) : Dev := (List.range d.catches.length).reverse.foldl (fun (d : Dev) k => catchSettle restoreFail d k) d

/-- What the seal units do by themselves: replays have blocks read, each unit takes a turn, and what has been answered moves on. They
stand with the NoC clock in Standby (R204). -/
def sealTick (d : Dev) : Dev :=
  if standbyNow d then catchesSettle d
  else catchesSettle ((List.range 4).foldl sealTurn ((d.islands.map (·.1)).foldl replayRead d))

/-- CAT_STATUS and CAT_PRESERVE as read (R279). -/
def catStatus (d : Dev) (i : Nat) : Word :=
  let x := d.isl i
  BitVec.ofNat 32 (bn x.shadow.isSome + 2 * bn (x.state = .restoring) + 4 * bn x.replay.isSome + 8 * bn x.preserveHold
    + 16 * bn x.logHold + 32 * bn x.logWait)

def catPreserve (d : Dev) (i : Nat) : Word :=
  match (d.isl i).shadow with
  | none => 0
  | some s => BitVec.ofNat 32 (s.preserve.length
      + 256 * ((memsInUse d i).filter (fun m => (d.bram (i * 96 + m)).drained ≠ BitVec.allOnes 512)).length)

end Sys2Proof.Machine
end

