-- ==== Sys2Proof/Machine/Checks.lean ====
section
/-! DEFINITION. The checks that abort a load before START (R106, R114, R117, R125, R133, R144, R160, R177, R185, R194, R215, R219, R221,
R225, R227, R230, R345, R406, R500, R501, R510, R615, R634, R637), run on the device as the load would leave it. -/

namespace Sys2Proof.Machine

/-- A check that fails: the recording node (the island) and the item it names (a group, memory, slice, port or bank). -/
abbrev Flaw := Nat × Nat

def flawIf (b : Bool) (node item : Nat) : List Flaw := if b then [(node, item)] else []

/-- Islands whose set-up stands: their group and their clock claims hold until they enter IDLE (R114, R117). -/
def named (d : Dev) (taken : List Nat) : List Nat :=
  (d.islands.map (·.1)).filter (fun i => (d.isl i).state ≠ .idle || taken.contains i)

/-- Islands that hold a configuration or are being given one. -/
def present (d : Dev) (taken : List Nat) : List Nat :=
  (d.islands.map (·.1)).filter (fun i => inIsland (d.isl i).state || taken.contains i)

/-! ### Modes and groups (R106, R114, R345, R406, R615) -/

def modeFlaws (d : Dev) (i : Nat) : List Flaw :=
  let s := (d.isl i).setup
  let joined := decide (s.groupId ≠ 0)
  let laneOk := joined && (match groupOf i with | some n => d.fld (0x110 + n) R.LANE_GRP_CFG 0 2 = 2 | none => false)
  flawIf (joined && !s.fabricRoute) i s.groupId.toNat ++ flawIf (s.nocPort && !joined) i 0 ++ flawIf (s.laneAttach && !laneOk) i 0

/-- Islands reached from `seen` through shared edges, within `l`. -/
def reach (l : List Nat) : Nat → List Nat → List Nat
  | 0, seen => seen
  | n + 1, seen =>
    let more := l.filter (fun j => !seen.contains j && (List.range 4).any (fun t =>
      match neighbour j t with | some k => seen.contains k | none => false))
    if more.isEmpty then seen else reach l n (seen ++ more)

/-- The islands of one joined group. -/
def groupFlaws (d : Dev) (pres : List Nat) (i : Nat) : List Flaw :=
  let g := (d.isl i).setup.groupId
  if g = 0 then []
  else
    let l := pres.filter (fun j => (d.isl j).setup.groupId = g)
    flawIf (l.any (fun j => d.owner j ≠ d.owner i || quarterOf j ≠ quarterOf i || !(d.isl j).setup.fabricRoute)
      || (reach l l.length [i]).length < l.length) i g.toNat

/-- Engines out of service that the set-up uses. -/
def engineFlaws (d : Dev) (i : Nat) (secs : Sections) : List Flaw :=
  let out (e : Nat) : Bool := (d.eng (2 * i + e)).outOfService
  let map := d.fld i R.SCL_PORT_MAP 0 2
  let setup := secs.any (fun s => s.1 = 7)
  [0, 1].flatMap (fun e => flawIf (out e &&
    (setup && ((d.eng (2 * i + e)).runBit || map % 2 = e || map / 2 = e) || (memsIn secs).any (fun t => 96 ≤ t && (t - 96) / 2 = e))) i e)

/-! ### Clocks (R117, R194, R215, R227, R502) -/

/-- The group clocks, and the DPLLs (16 + k) and clock inputs (24 + k) behind them, that an island names. DEDUCED: log entry 71. -/
def clockItems (d : Dev) (i : Nat) : List Nat :=
  let gcs := (List.range 16).filter (fun g => (d.isl i).setup.gcMask.getLsbD g)
  gcs ++ gcs.map (fun g => let s := gcSource d g; if s < 16 then 16 + s / 2 else 24 + (s - 16))

/-- The settings a set-up body gives the items it names: item, value. -/
def clockGiven (b : List W128) : List (Nat × Nat) :=
  let gcs := (List.range 16).filter (fun g => (setupOf b).gcMask.getLsbD g)
  let src (g : Nat) : Nat := wf (bodyWord b 6) (5 * g) 5
  gcs.flatMap (fun g => [(g, src g), if src g < 16 then (16 + src g / 2, bodyBits b 7 (64 * (src g / 2)) 57)
    else (24 + (src g - 16), wf (bodyWord b 6) (80 + (src g - 16) % 8) 1)])

def settingsOf (secs : Sections) : List (Nat × Nat) := (secs.filter (fun s => s.1 = 7)).flatMap (fun s => clockGiven s.2)

/-- Whether a setting that a load gives lies out of range: a source, or a DPLL's (R194). -/
def settingFlaw (e : Nat × Nat) : Bool :=
  if e.1 < 16 then 24 ≤ e.2
  else e.1 < 24 && !dpllLegal (BitVec.ofNat 32 (bitsOf e.2 0 1 + bitsOf e.2 1 6 * 256)) (BitVec.ofNat 32 (bitsOf e.2 7 24))
    (BitVec.ofNat 32 (bitsOf e.2 31 13 + bitsOf e.2 44 13 * 65536))

/-- Claims of other principals, settings that differ within the load, sources and DPLL settings out of range, settle count and design
clocks. `given` holds the settings that the load gives for this principal. DEDUCED: log entries 69 and 70. -/
def clockFlaws (d : Dev) (pres : List Nat) (given : List (Nat × Nat)) (i : Nat) : List Flaw :=
  let mine := clockItems d i
  flawIf (pres.any (fun j => d.owner j ≠ d.owner i && (clockItems d j).any (mine.contains ·))) i 0
    ++ flawIf (given.any (fun a => given.any (fun b => a.1 = b.1 && a.2 ≠ b.2))) i 1
    ++ flawIf (given.any settingFlaw) i 2
    ++ flawIf (d.fld i R.STK_SETTLE 0 8 = 0) i 3
    ++ flawIf ((List.range 16).any (fun k => d.fld i (R.STK_DCLK + 4 * k) 0 16 < d.fld i (R.STK_DCLK + 4 * k) 16 16)) i 4

/-! ### Block memories and slices (R125, R144, R160, R177, R185, R501) -/

/-- The clock a port selects: a cluster clock line's source (1), its wire (2), or none (0, the reserved code among them: R127). -/
def portClock (d : Dev) (i m : Nat) (b : Bram) (portB : Bool) : Nat × Nat :=
  let k := b.ckmode portB % 3
  (k, if k = 1 then clsel d i (4 * (m % 24)) (memCol (m / 24)) (b.clkline portB) else 0)

/-- Whether both ports select one clock (R144). -/
def oneClock (d : Dev) (i m : Nat) (b : Bram) : Bool :=
  portClock d i m b false = portClock d i m b true && (b.ckmode false ≠ 2 || oneWire d i m)

/-- DEDUCED: log entries 69 and 70. -/
def memFlaw (d : Dev) (i m : Nat) : Bool :=
  let b := d.bram (i * 96 + m)
  let ca := b.widthCode false
  let cb := b.widthCode true
  let fifoWidth := (4 ≤ ca && ca ≤ 7) || (!b.ecc && 9 ≤ ca && ca ≤ 12)
  b.use ≠ 0 && (b.use = 3 || b.outOfService || 12 < ca || (!b.isRing && 12 < cb) || (b.ecc && (nineBit ca || (!b.isRing && nineBit cb)))
    || (b.isRing && ca ≠ 7)
    || (b.use = 2 && !b.isRing && (ca ≠ cb || !fifoWidth || (b.qmode = 0 && !oneClock d i m b))))

/-- A MEMORY_INIT whose target is unused or whose wide bit is not that of the memory. -/
def initFlaw (d : Dev) (i : Nat) (s : Nat × List W128) : Bool :=
  let b := d.bram (i * 96 + memTarget s.2)
  s.1 = 6 && memTarget s.2 < 96 && (b.use = 0 || (bodyWord s.2 0).getLsbD 41 = b.ecc)

def sliceFlaw (d : Dev) (i a : Nat) : Bool :=
  let s := d.slice (i * 48 + a)
  s.inUse && (s.outOfService || (s.dual && 32 < s.owidth))

def unitFlaws (d : Dev) (i : Nat) (secs : Sections) : List Flaw :=
  (listedMems d i).flatMap (fun m => flawIf (memFlaw d i m) i m) ++ (listedSlices d i).flatMap (fun a => flawIf (sliceFlaw d i a) i a)
    ++ secs.flatMap (fun s => flawIf (initFlaw d i s) i (memTarget s.2))

/-! ### Site outputs (R133) and reserved bits (R500) -/

/-- The sites of a band whose records the frames hold. -/
def bandSites (d : Dev) (i b : Nat) : List Site :=
  (List.range 4).map (fun n => Site.mem (24 * n + b)) ++ [.slice b, .slice (24 + b)] ++ (if b < 16 then [.port 0 b, .port 1 b] else [])
    ++ (if b < 9 && (d.isl i).setup.laneAttach then [.lane b] else []) ++ (if b = 23 then [.noc] else [])
    ++ (if b = 0 && (bankOf i).isSome then [.bank] else [])

/-- The segment starts that a site's outputs select: row, column, direction, index. -/
def siteStarts (d : Dev) (i : Nat) (s : Site) : List (Nat × Nat × Nat × Nat) :=
  (List.range s.outs).filterMap (fun v =>
    let o := bandFld d i s.band (s.base + 2 * s.ins + 3 * v) 3
    if o = 0 then none
    else
      let (r, c) := s.cluster i (v % s.hs)
      some (r, c, (o - 1) % 4, (v / s.hs + 5 * ((o - 1) / 4)) % 15))

/-- Whether a segment start lies outside the island under R94. -/
def startOutside (r c t x : Nat) : Bool :=
  let l := segLen x
  l ≠ 1 && (if t = 0 then 49 < c + l else if t = 1 then c < l else if t = 2 then 95 < r + l else r < l)

def bandsPresent (d : Dev) (i : Nat) : List Nat := ((configuredRows d i).map (· / 4)).eraseDups

def startFlaws (d : Dev) (i : Nat) : List Flaw :=
  let l := (bandsPresent d i).flatMap (fun b => (bandSites d i b).flatMap (fun s => (siteStarts d i s).map (fun e => (s, e))))
  l.flatMap (fun e =>
    let (r, c, t, x) := e.2
    let item := match e.1 with | .mem m => m | .slice a => a | .port _ p => p | .lane j => j | .noc => 0 | .probe k => k | .bank => 0
    flawIf ((l.filter (fun f => f.2 = e.2)).length ≠ 1 || cluFld d i r c (2784 + 3 * (t * 15 + x)) 3 ≠ 0 || startOutside r c t x) i item)

/-- Whether a band bit is assigned by R500. -/
def bandUsed (b x : Nat) : Bool :=
  if x < 7040 then x % 1760 < 1671
  else if x < 8576 then (x - 7040) % 768 < 753
  else if x < 9876 then b < 16
  else if x < 10532 then b < 9
  else if x < 11851 then b = 23
  else if x < 11856 then false
  else if x < 12112 then b < 8
  else if x < 12834 then b = 0 && !(12448 ≤ x && x < 12832 && (x - 12448) % 8 = 7)
  else false

def reservedFlaws (d : Dev) (i : Nat) : List Flaw :=
  (bandsPresent d i).flatMap (fun b => flawIf ((List.range 28032).any (fun x => !bandUsed b x && bandBit d i b x)) i b)

/-! ### Crossing channels (R216, R219, R221, R225, R230) -/

/-- The direction a neighbour path returns by. -/
def pathBack (k : Nat) : Nat := if k = 0 then 1 else if k = 1 then 0 else if k = 2 then 3 else if k = 3 then 2 else k

/-- One end of its own: path, latency, adjacency, mode, pin port. DEDUCED: log entry 70. -/
def endFlaw (d : Dev) (i : Nat) (c : PortCfg) : Bool :=
  c.en && (c.path = 7 || (!c.free && (8 < c.lat || !strokeMode d i)) || (c.path < 4 && neighbour i c.path ≠ some c.node)
    || (c.path = 4 && 256 ≤ c.node) || (c.path = 5 && !(0x110 ≤ c.node && c.node < 0x130))
    || (c.path = 6 && (c.free || c.count ≠ 1 || c.lat ≠ 0 || 30 ≤ c.bank || (c.bank < 28 && c.bank / 7 ≠ quarterOf i))))

/-- Whether the far end agrees: enabled, named back, count, kind, latency of a stroke channel, and a stroke-mode island. -/
def endsAgree (d : Dev) (i p : Nat) (a b : PortCfg) : Bool :=
  b.en && b.path = pathBack a.path && b.node = i && b.port = p && b.count = a.count && b.free = a.free
    && (a.free || (a.lat = b.lat && strokeMode d a.node))

/-- Ports of the islands present that name an island's port: XO ports naming an XI port, or XI ports naming an XO port. -/
def namers (cfg : Dev → Nat → Nat → PortCfg) (d : Dev) (pres : List Nat) (node port : Nat) : Nat :=
  (pres.flatMap (fun j => (List.range 32).filter (fun q => let c := cfg d j q; c.en && c.path ≤ 4 && c.node = node && c.port = port))).length

def sideFlaws (cfg far : Dev → Nat → Nat → PortCfg) (d : Dev) (pres : List Nat) (i : Nat) : List Flaw :=
  (List.range 32).flatMap (fun p =>
    let c := cfg d i p
    flawIf (endFlaw d i c || (c.en && c.path ≤ 4 && (1 < namers cfg d pres c.node c.port
      || (pres.contains c.node && !endsAgree d i p c (far d c.node c.port))))) i p)

def channelFlaws (d : Dev) (pres : List Nat) (i : Nat) : List Flaw :=
  sideFlaws xoCfg xiCfg d pres i ++ sideFlaws xiCfg xoCfg d pres i
    -- an island already there whose channel names this island is compared too
    ++ (pres.filter (· ≠ i)).flatMap (fun j => (List.range 32).flatMap (fun p =>
      let o := xoCfg d j p
      let x := xiCfg d j p
      flawIf ((o.en && o.path ≤ 4 && o.node = i && !endsAgree d j p o (xiCfg d i o.port))
        || (x.en && x.path ≤ 4 && x.node = i && !endsAgree d j p x (xoCfg d i x.port))) j p))

/-! ### Banks (R500, R634, R637) -/

/-- The banks an island uses. -/
def banksUsed (d : Dev) (i : Nat) : List Nat :=
  (List.range 30).filter (fun n => pinPortOn d i n || (!strokeMode d i && bankOf i = some n && attachOn d i))

/-- One pin of a bank's configuration record against the bank type. -/
def pinFlaw (d : Dev) (i n p : Nat) : Bool :=
  let f (q : Nat) : Nat := bandFld d i 0 (12448 + 8 * q) 8
  let std := f p % 8
  let ok := if bankHp n then std ≠ 3 && std ≠ 4 else std ≤ 4 && std ≠ 1
  !ok || (bankHp n && f p / 8 % 4 = 3) || (std = 7 && p % 2 = 1) || (p % 2 = 1 && f (p - 1) % 8 = 7 && f p ≠ 0)

/-- The nominal supply a record names, in mV: none for the reserved code. -/
def nominal (n code : Nat) : Option Nat := if code = 3 then none else some ((if bankHp n then [1000, 1100, 1200] else [1200, 1500, 1800]).getD code 0)

def bankFlaws (d : Dev) (pres : List Nat) (i : Nat) : List Flaw :=
  let l := banksUsed d i
  let pins := (List.range 25).any (fun k => bandFld d i 0 (12448 + 16 * k) (if k < 24 then 16 else 2) ≠ 0)
  let code := bandFld d i 0 12832 2
  flawIf (l.isEmpty && (pins || attachOn d i)) i 0 ++ flawIf (attachOn d i && (strokeMode d i || (bankOf i).isNone)) i 0
    ++ l.flatMap (fun n =>
      flawIf (pres.any (fun j => j ≠ i && (banksUsed d j).contains n) || (List.range 48).any (pinFlaw d i n) || (nominal n code).isNone
        || !d.flag 0x142 (bankStatus n) 12) i n)

/-! ### All checks of an island -/

/-- What a partial reconfiguration must keep of a FEATHERED island's set-up (R510). -/
def keepFlaw (old new : Setup) : Bool :=
  old.fabricRoute ≠ new.fabricRoute || old.groupId ≠ new.groupId || old.gcMask ≠ new.gcMask || old.fClose ≠ new.fClose
    || old.catchPeers ≠ new.catchPeers

/-- The flaws of one island written by a load: `d` is the device as the load leaves it, `old` as it was, `idle` whether the island was
taken from IDLE. DEDUCED: log entry 70. DESIGN CHOICE: an f_close above the speed grade's maximum is no flaw.
DEDUCED: log entry 70; DESIGN CHOICE: log entry 133. -/
def islandFlaws (old d : Dev) (pres claims : List Nat) (given : List (Nat × Nat)) (i : Nat) (idle : Bool) (secs : Sections) : List Flaw :=
  flawIf (idle && (secs.filter (fun s => s.1 = 7)).isEmpty) i 0 ++ flawIf (!idle && keepFlaw (old.isl i).setup (d.isl i).setup) i 0
    ++ modeFlaws d i ++ groupFlaws d claims i ++ engineFlaws d i secs ++ clockFlaws d claims given i ++ unitFlaws d i secs
    ++ startFlaws d i ++ reservedFlaws d i ++ channelFlaws d pres i ++ bankFlaws d pres i

end Sys2Proof.Machine
end

