-- ==== Sys2Proof/Machine/LinkBase.lean ====
section
/-! DEFINITION. Talux Link states and events (R425 to R430), which the lanes' detectors can change. -/

namespace Sys2Proof.Machine

def Dev.link (d : Dev) (n : Nat) : LinkSt := tget d.links {} n
def Dev.setLink (d : Dev) (n : Nat) (x : LinkSt) : Dev := { d with links := tput d.links {} n x }
def Dev.updLink (d : Dev) (n : Nat) (f : LinkSt → LinkSt) : Dev := d.setLink n (f (d.link n))
/-- The node of link port n. -/
def lp (n : Nat) : Nat := 0x110 + n

/-- LNK_STATUS.state: 0 OFF, 1 TRAINING, 2 UP, 3 RECOVERY, 4 FENCED, 5 FAILED. -/
def linkState (d : Dev) (n : Nat) : Nat := d.fld (lp n) R.LNK_STATUS 0 3
def setLinkState (d : Dev) (n st : Nat) : Dev := d.setFld (lp n) R.LNK_STATUS 0 3 st

/-- The class of a LNK_EVENTS record: stale is security (R595). -/
def linkEvent (d : Dev) (n b : Nat) : Dev := d.sticky (lp n) (if b = 12 then 2 else 7) 13 b R.LNK_EVENTS

/-- The link leaves UP, if it was there: down is set. DEDUCED: log entry 60. -/
def leaveUp (d : Dev) (n st : Nat) : Dev :=
  let was := linkState d n
  let d := setLinkState d n st
  if was = 2 then linkEvent d n 1 else d

/-- What a link holds is discarded, its spare lanes unused; proxy records stay until their own timeout (R430, R437). -/
def linkDiscard (d : Dev) (n : Nat) : Dev := d.updLink n (fun x => { proxies := x.proxies })

/-- The link goes to FAILED (R429, R430). -/
def linkFail (d : Dev) (n : Nat) : Dev := linkEvent (linkDiscard (leaveUp d n 5) n) n 2

/-- Recovery starts: sequence state is kept (R429). -/
def recoveryStart (d : Dev) (n : Nat) : Dev := if linkState d n = 2 then leaveUp d n 3 else d

/-- The active lane received on the spare, 15 for none. -/
def rxSpared (d : Dev) (n : Nat) : Nat := d.fld (lp n) R.LNK_STATUS 4 4

/-- Receiver of lane j of link n loses it while UP (R429): an active lane moves to the spare, and a second loss fails the link. -/
def linkLaneLost (d : Dev) (g : Nat) : Dev :=
  let n := g / 9
  let j := g % 9
  if d.fld (lp n) R.LANE_GRP_CFG 0 2 ≠ 1 || linkState d n ≠ 2 then d
  else if rxSpared d n = 15 then
    if j = 8 then d
    else
      let d := (d.setFld (lp n) R.LNK_STATUS 4 4 j).updLink n (fun x => { x with swapDue := some j, nakDue := true, ignoring := true })
      linkEvent d n 4
  else if j = rxSpared d n then d
  else linkFail d n

end Sys2Proof.Machine
end

