-- ==== Sys2Proof/Machine/Lanes.lean ====
section
/-! DEFINITION. Serial lanes (R392 to R414): group PLLs, detectors, test patterns, test-mode writes, and the fabric FIFOs of
user protocols. Lane g = 9n + j is lane j of the group of link port n; its registers lie in node 0x110 + n. -/

namespace Sys2Proof.Machine

def laneNode (g : Nat) : Nat := 0x110 + g / 9
def laneOff (base g : Nat) : Nat := base + (g % 9) * 0x80

/-- Set an event bit of a lane; los_set, lol_set and pll_unlock are recorded in the link class (R399). -/
def laneEvent (d : Dev) (g b : Nat) : Dev :=
  let d := d.orReg (laneNode g) (laneOff R.LANE_EVENTS g) (bit b)
  if b = 0 ∨ b = 2 ∨ b = 6 then
    d.eventP (laneNode g) 0 7 12 b 0 (d.reg (laneNode g) (laneOff R.LANE_EVENTS g)) 0 0 0
  else d

def laneStatusBit (d : Dev) (g b : Nat) : Bool := d.flag (laneNode g) (laneOff R.LANE_STATUS g) b
def setLaneStatus (d : Dev) (g b : Nat) (v : Bool) : Dev :=
  d.setFld (laneNode g) (laneOff R.LANE_STATUS g) b 1 (if v then 1 else 0)

def laneTest (d : Dev) (g lo w : Nat) : Nat := d.fld (laneNode g) (laneOff R.LANE_TEST_CTL g) lo w

def groupLanes (n : Nat) : List Nat := (List.range 9).map (fun j => 9 * n + j)

def pllLocked (d : Dev) (n : Nat) : Bool := d.flag (0x110 + n) R.LANE_PLL_STATUS 0

/-! ### Detectors (R399) -/

/-- Loss of lock asserts: no data is delivered from here on; the checker stops and keeps its counts. -/
def lolSet (d : Dev) (g : Nat) : Dev :=
  if laneStatusBit d g 1 then d else linkLaneLost (laneEvent (setLaneStatus (setLaneStatus d g 1 true) g 2 false) g 2) g

def losAssert (d : Dev) (g : Nat) : Dev :=
  if laneStatusBit d g 0 then d
  else
    let d := laneEvent (setLaneStatus d g 0 true) g 0
    if laneTest d g 8 2 = 1 then d else lolSet d g

def losDeassert (d : Dev) (g : Nat) : Dev :=
  if !laneStatusBit d g 0 then d else laneEvent (setLaneStatus d g 0 false) g 1

/-- The tracker holds phase for t_CDR: lol deasserts unless the PLL is unlocked or los still holds it (R399, R412). -/
def lolDeassert (d : Dev) (g : Nat) : Dev :=
  if !laneStatusBit d g 1 || !pllLocked d (g / 9) || (laneStatusBit d g 0 && laneTest d g 8 2 ≠ 1) then d
  else setLaneStatus d g 1 false

def execLosAssert (g : LaneIx) (s : State) := s.run (fun d => losAssert d g.val)
def execLosDeassert (g : LaneIx) (s : State) := s.run (fun d => losDeassert d g.val)
/-- The tracker at its limit, or 1,024 unit intervals without a transition. -/
def execLolAssert (g : LaneIx) (s : State) := s.run (fun d => lolSet d g.val)
def execLolDeassert (g : LaneIx) (s : State) := s.run (fun d => lolDeassert d g.val)

/-! ### Group PLLs (R392, R393) -/

/-- The partner group on the same reference input (R392). -/
def refPartner (n : Nat) : Nat := if n % 2 = 0 then n + 1 else n - 1

/-- The PLL of a group loses lock: locked reads 0, pll_unlock in every lane, lol on every lane; a link that is UP goes to RECOVERY (R399,
R411, R448). -/
def pllUnlock (d : Dev) (n : Nat) : Dev :=
  let was := pllLocked d n
  let d := recoveryStart (d.setReg (0x110 + n) R.LANE_PLL_STATUS 0) n
  (groupLanes n).foldl (fun d g => lolSet (if was then laneEvent d g 6 else d) g) d

/-- The frequency at a multiplier, in units of 0.25 MHz ÷ 65,536 (R393). -/
def vcoAt (d : Dev) (n : Nat) (mult : Word) : Nat :=
  (if d.flag (0x110 + n) R.LANE_GRP_CFG 2 then 1250 else 625) * (bitsOf mult.toNat 0 8 * 65536 + bitsOf mult.toNat 16 16)

/-- f_VCO at the multiplier that LANE_PLL_MULT states, and at the one that the last apply found there. -/
def fVco (d : Dev) (n : Nat) : Nat := vcoAt d n (d.reg (0x110 + n) R.LANE_PLL_MULT)
def pllVco (d : Dev) (n : Nat) : Nat := vcoAt d n (tget d.pllMult 0xB3 n)

/-- The limits of R393 for a multiplier setting, a divider and a modulation. -/
def pllLegal (vco k : Nat) (pam4 : Bool) : Bool :=
  let mhz (x : Nat) : Nat := x * 4 * 65536
  mhz 20000 ≤ vco && vco ≤ mhz 32000 && k ≤ 4 &&
    (if pam4 then mhz 14000 * 2 ^ k ≤ vco && vco ≤ mhz 28000 * 2 ^ k else mhz 1250 * 2 ^ k ≤ vco && vco ≤ mhz 32000 * 2 ^ k)

/-- A write of LANE_PLL_CFG: stored; with apply, checked first, refused BAD_STATE whole, or the PLL relocks (R393). -/
def pllCfgWriter : Writer := fun d r node off v =>
  if v.testBit 8 then
    if pllLegal (fVco d (node - 0x110)) (bitsOf v 0 3) (v.testBit 3) then
      let d := { d with pllMult := tput d.pllMult 0xB3 (node - 0x110) (d.reg node R.LANE_PLL_MULT) }
      (pllUnlock (storeWriter d r node off v).1 (node - 0x110), .ok)
    else (d, .badState)
  else storeWriter d r node off v

def execPllApply (r : Req) (n : LinkIx) (v : Word) (s : State) :=
  s.run (fun d => d.regCmd r (0x110 + n.val) R.LANE_PLL_CFG (v ||| bit 8) pllCfgWriter)

/-- Lock reached after an apply; a group whose ref_312 disagrees with its partner's stays unlocked (R392). -/
def pllLock (d : Dev) (n : Nat) : Dev :=
  if d.flag (0x110 + n) R.LANE_GRP_CFG 2 ≠ d.flag (0x110 + refPartner n) R.LANE_GRP_CFG 2 then d
  else if pllLocked d n then d
  else d.setReg (0x110 + n) R.LANE_PLL_STATUS (BitVec.ofNat 32 (1 + (pllVco d n / (4 * 65536) % 32768) * 65536))

def execPllLock (n : LinkIx) (s : State) := s.run (fun d => pllLock d n.val)

/-- Loss of reference input r of quarter q: both groups it serves unlock, with pll_unlock and lol on every lane (R412). -/
def execLaneRefLoss (q r : Fin 4) (s : State) :=
  s.run (fun d => pllUnlock (pllUnlock d (8 * q.val + 2 * r.val)) (8 * q.val + 2 * r.val + 1))

/-! ### Patterns (R400, R401) -/

/-- The taps of a pattern: degree and second exponent; (0, 0) for off. -/
def prbsTaps (code : Nat) : Nat × Nat :=
  if code = 1 then (7, 6) else if code = 2 then (9, 5) else if code = 3 then (15, 14) else if code = 4 then (23, 18)
  else if code = 5 then (31, 28) else (0, 0)

/-- The next bit of a pattern after a register whose bit 0 is the newest bit. -/
def prbsNext (code s : Nat) : Bool := let t := prbsTaps code; s.testBit (t.1 - 1) != s.testBit (t.2 - 1)

/-- w generated bits, first bit lowest: the bits and the register after them. -/
def prbsBits (code : Nat) : Nat → Nat → Nat → Nat → Nat × Nat
  | 0, s, _, acc => (acc, s)
  | w + 1, s, pos, acc =>
    let b := if prbsNext code s then 1 else 0
    prbsBits code w ((2 * s + b) % 2 ^ (prbsTaps code).1) (pos + 1) (acc + b * 2 ^ pos)

/-- One received bit at the checker: history, run of matches, marks; and whether it mismatched the prediction. -/
def chkBit (code : Nat) (x : Lane) (b : Bool) : Lane × Bool :=
  let t := prbsTaps code
  let pred := x.chk.getLsbD (t.1 - 1) != x.chk.getLsbD (t.2 - 1)
  let seeded := x.chkHave ≥ t.1
  let miss := seeded && pred != b
  -- a seeded checker predicts from its own sequence, so that one bad bit is one error
  let nb := if seeded && decide (x.chkRun ≥ 64) then pred else b
  ({ x with chk := (x.chk <<< 1) ||| (if nb then 1 else 0), chkHave := if seeded then x.chkHave else x.chkHave + 1,
            chkRun := if !seeded then 0 else if x.chkRun ≥ 64 then x.chkRun else if miss then 0 else x.chkRun + 1,
            chkMiss := (x.chkMiss <<< 1) ||| (if miss then 1 else 0) }, miss)

def chkWord (code : Nat) (inv : Bool) (w : W128) (fw : Nat) (x : Lane) : Lane × Nat :=
  (List.range fw).foldl (fun (a : Lane × Nat) k =>
    let (x, m) := chkBit code a.1 (w.getLsbD k != inv)
    (x, a.2 + if m then 1 else 0)) (x, 0)

/-- prbs_sync is set after 64 consecutive matching bits; counting begins (R400). DEDUCED: log entry 59. -/
def prbsSync (d : Dev) (g : Nat) : Dev :=
  if laneTest d g 4 3 = 0 || laneStatusBit d g 2 || laneStatusBit d g 1 || (d.lane g).chkRun < 64 then d
  else
    let x := d.lane g
    setLaneStatus (d.setLane g { x with chkMiss := 0 }) g 2 true

def popCount64 (v : BitVec 64) : Nat := (List.range 64).foldl (fun a k => if v.getLsbD k then a + 1 else a) 0

/-- After 16 mismatches in 64 bits sync is lost, prbs_loss is set and the checker reseeds (R400). DEDUCED: log entry 59. -/
def prbsLoss (d : Dev) (g : Nat) : Dev :=
  if !laneStatusBit d g 2 || popCount64 (d.lane g).chkMiss < 16 then d
  else
    let x := d.lane g
    laneEvent (setLaneStatus (d.setLane g { x with chk := 0, chkHave := 0, chkRun := 0, chkMiss := 0 }) g 2 false) g 3

def execPrbsSync (g : LaneIx) (s : State) := s.run (fun d => prbsSync d g.val)
def execPrbsLoss (g : LaneIx) (s : State) := s.run (fun d => prbsLoss d g.val)

def countInj (d : Dev) (g n : Nat) : Dev := d.countFld (laneNode g) (laneOff R.LANE_INJ_COUNT g) 0 32 n

/-- With the generator on, 2^inj_k bits have been generated since the last one inverted: the next bit is inverted and counted
(R401). -/
def injPeriodic (d : Dev) (g : Nat) : Dev :=
  let k := laneTest d g 10 5
  if laneTest d g 0 3 = 0 || k = 0 || (d.lane g).genBits < 2 ^ k then d
  else
    let x := d.lane g
    countInj (d.setLane g { x with injPeriodic := x.injPeriodic + 1, genBits := x.genBits - 2 ^ k }) g 1

def execInjPeriodic (g : LaneIx) (s : State) := s.run (fun d => injPeriodic d g.val)

/-! ### Test-mode and setting writes (R396, R397, R401, R402, R404, R405) -/

/-- A tenant's stroke channel is mapped on link n: a valid map entry of a tenant other than 0 (R48, R432). -/
def tenantMapped (d : Dev) (n : Nat) : Bool :=
  d.regs.any (fun e =>
    e.1 / 0x10000 = 0x110 + n && 0x1000 ≤ e.1 % 0x10000 && e.1 % 0x10000 < 0x5000 && e.1 % 8 = 0
      && e.2.getLsbD 31 && bitsOf e.2.toNat 18 4 ≠ 0)

/-- Whether a principal may write a test mode of group n now: the status of a refusal, if any (R404). -/
def testRefused (d : Dev) (n tenant : Nat) : Bool :=
  let mode := d.fld (0x110 + n) R.LANE_GRP_CFG 0 2
  if mode = 2 then tenant ≠ d.owner (laneIsland n)
  else if mode = 1 ∧ tenantMapped d n then true
  else tenant ≠ 0

/-- A write of LANE_TEST_CTL. -/
def testCtlWriter : Writer := fun d r node off v =>
  let g := (node - 0x110) * 9 + (off - R.LANE_TEST_CTL) / 0x80
  let k := bitsOf v 10 5
  if testRefused d (node - 0x110) r.tenant || bitsOf v 0 3 ≥ 6 || bitsOf v 4 3 ≥ 6 || bitsOf v 8 2 = 3 || (1 ≤ k && k ≤ 5) then
    (d, .badState)
  else
    let oldGen := laneTest d g 0 3
    let oldChk := laneTest d g 4 3
    let d := (storeWriter d r node off v).1
    let (seed, d) := if bitsOf v 0 3 ≠ oldGen then d.draw else (0, d)
    let x := d.lane g
    -- a generator turned on starts at a nonzero point of its sequence that the spec does not state
    let n := (prbsTaps (bitsOf v 0 3)).1
    let x := if bitsOf v 0 3 ≠ oldGen then { x with gen := 1 + seed % (2 ^ n - 1), genBits := 0 } else x
    let x := if bitsOf v 4 3 ≠ oldChk then { x with chk := 0, chkHave := 0, chkRun := 0, chkMiss := 0 } else x
    let x := if v.testBit 16 then { x with injSingle := true } else x
    let d := d.setLane g x
    let d := if bitsOf v 4 3 ≠ oldChk then setLaneStatus d g 2 false else d
    let d := setLaneStatus d g 3 (bitsOf v 8 2 ≠ 0)
    -- lol includes los again once the near-end loop is open (R399, R412)
    let d := if laneStatusBit d g 0 && bitsOf v 8 2 ≠ 1 then lolSet d g else d
    let d := if v.testBit 17 then
        (d.setReg64 node (laneOff R.LANE_PRBS_ERR g) 0).setReg64 node (laneOff R.LANE_PRBS_BITS g) 0
      else d
    (d, .ok)

def execTestModeWrite (r : Req) (g : LaneIx) (v : Word) (s : State) :=
  s.run (fun d => d.regCmd r (laneNode g.val) (laneOff R.LANE_TEST_CTL g.val) v testCtlWriter)
/-- A write with inj_single = 1. -/
def execInjSingle (r : Req) (g : LaneIx) (v : Word) (s : State) :=
  s.run (fun d => d.regCmd r (laneNode g.val) (laneOff R.LANE_TEST_CTL g.val) (v ||| bit 16) testCtlWriter)
/-- A write with chk_clear = 1. -/
def execChkClear (r : Req) (g : LaneIx) (v : Word) (s : State) :=
  s.run (fun d => d.regCmd r (laneNode g.val) (laneOff R.LANE_TEST_CTL g.val) (v ||| bit 17) testCtlWriter)

/-- Turn every test mode of a group off (R412, eviction of the attached island). -/
def testsOff (d : Dev) (n : Nat) : Dev :=
  (groupLanes n).foldl (fun d g => setLaneStatus (setLaneStatus (d.setReg (laneNode g) (laneOff R.LANE_TEST_CTL g) 0) g 2 false) g 3 false) d

/-- A write of LANE_TX_COEF: the three taps change together (R396); refused during link training of the group (R397). -/
def txCoefWriter : Writer := fun d _ node off v =>
  if d.fld node R.LANE_GRP_CFG 0 2 = 1 && d.flag node R.LNK_CFG 2 then (d, .badState)
  else if bitsOf v 8 5 > 24 then (d, .badState)
  else (d.setReg node off (BitVec.ofNat 32 (bitsOf v 0 4 + bitsOf v 8 5 * 256 + (63 - bitsOf v 0 4 - bitsOf v 8 5) * 65536)), .ok)

def execTxCoefWrite (r : Req) (g : LaneIx) (v : Word) (s : State) :=
  s.run (fun d => d.regCmd r (laneNode g.val) (laneOff R.LANE_TX_COEF g.val) v txCoefWriter)

/-- A write of LANE_RX_CFG: los_thresh of 12 to 15 is refused (R399). -/
def rxCfgWriter : Writer := fun d r node off v =>
  if bitsOf v 8 4 ≥ 12 then (d, .badState) else storeWriter d r node off v

/-- A write of LANE_CTL; rx_slip moves the word boundary one bit later (R409). -/
def laneCtlWriter : Writer := fun d r node off v =>
  let g := (node - 0x110) * 9 + (off - R.LANE_CTL) / 0x80
  let d := (storeWriter d r node off v).1
  if v.testBit 5 then
    let x := d.lane g
    (d.setLane g { x with slip := (x.slip + 1) % laneFw d (g / 9) }, .ok)
  else (d, .ok)

def execRxSlip (r : Req) (g : LaneIx) (v : Word) (s : State) :=
  s.run (fun d => d.regCmd r (laneNode g.val) (laneOff R.LANE_CTL g.val) (v ||| bit 5) laneCtlWriter)

/-- A write of LANE_GRP_CFG (R405): refused while the attached island is not IDLE or a tenant channel is mapped. Where the
references then disagree both groups report their PLLs unlocked (R392). DEDUCED: log entry 59. -/
def grpCfgWriter : Writer := fun d r node off v =>
  let n := node - 0x110
  if (d.isl (laneIsland n)).state ≠ .idle || tenantMapped d n then (d, .badState)
  else
    let was := d.fld node R.LANE_GRP_CFG 0 2
    let d := (storeWriter d r node off v).1
    let d := if d.fld node R.LANE_GRP_CFG 0 2 = was then d else sigReset d ((List.range 9).map (fun k => 3232 + 9 * n + k))
    if d.flag node R.LANE_GRP_CFG 2 ≠ d.flag (0x110 + refPartner n) R.LANE_GRP_CFG 2 then
      (pllUnlock (pllUnlock d n) (refPartner n), .ok)
    else (d, .ok)

def execLaneModeWrite (r : Req) (n : LinkIx) (v : Word) (s : State) :=
  s.run (fun d => d.regCmd r (0x110 + n.val) R.LANE_GRP_CFG v grpCfgWriter)

/-! ### Fabric FIFOs (R407, R408, R410) -/

/-- An edge of the design side: push TX_DATA, take the presented word; flags cross in 2 edges of the receiving clock. -/
def laneDesignEdge (d : Dev) (g : Nat) (data : W128) (valid take : Bool) : Dev :=
  let x := d.lane g
  let fw := laneFw d (g / 9)
  let ready := decide (x.tx.length + x.txFreed.length < 16)
  let mask : W128 := BitVec.ofNat 128 (2 ^ fw - 1)
  let head := match x.rx with | (0, _) :: _ => true | _ => false
  let took := take && head
  let d := if valid && !ready then laneEvent d g 7 else d
  d.setLane g { x with
    tx := if valid && ready then x.tx ++ [(2, data &&& mask)] else x.tx,
    txFreed := (x.txFreed.filter (· > 1)).map (· - 1),
    rx := (if took then x.rx.drop 1 else x.rx).map (fun e => (e.1 - 1, e.2)),
    rxFreed := if took then x.rxFreed ++ [2] else x.rxFreed }

/-- Whether the lane transmits: enabled, not idle, PLL locked, attached island awake, no boundary-scan test (R397, R403, R410). -/
def laneSends (d : Dev) (g : Nat) : Bool :=
  let ctl := d.reg (laneNode g) (laneOff R.LANE_CTL g)
  ctl.getLsbD 0 && !ctl.getLsbD 4 && pllLocked d (g / 9) && !laneStatusBit d g 5 &&
    (d.fld (laneNode g) R.LANE_GRP_CFG 0 2 ≠ 2 || inIsland (d.isl (laneIsland (g / 9))).state)

/-- The word a lane's transmitter sends at a word boundary: the generator's, or in fabric mode the FIFO's, or the alternating pattern
with tx_underrun (R400, R408). -/
def laneTxWord (d : Dev) (g : Nat) : W128 × Dev :=
  let fw := laneFw d (g / 9)
  let x := d.lane g
  let code := laneTest d g 0 3
  if code ≠ 0 then
    let (bits, st) := prbsBits code fw x.gen 0 0
    let w : W128 := BitVec.ofNat 128 bits
    let w := if laneTest d g 7 1 = 1 then w ^^^ BitVec.ofNat 128 (2 ^ fw - 1) else w
    let n := x.injPeriodic + (if x.injSingle then 1 else 0)
    let w := w ^^^ BitVec.ofNat 128 (2 ^ (min n fw) - 1)
    let d := if x.injSingle then countInj d g 1 else d
    (w, d.setLane g { x with gen := st, genBits := x.genBits + fw, injSingle := false, injPeriodic := 0 })
  else
    match x.tx with
    | (0, w) :: rest => (w, d.setLane g { x with tx := rest, txFreed := x.txFreed ++ [2] })
    | _ => (BitVec.ofNat 128 (0x55555555555555555555555555555555 % 2 ^ fw), laneEvent d g 4)

/-- A received word: the checker, then the receive FIFO or rx_overrun (R399, R400, R408). -/
def laneRxWord (d : Dev) (g : Nat) (w : W128) : Dev :=
  let fw := laneFw d (g / 9)
  let code := laneTest d g 4 3
  let d := if code = 0 || debugFrozen d (regTenant d (laneNode g) (laneOff R.LANE_TEST_CTL g)) 3 then d else
    let (x, miss) := chkWord code (laneTest d g 7 1 = 1) w fw (d.lane g)
    let d := d.setLane g x
    if laneStatusBit d g 2 then
      let a (o n : Nat) (d : Dev) : Dev :=
        d.setReg64 (laneNode g) (laneOff o g) (BitVec.ofNat 64 (satAdd (d.reg64 (laneNode g) (laneOff o g)).toNat n (2 ^ 64 - 1)))
      a R.LANE_PRBS_BITS fw (a R.LANE_PRBS_ERR miss d)
    else d
  let x := d.lane g
  if d.fld (laneNode g) R.LANE_GRP_CFG 0 2 ≠ 2 then d
  else if x.rx.length + x.rxFreed.length ≥ 16 then laneEvent d g 5
  else d.setLane g { x with rx := x.rx ++ [(2, w &&& BitVec.ofNat 128 (2 ^ fw - 1))] }

/-- The receiver cuts its next word from the bit stream at its word boundary, `slip` bits after that of the words on the pins; the word
that a boundary moved away from its start is not complete yet (R409). -/
def laneCut (d : Dev) (g : Nat) (raw : W128) : Option W128 × Dev :=
  let fw := laneFw d (g / 9)
  let x := d.lane g
  let s := x.slip
  let w : W128 := ((x.rxPrev >>> s) ||| (raw <<< (fw - s))) &&& BitVec.ofNat 128 (2 ^ fw - 1)
  (if s = 0 then some raw else if x.rxAt = 0 then none else some w, d.setLane g { x with rxAt := s, rxPrev := raw })

/-- A word boundary outside fabric mode: a test mode sends and checks as it does there (R400 to R404). -/
def testing (d : Dev) (g : Nat) : Bool := laneTest d g 0 3 ≠ 0 || laneTest d g 4 3 ≠ 0 || laneTest d g 8 2 ≠ 0

/-- A word boundary of a lane in fabric mode, or under test (R400, R408): `rxw` is the word on the receive pins. In the near-end loop
rx_inv acts and tx_inv does not. -/
def laneWordClock (d : Dev) (g : Nat) (rxw : W128) : Dev :=
  let fw := laneFw d (g / 9)
  let all : W128 := BitVec.ofNat 128 (2 ^ fw - 1)
  let ctl := d.reg (laneNode g) (laneOff R.LANE_CTL g)
  let fabric := d.fld (laneNode g) R.LANE_GRP_CFG 0 2 = 2
  if (!fabric && !testing d g) || lanesTested d then d
  else if d.fld 0x146 R.PWR_DEV_STATE 0 2 ≠ 0 && !d.standbyEmulated then d
  else if fabric && !inIsland (d.isl (laneIsland (g / 9))).state then laneEmpty d g
  else
    let loop := laneTest d g 8 2
    let x := d.lane g
    -- flags reach the word-clock side in 2 of its edges
    let d := d.setLane g { x with tx := x.tx.map (fun e => (e.1 - 1, e.2)), rxFreed := (x.rxFreed.filter (· > 1)).map (· - 1) }
    let lol := laneStatusBit d g 1
    let seen (w : W128) : W128 := if ctl.getLsbD 3 then (w &&& all) ^^^ all else w &&& all
    -- outside fabric mode the link's own flits leave by FLIT_TRANSMIT
    let sends := laneSends d g && (fabric || loop = 2 || laneTest d g 0 3 ≠ 0)
    let (w, d) := if !sends then (0#128, d) else if loop = 2 then (seen rxw, d) else laneTxWord d g
    let d := if sends && !(loop = 2 && lol) then d.emit (.laneWord g (if ctl.getLsbD 2 then w ^^^ all else w)) else d
    if ctl.getLsbD 1 && !lol && !laneStatusBit d g 5 then
      match laneCut d g (seen (if loop = 1 then w else rxw)) with
      | (some u, d) => laneRxWord d g u
      | (none, d) => d
    else d

def execLaneWordClock (g : LaneIx) (rxw : W128) (s : State) := s.run (fun d => laneWordClock d g.val rxw)

/-- LANE_STATUS as read: tx_fifo_empty is live (R413). -/
def laneStatusView (d : Dev) (g : Nat) : Word :=
  putBits (d.reg (laneNode g) (laneOff R.LANE_STATUS g)) 4 1
    (if d.fld (laneNode g) R.LANE_GRP_CFG 0 2 = 2 && (d.lane g).tx.isEmpty then 1 else 0)

end Sys2Proof.Machine
end

