-- ==== Sys2Proof/Machine/Signals.lean ====
section
/-! DEFINITION. The signal controller (R581 to R592). -/

namespace Sys2Proof.Machine

/-! ### Sources (R581 to R583) -/

/-- Whether a bit and its enable are both set. -/
def bitEn (d : Dev) (node off en b : Nat) : Bool := d.flag node off b && d.flag node en b

/-- Whether a mask's bits of one register meet another's. -/
def anyEn (d : Dev) (node off en : Nat) (m : Word) : Bool := (d.reg node off &&& d.reg node en &&& m) != 0

/-- Hub-unit source k (R583). -/
def hubAsserted (d : Dev) (k : Nat) : Bool :=
  if k < 10 then bitEn d 0x141 R.COX_EVENTS R.COX_SIG_EN k
  else if 16 ≤ k && k < 22 then bitEn d 0x142 R.CFG_EVENTS R.CFG_SIG_EN (k - 16)
  else if k = 22 then d.fld 0x142 R.CRW_EVENTS 0 5 ≠ 0
  else if 32 ≤ k && k < 48 then bitEn d (0x164 + (k - 32) / 4) R.SCB_EVENTS R.SCB_SIG_EN ((k - 32) % 4)
  else if 48 ≤ k && k < 52 then d.fld (0x160 + (k - 48)) R.CAT_SEAL_ERR 0 2 ≠ 0
  else if 56 ≤ k && k < 66 then d.flag 0x146 R.PWR_ALARM (k - 56)
  else if 72 ≤ k && k < 77 then d.flag 0x143 R.DBG_HUB_EVENTS (k - 72)
  else if 80 ≤ k && k < 86 then bitEn d 0x145 R.LOG_EVENTS R.LOG_SIG_EN (k - 80)
  else if k = 88 || k = 89 then d.flag 0x144 R.SIG_EVENTS (k - 88)
  else if 96 ≤ k && k < 112 then d.flag 0x143 (dbgArea R.DBG_HALT_STATUS (k - 96)) 0
  else false

/-- LNK_EVENTS bits of link source k (R449). -/
def linkGroup (k : Nat) : Nat := if k = 0 then 0xF else if k = 1 then 0x10 else if k = 2 then 0xE0 else 0x1F00

/-- Whether source s is asserted now. -/
def sigAsserted (d : Dev) (s : Nat) : Bool :=
  if s < 2048 then bitEn d (s / 8) R.ISL_SIG_CAUSE R.ISL_SIG_EN (s % 8)
  else if s < 3104 then
    let e := (s - 2048) / 2
    let ev := d.reg (engNode e) (sclOff e R.SCL_EVENTS)
    let en := d.reg (engNode e) (sclOff e R.SCL_SIG_EN)
    if s % 2 = 0 then ev.getLsbD 0 && en.getLsbD 0
    else en.getLsbD 1 && (ev.getLsbD 1 || ev.getLsbD 2 || ev.getLsbD 4 || ev.getLsbD 5 || ev.getLsbD 6 || ev.getLsbD 7)
  else if s < 3232 then (s - 3104) % 16 < 8 && bitEn d (0x100 + (s - 3104) / 16) R.DDR_EVENTS R.DDR_SIG_EN ((s - 3104) % 16)
  else if s < 3520 then
    let g := s - 3232
    anyEn d (laneNode g) (laneOff R.LANE_EVENTS g) (laneOff R.LANE_SIG_EN g) 0xFF
  else if s < 3648 then
    let n := (s - 3520) / 4
    let k := (s - 3520) % 4
    (d.reg (0x110 + n) R.LNK_EVENTS &&& BitVec.ofNat 32 (linkGroup k)) != 0 && d.flag (0x110 + n) R.LNK_SIG_EN k
  else if s < 3776 then
    let k := s - 3648
    if k < 68 then
      let ev := d.reg 0x140 (fnArea (k / 4) R.HIF_FN_EVENTS)
      if k % 4 = 0 then ev.getLsbD 0 else if k % 4 = 1 then ev.getLsbD 3 else if k % 4 = 2 then ev.getLsbD 1 || ev.getLsbD 2
      else ev.getLsbD 4
    else k < 72 && d.flag 0x140 R.HIF_EVENTS (k - 68)
  else s < 3904 && hubAsserted d (s - 3776)

/-- DEDUCED: log entry 50. -/
def sigEn (d : Dev) (s : Nat) : Bool := d.flag 0x144 (sigCfg s) 16
def sigGroup (d : Dev) (s : Nat) : Nat := d.fld 0x144 (sigCfg s) 0 6
def sigDirect (d : Dev) (s : Nat) : Nat := d.fld 0x144 (sigCfg s) 6 10

/-! ### Targets and groups (R584 to R587) -/

/-- Whether a target is enabled. -/
def tgtEnabled (d : Dev) (j : Nat) : Bool :=
  if j < 528 then
    let x := d.eng j
    x.run ≠ 0 && x.run ≠ 5 && !x.outOfService
  else if j = 528 then coxState d = 1
  else j = 529 && d.flag 0x144 R.SIG_HOST_CFG 31

def tgtInGroup (d : Dev) (j g : Nat) : Bool := d.flag 0x144 (R.SIG_TGT_GRP + 8 * j + 4 * (g / 32)) (g % 32)
def grpEnabled (d : Dev) (g : Nat) : Bool := d.flag 0x144 (R.SIG_GRP_CFG + 8 * g) 31
def grpPrin (d : Dev) (g : Nat) : Nat := d.fld 0x144 (R.SIG_GRP_CFG + 8 * g) 0 4
def sigDirected (d : Dev) : Bool := d.flag 0x144 R.SIG_MODE 0

/-- The enabled members of a group, ascending. -/
def grpMembers (d : Dev) (g : Nat) : List Nat := (List.range 530).filter (fun j => tgtInGroup d j g && tgtEnabled d j)

/-- The next member in round robin: after the last target the group chose, wrapping. DEDUCED: log entry 48. -/
def grpNext (d : Dev) (g : Nat) : Option Nat :=
  let l := grpMembers d g
  let from_ := tget d.grpLast 0 g
  match l.find? (fun j => from_ ≤ j) with
  | some j => some j
  | none => l.head?

/-- The one target a source goes to in directed mode (R587). DEDUCED: log entry 48. -/
def directTarget (d : Dev) (s : Nat) : Nat :=
  if 2048 ≤ s && s < 3104 then (s - 2048) / 2
  else if 3776 ≤ s && s < 3786 then 528
  else if 3716 ≤ s && s < 3720 then 529
  else sigDirect d s

/-- The target of source s now, if any (R586, R587). -/
def sigTarget (d : Dev) (s : Nat) : Option Nat :=
  if sigDirected d then (if tgtEnabled d (directTarget d s) then some (directTarget d s) else none)
  else if grpEnabled d (sigGroup d s) then grpNext d (sigGroup d s)
  else none

/-- Whether target j may hold source s pending (R586). -/
def sigEligible (d : Dev) (s j : Nat) : Bool :=
  tgtEnabled d j &&
    (if sigDirected d then j = directTarget d s else grpEnabled d (sigGroup d s) && tgtInGroup d j (sigGroup d s))

/-! ### Delivery and withdrawal (R586 to R589) -/

/-- Source s becomes pending for target j; for the host it is one counted completion (R589). -/
def sigPend (d : Dev) (s j : Nat) : Dev :=
  let d := d.setSig s { st := 1, tgt := j }
  let d := if sigDirected d then d else { d with grpLast := tput d.grpLast 0 (sigGroup d s) (j + 1) }
  if j = 529 then vecCount d (d.fld 0x140 R.HIF_FN_VEC 0 11 + d.fld 0x144 R.SIG_HOST_CFG 0 11) else d

/-- Deliver source s if it is idle, asserted and enabled; a group with no enabled member leaves it idle and sets no_member. -/
def sigDeliver (d : Dev) (s : Nat) : Dev :=
  if !((d.sig s).st = 0 && sigEn d s && sigAsserted d s) then d
  else match sigTarget d s with
    | some j => sigPend d s j
    | none => if sigDirected d || d.flag 0x144 R.SIG_EVENTS 0 then d else d.sticky 0x144 0 26 0 R.SIG_EVENTS

def sigWithdraw (d : Dev) (s : Nat) : Dev := d.setSig s {}

/-- Whether a pending source must be withdrawn (R586). -/
def sigLost (d : Dev) (s : Nat) : Bool :=
  (d.sig s).st = 1 && !(sigAsserted d s && sigEn d s && sigEligible d s (d.sig s).tgt)

/-- Sources pending now. -/
def sigPending (d : Dev) : List Nat := (d.sigs.filter (fun e => e.2.st = 1)).map (·.1)

/-- Withdraw the listed sources, then deliver them afresh. -/
def sigAfresh (d : Dev) (l : List Nat) : Dev := l.foldl sigDeliver (l.foldl sigWithdraw d)

/-- Withdraw and redeliver what is no longer eligible. -/
def sigSettle (d : Dev) : Dev := sigAfresh d ((sigPending d).filter (sigLost d))

def execSignalDeliver (k : Fin 4095) (s : State) : Host.Outcome State Fault Refusal := s.run (fun d => sigDeliver d k.val)

def execSignalWithdraw (k : Fin 4095) (s : State) : Host.Outcome State Fault Refusal :=
  s.run (fun d => if sigLost d k.val then sigWithdraw d k.val else d)

/-! ### Register writes (R585, R588, R590) -/

/-- Record 528 is written from the Cox only (R604). DEDUCED: log entry 50. -/
def recordGuard (j : Nat) (f : Writer) : Writer := fun d r n o v =>
  if j = 528 && r.node ≠ 0x141 then (deniedHere d r n o, .denied) else f d r n o v

def tgtOff (base j : Nat) : Nat := base + 0x40 * j

/-- A claim: takes a source pending for the record's own target. -/
def claimWriter : Writer := fun d r node off v =>
  let j := (off - R.SIG_CLAIM) / 0x40
  recordGuard j (fun d _ _ _ v =>
    let s := v % 4096
    if (d.sig s).st = 1 && (d.sig s).tgt = j then
      ((d.setSig s { st := 2, tgt := j }).setReg 0x144 (tgtOff R.SIG_CLAIM_RESULT j) (BitVec.ofNat 32 s), .ok)
    else (d.setReg 0x144 (tgtOff R.SIG_CLAIM_RESULT j) 0xFFF, .ok)) d r node off v

/-- SIG_DONE: a held source returns to idle and, still asserted, is delivered again at once. -/
def doneWriter : Writer := fun d r node off v =>
  let j := (off - R.SIG_DONE) / 0x40
  recordGuard j (fun d _ _ _ v =>
    let s := v % 4096
    if (d.sig s).st = 2 && (d.sig s).tgt = j then (sigDeliver (sigWithdraw d s) s, .ok)
    else (d.orReg 0x144 (tgtOff R.SIG_TGT_STATUS j) (bit 30), .ok)) d r node off v

/-- The other writable registers of a target record. -/
def recordWriter : Writer := fun d r node off v =>
  recordGuard ((off - 0x6000) / 0x40) storeWriter d r node off v

def sigModeWriter : Writer := fun d _ _ _ v =>
  let l := sigPending d
  let d := l.foldl sigWithdraw d
  (l.foldl sigDeliver (d.setReg 0x144 R.SIG_MODE (BitVec.ofNat 32 (v % 2))), .ok)

/-- A refused setting: BAD_STATE and cfg_refused. DEDUCED: log entry 49. -/
def cfgRefused (d : Dev) : Dev × Status := (d.sticky 0x144 0 26 1 R.SIG_EVENTS, .badState)

def tgtGrpWriter : Writer := fun d _ _ off v =>
  let j := (off - R.SIG_TGT_GRP) / 8
  if (List.range 64).any (fun g => v.testBit g && grpPrin d g ≠ tgtPrin d j) then cfgRefused d
  else (sigSettle (d.setReg64 0x144 (R.SIG_TGT_GRP + 8 * j) (BitVec.ofNat 64 v)), .ok)

def srcCfgWriter : Writer := fun d _ _ off v =>
  let s := (off - R.SIG_SRC_CFG) / 4
  let p := srcPrin d s
  let ok (q : Nat) : Bool := q = p || q = 0
  if !(ok (grpPrin d (v % 64)) && ok (tgtPrin d (v / 64 % 1024))) then cfgRefused d
  else
    let was := (d.sig s).st = 1
    let d := if was then sigWithdraw d s else d
    let d := d.setReg 0x144 (sigCfg s) (BitVec.ofNat 32 (v % 0x20000))
    (if was then sigDeliver d s else d, .ok)

/-- Whether any target is a member of a group, or any source names it. -/
def grpUsed (d : Dev) (g : Nat) : Bool :=
  (List.range 530).any (fun j => tgtInGroup d j g) || (List.range 4095).any (fun s => sigGroup d s = g)

def grpCfgSigWriter : Writer := fun d _ _ off v =>
  let g := (off - R.SIG_GRP_CFG) / 8
  if v % 16 ≠ grpPrin d g && grpUsed d g then cfgRefused d
  else (sigSettle (d.setReg 0x144 (R.SIG_GRP_CFG + 8 * g) (BitVec.ofNat 32 v &&& 0x8000000F)), .ok)

/-- SIG_HOST_CFG: the host target's enable. -/
def hostCfgWriter : Writer := fun d r node off v => let (d, st) := storeWriter d r node off v; (sigSettle d, st)

def execSigClaim (r : Req) (j : Fin 530) (v : Word) (s : State) : Host.Outcome State Fault Refusal :=
  s.run (fun d => d.regCmd r 0x144 (tgtOff R.SIG_CLAIM j.val) v claimWriter)
def execSigDone (r : Req) (j : Fin 530) (v : Word) (s : State) : Host.Outcome State Fault Refusal :=
  s.run (fun d => d.regCmd r 0x144 (tgtOff R.SIG_DONE j.val) v doneWriter)
def execSigModeWrite (r : Req) (v : Word) (s : State) : Host.Outcome State Fault Refusal :=
  s.run (fun d => d.regCmd r 0x144 R.SIG_MODE v sigModeWriter)
/-- The low word; a high word written before is held (R14). -/
def execSigTgtGrpWrite (r : Req) (j : Fin 530) (v : Word) (s : State) : Host.Outcome State Fault Refusal :=
  s.run (fun d => d.regCmd r 0x144 (R.SIG_TGT_GRP + 8 * j.val) v tgtGrpWriter)
def execSigSrcCfgWrite (r : Req) (k : Fin 4095) (v : Word) (s : State) : Host.Outcome State Fault Refusal :=
  s.run (fun d => d.regCmd r 0x144 (sigCfg k.val) v srcCfgWriter)
def execSigGrpCfgWrite (r : Req) (g : Fin 64) (v : Word) (s : State) : Host.Outcome State Fault Refusal :=
  s.run (fun d => d.regCmd r 0x144 (R.SIG_GRP_CFG + 8 * g.val) v grpCfgSigWriter)

/-! ### Values read (R589, R604) -/

def sigStatusView (d : Dev) : Word :=
  let idle := (List.range 3904).filter (fun s => (d.sig s).st = 0 && sigEn d s && sigAsserted d s)
  BitVec.ofNat 32 ((if sigDirected d then 1 else 0) + idle.length * 65536)

/-- DEDUCED: log entry 49. -/
def grpStatusView (d : Dev) (g : Nat) : Word :=
  let l := grpMembers d g
  BitVec.ofNat 32 (tget d.grpLast 0 g - 1 + l.length * 65536 + (if grpEnabled d g && !l.isEmpty then 0 else 2 ^ 31))

def srcCfgView (d : Dev) (s : Nat) : Word :=
  let x := d.sig s
  d.reg 0x144 (sigCfg s) ||| BitVec.ofNat 32 ((if sigAsserted d s then 2 ^ 17 else 0) + x.st * 2 ^ 18 + x.tgt * 2 ^ 20)

def pendFor (d : Dev) (j s : Nat) : Bool := (d.sig s).st = 1 && (d.sig s).tgt = j

/-- Word k of SIG_SUM: bit b while any source of word 32k + b is pending for j. DEDUCED: log entry 49. -/
def sigSumView (d : Dev) (j k : Nat) : Word :=
  BitVec.ofNat 32 ((List.range 32).foldl (fun a b =>
    a + (if d.sigs.any (fun e => e.1 / 32 = 32 * k + b && e.2.st = 1 && e.2.tgt = j) then 2 ^ b else 0)) 0)

def sigPendView (d : Dev) (j : Nat) : Word :=
  let w := d.fld 0x144 (tgtOff R.SIG_PEND_SEL j) 0 7
  BitVec.ofNat 32 ((List.range 32).foldl (fun a b => a + (if pendFor d j (32 * w + b) then 2 ^ b else 0)) 0)

def tgtStatusView (d : Dev) (j : Nat) : Word :=
  let n (st : Nat) := (d.sigs.filter (fun e => e.2.st = st && e.2.tgt = j)).length
  d.reg 0x144 (tgtOff R.SIG_TGT_STATUS j) |||
    BitVec.ofNat 32 ((if tgtEnabled d j then 1 else 0) + n 1 * 2 + n 2 * 2 ^ 13)

end Sys2Proof.Machine
end

