-- ==== Sys2Proof/Machine/Dram.lean ====
section
/-! DEFINITION. DRAM controllers (R361 to R391). -/

namespace Sys2Proof.Machine

def dn (n : Nat) : Nat := 0x100 + n

/-! ### Geometry (R362 to R366) -/

/-- Row bits of a channel's devices (R362). -/
def rowBits (d : Dev) (n : Nat) : Nat :=
  16 + (if d.flag (dn n) R.DDR_DEV_CFG 0 then 0 else 1) + (if d.flag (dn n) R.DDR_DEV_CFG 1 then 1 else 0)

/-- Capacity in GiB: 2^(17 + R) bytes of each subchannel's rank, two subchannels. -/
def dramGiB (d : Dev) (n : Nat) : Nat := 2 ^ (rowBits d n - 12) * (if d.flag (dn n) R.DDR_DEV_CFG 2 then 2 else 1)

/-- Subchannel of a burst, and its subchannel-local burst number (R366). -/
def subOf (b : Nat) : Nat := b / 32 % 2
def subBurst (b : Nat) : Nat := b / 64 * 32 + b % 32
/-- The burst at subchannel x and local burst number p. -/
def burstAt (x p : Nat) : Nat := p / 32 * 64 + x * 32 + p % 32

/-- Key of a burst's bank within its channel, and its row. -/
def dramBank (d : Dev) (n b : Nat) : Nat :=
  let p := subBurst b
  subOf b * 64 + p / 2 ^ (11 + rowBits d n) % 2 * 32 + p / 512 % 4 * 8 + p / 64 % 8
def dramRow (d : Dev) (n b : Nat) : Nat := subBurst b / 2048 % 2 ^ rowBits d n

/-- The tenant that holds a granule: 0 is the Owner (R49, R57). -/
def granOwner (d : Dev) (g : Nat) : Nat := ((d.tenants.find? (fun e => e.2.granules.getLsbD g)).map (·.1)).getD 0
/-- A granule's bit in the Cox granule map (R60). -/
def granMapped (d : Dev) (g : Nat) : Bool := d.flag 0x141 (R.COX_GMAP + 4 * (g / 32)) (g % 32)

/-- Where a table puts a granule: channel mask and channel-local base of the granule. -/
def granPlace (t : List (Nat × Nat × Nat × Nat)) (g : Nat) : Option (Nat × Nat) :=
  (t.find? (fun s => s.1 ≤ g && g < s.1 + s.2.1)).map
    (fun s => (s.2.2.1, s.2.2.2 * 2 ^ 30 + (g - s.1) * 2 ^ 30 / (maskChannels s.2.2.1).length))

/-- Granules with a part in a channel. -/
def granulesOn (d : Dev) (n : Nat) : List Nat :=
  (List.range 1024).filter (fun g => match granPlace d.isets g with | some (m, _) => m.testBit n | none => false)

/-- The channel-local range of a granule's part in a channel. -/
def granRange (d : Dev) (g : Nat) : Option (Nat × Nat) :=
  (granPlace d.isets g).map (fun e => (e.2, 2 ^ 30 / (maskChannels e.1).length))

/-- The device DRAM address of a channel-local address, the inverse of R364. -/
def dramAddr (d : Dev) (n c : Nat) : Option Nat :=
  d.isets.findSome? (fun s =>
    let ch := maskChannels s.2.2.1
    let k := ch.length
    let lo := s.2.2.2 * 2 ^ 30
    match ch.findIdx? (· == n) with
    | some i => if lo ≤ c && c < lo + s.2.1 * 2 ^ 30 / k then
        some (s.1 * 2 ^ 30 + ((c - lo) / 4096 * k + i) * 4096 + c % 4096) else none
    | none => none)

/-! ### Bursts and their code (R373 to R375) -/

/-- α times an element of GF(2^8) with x^8 + x^4 + x^3 + x^2 + 1. -/
def gfDouble (a : BitVec 8) : BitVec 8 := if a.getLsbD 7 then (a <<< 1) ^^^ 0x1D#8 else a <<< 1
def gfMul (a b : BitVec 8) : BitVec 8 :=
  ((List.range 8).foldl (fun (acc : BitVec 8 × BitVec 8) k => (if b.getLsbD k then acc.1 ^^^ acc.2 else acc.1, gfDouble acc.2)) (0, a)).1
def gfPow (k : Nat) : BitVec 8 := (List.range k).foldl (fun a _ => gfDouble a) 1

/-- A polynomial as its coefficients, highest first, times x − α^k. -/
def mulRoot (l : List (BitVec 8)) (k : Nat) : List (BitVec 8) :=
  List.zipWith (· ^^^ ·) (l ++ [0]) (0 :: l.map (gfMul (gfPow k)))
/-- g(x) = (x − α^0) … (x − α^15), its leading coefficient left out. -/
def rsGen : List (BitVec 8) := ((List.range 16).foldl mulRoot [1]).drop 1

/-- The 16 check symbols of 64 data symbols, in ascending σ: the remainder of their polynomial, as coefficients of x^79 to x^16, modulo
g(x) (R373). -/
def rsCheck (data : List (BitVec 8)) : List (BitVec 8) :=
  data.foldl (fun r a =>
    let q := a ^^^ r.headD 0
    List.zipWith (· ^^^ ·) (r.drop 1 ++ [0]) (rsGen.map (gfMul q))) (List.replicate 16 0)

/-- The codeword of a burst's data, symbol σ at bits 8σ: data symbols in pin groups 0 to 7, check symbols in groups 8 and 9. -/
def rsWord (v : BitVec 512) : BitVec 640 :=
  let byte (k : Nat) : BitVec 8 := v.extractLsb' (8 * k) 8
  let chk := rsCheck ((List.range 64).map byte)
  (List.range 80).foldl (fun a s =>
    let x := if s % 10 < 8 then byte (8 * (s / 10) + s % 10) else chk.getD (2 * (s / 10) + (s % 10 - 8)) 0
    a ||| (x.setWidth 640 <<< (8 * s))) 0

def symOf (m : BitVec 640) (s : Nat) : BitVec 8 := m.extractLsb' (8 * s) 8
def errGroups (m : BitVec 640) : List Nat := (List.range 10).filter (fun p => (List.range 8).any (fun b => symOf m (10 * b + p) != 0))
def errSyms (m : BitVec 640) : Nat := ((List.range 80).filter (fun s => symOf m s != 0)).length

/-- What the data bytes of a codeword's disturbed bits are: byte k of the burst is symbol 10 (k / 8) + k mod 8. -/
def errData (m : BitVec 640) : BitVec 512 :=
  (List.range 64).foldl (fun a k => a ||| ((symOf m (10 * (k / 8) + k % 8)).setWidth 512 <<< (8 * k))) 0

/-- DESIGN CHOICE: log entry 53. -/
def burstData (x : Dram) (b : Nat) : BitVec 512 :=
  tget x.data 0 (4 * b + 3) ++ tget x.data 0 (4 * b + 2) ++ tget x.data 0 (4 * b + 1) ++ tget x.data 0 (4 * b)

/-- The codeword as the DRAM holds it: that of the burst's data with its disturbed bits. -/
def burstCode (x : Dram) (b : Nat) : BitVec 640 := rsWord (burstData x b) ^^^ tget x.errs 0 b

/-- Data as stored, disturbed bits included. -/
def burstRaw (x : Dram) (b : Nat) : BitVec 512 := burstData x b ^^^ errData (tget x.errs 0 b)

def putBurst (x : Dram) (b : Nat) (v : BitVec 512) : Dram :=
  { x with
    data := (List.range 4).foldl (fun t k => tput t 0 (4 * b + k) (v.extractLsb' (128 * k) 128)) x.data,
    errs := tput x.errs 0 b 0 }

def poisonOff (p : Nat) : Nat := R.DDR_POISON + 4 * p
def poisonIx (d : Dev) (n b : Nat) : Option Nat :=
  (List.range 16).find? (fun p => d.flag (dn n) (poisonOff p) 31 && d.fld (dn n) (poisonOff p) 0 31 = b)
def poisonFree (d : Dev) (n : Nat) : Option Nat := (List.range 16).find? (fun p => !d.flag (dn n) (poisonOff p) 31)
def poisonAdd (d : Dev) (n b : Nat) : Dev :=
  match poisonIx d n b, poisonFree d n with
  | none, some p => d.setReg (dn n) (poisonOff p) (BitVec.ofNat 32 (b + 2 ^ 31))
  | _, _ => d
def poisonDrop (d : Dev) (n b : Nat) : Dev :=
  match poisonIx d n b with
  | some p => d.setReg (dn n) (poisonOff p) 0
  | none => d

/-- Write a whole burst with its check bits; its poison entry goes (R375). -/
def writeBurst (d : Dev) (n b : Nat) (v : BitVec 512) : Dev := poisonDrop (d.updDram n (fun x => putBurst x b v)) n b

def ddrEvent (d : Dev) (n b : Nat) : Dev :=
  let d := d.orReg (dn n) R.DDR_EVENTS (bit b)
  d.eventP (dn n) 0 (if b = 0 then 3 else 8) 11 b 0 (d.reg (dn n) R.DDR_EVENTS)
    (d.reg (dn n) R.DDR_ERR_ADDR) (d.reg (dn n) (R.DDR_ERR_ADDR + 4)) 0

/-- Report a decode (R374): agent 0 request, 1 patrol, 2 read-modify-write. -/
def reportBurst (d : Dev) (n b group agent : Nat) (ue : Bool) : Dev :=
  let c := 64 * b
  let k := if ue then 1 else 0
  let d := d.countFld (dn n) R.DDR_ECC_COUNT (16 * k) 16 1
  let d := if d.flag (dn n) R.DDR_ERR_INFO 31 then d else
    (d.setReg64 (dn n) R.DDR_ERR_ADDR (BitVec.ofNat 64 c)).setReg (dn n) R.DDR_ERR_INFO
      (BitVec.ofNat 32 (subOf b + dramBank d n b / 32 % 2 * 2 + group * 4 + k * 64 + agent * 128 + 2 ^ 31))
  let d := match dramAddr d n c with
    | some a =>
      let o := R.DDR_TEN_ERR + 8 * granOwner d (a / 2 ^ 30)
      let d := (d.setReg (dn n) o (BitVec.ofNat 32 a)).setFld (dn n) (o + 4) 0 8 (a / 2 ^ 32)
      if ue then d.countFld (dn n) (o + 4) 24 8 1 else d.countFld (dn n) (o + 4) 8 16 1
    | none => d
  ddrEvent d n k

/-- Read a burst through the decoder: its data and whether it is uncorrectable. A correction is written back. An error of nine
symbols or more may be miscorrected: which of the two happens, and the wrong data, are free values. -/
def readBurst (d : Dev) (n b agent : Nat) : Dev × BitVec 512 × Bool :=
  let x := d.dram n
  let m := tget x.errs 0 b
  if m = 0 then (d, burstData x b, false)
  else match errGroups m with
    | [p] =>
      let d := reportBurst d n b p agent false
      (d.updDram n (fun x => putBurst x b (burstData x b)), burstData x b, false)
    | _ =>
      if errSyms m ≤ 8 then (reportBurst d n b 15 agent true, burstRaw x b, true)
      else
        let (k, d) := d.draw
        if k % 2 = 0 then (reportBurst d n b 15 agent true, burstRaw x b, true)
        else
          let (v, d) := d.draw
          let (p, d) := d.draw
          let d := reportBurst d n b (p % 10) agent false
          (d.updDram n (fun x => putBurst x b (BitVec.ofNat 512 v)), BitVec.ofNat 512 v, false)

/-! ### Freeze (R377) -/

def answerAll (d : Dev) (n : Nat) (l : List DramReq) (st : Status) : Dev := l.foldl (fun (d : Dev) q => d.respond (dn n) q.pkt st []) d

/-- The channel freezes: cause 1 data, 2 parity, 3 list full; every queued request is answered FROZEN and kept.
DESIGN CHOICE: log entry 146. -/
def freeze (d : Dev) (n cause b : Nat) : Dev :=
  let x := d.dram n
  let d := if cause = 2 then d else poisonAdd d n b
  let kept := x.queue.foldl (fun a q => a + q.todo.length) 0
  let d := d.setReg (dn n) R.DDR_FRZ_INFO (BitVec.ofNat 32 (cause + min kept 511 * 16 + 2 ^ 31))
  let d := d.setReg64 (dn n) R.DDR_FRZ_ADDR (BitVec.ofNat 64 (if cause = 2 then 0 else 64 * b))
  let d := answerAll d n x.queue .frozen
  let d := d.updDram n (fun x => { x with state := 3, kept := x.kept ++ x.queue, queue := [] })
  let d := if cause = 2 then ddrEvent d n 3 else d
  ddrEvent d n 2

/-- An uncorrectable burst met by a request: whether it freezes the channel, and with which cause. -/
def freezeCause (d : Dev) (n b : Nat) : Option Nat :=
  if (poisonIx d n b).isSome then none else if (poisonFree d n).isSome then some 1 else some 3

/-! ### Requests (R367, R368) -/

/-- Bytes a command covers. -/
def cmdBytes (p : Pkt) : Nat :=
  if p.cmd = 1 ∨ p.cmd = 8 then 16 * p.len
  else if p.cmd = 2 ∨ p.cmd = 9 then 1 else if p.cmd = 3 ∨ p.cmd = 0xA then 2 else 4

/-- Bursts of a request in a subchannel. -/
def reqBursts (q : DramReq) (x : Nat) : List Nat :=
  ((List.range ((q.loc + q.len - 1) / 64 + 1 - q.loc / 64)).map (· + q.loc / 64)).filter (fun b => subOf b = x)

def isRead (p : Pkt) : Bool := 1 ≤ p.cmd && p.cmd ≤ 4

/-- The bytes a request writes into a burst over old content; atomics take their word from the old. -/
def writeInto (q : DramReq) (b : Nat) (old : BitVec 512) : BitVec 512 :=
  let p := q.pkt
  let wide := p.cmd = 8
  let src (a : Nat) : BitVec 8 :=
    if wide then ((p.data[(a - q.loc) / 16]?).getD 0).extractLsb' (8 * (a % 16)) 8
    else
      let lane := (p.data.headD 0).extractLsb' (8 * (q.loc % 16)) 32
      let w : BitVec 32 := if p.cmd = 0xD then lane + old.extractLsb' (8 * (q.loc % 64)) 32 else lane
      w.extractLsb' (8 * (a - q.loc)) 8
  (List.range 64).foldl (fun v k =>
    let a := 64 * b + k
    if q.loc ≤ a && a < q.loc + q.len then
      (v &&& ~~~(0xFF#512 <<< (8 * k))) ||| ((src a).setWidth 512 <<< (8 * k))
    else v) old

/-- Put the units of a burst that a read or atomic answers with. -/
def takeUnits (q : DramReq) (b : Nat) (v : BitVec 512) : DramReq :=
  { q with got := (List.range 4).foldl (fun t k =>
      let u := 4 * b + k
      if q.loc / 16 ≤ u && u ≤ (q.loc + q.len - 1) / 16 then tput t 0 (u - q.loc / 16) (v.extractLsb' (128 * k) 128) else t) q.got }

/-- The answer's data units. -/
def answerData (q : DramReq) : List W128 :=
  if isRead q.pkt ∨ q.pkt.cmd = 0xC ∨ q.pkt.cmd = 0xD then
    (List.range (answerUnits q.pkt.cmd q.pkt.len)).map (fun u => tget q.got 0 u)
  else []

/-- Whether a request writes a burst whole. -/
def wholeBurst (q : DramReq) (b : Nat) : Bool := q.loc ≤ 64 * b && 64 * b + 64 ≤ q.loc + q.len && !isRead q.pkt

/-- Perform one burst of a request: the request after it, and the freeze cause if it freezes the channel. -/
def doBurst (d : Dev) (n : Nat) (q : DramReq) (b : Nat) : Dev × DramReq × Option Nat :=
  if wholeBurst q b then (writeBurst d n b (writeInto q b 0), q, none)
  else
    let rd := isRead q.pkt
    let (d, v, bad) := readBurst d n b (if rd then 0 else 2)
    let q := takeUnits q b v
    if bad then (d, { q with ue := true }, freezeCause d n b)
    else if rd then (d, q, none)
    else (writeBurst d n b (writeInto q b v), q, none)

/-- Row policy after an access with a page hint (R371). -/
def afterAccess (d : Dev) (n b page : Nat) : Dev :=
  let part := d.flag (dn n) R.DDR_PART 0
  let close := part || page = 2 || (page = 0 && d.flag (dn n) R.DDR_PAGE_CFG 0)
  d.updDram n (fun x => { x with rows := tput x.rows 0 (dramBank d n b) (if close then 0 else dramRow d n b + 1) })

/-- The bursts of a list, in order, until one freezes the channel; the rest are returned. -/
def doBursts (d : Dev) (n : Nat) (q : DramReq) : List Nat → Dev × DramReq × Option (Nat × Nat × List Nat)
  | [] => (d, q, none)
  | b :: r =>
    let (d, q, f) := doBurst (afterAccess d n b q.pkt.page) n q b
    match f with
    | some c => (d, q, some (c, b, r))
    | none => doBursts d n q r

/-- The bursts a freezing request has not reached: a read returns them as stored; whether a write's were written is free (R377).
DESIGN CHOICE: log entry 146. -/
def restOfFrozen (d : Dev) (n : Nat) (q : DramReq) (l : List Nat) : Dev × DramReq :=
  l.foldl (fun (e : Dev × DramReq) b =>
    let (d, q) := e
    if isRead q.pkt then (d, takeUnits q b (burstRaw (d.dram n) b))
    else
      let (k, d) := d.draw
      if k % 2 = 0 then (d, q)
      else if wholeBurst q b then (writeBurst d n b (writeInto q b 0), q)
      else if tget (d.dram n).errs 0 b = 0 then (writeBurst d n b (writeInto q b (burstData (d.dram n) b)), q)
      else (d, q)) (d, q)

/-- Remove the k-th entry of the queue. -/
def dropReq (x : Dram) (k : Nat) : Dram := { x with queue := x.queue.eraseIdx k }

/-- Subchannel x serves the k-th queued request (R367, R374, R377). -/
def serveReq (d : Dev) (n k x : Nat) : Dev :=
  match (d.dram n).queue[k]? with
  | none => d
  | some q =>
    let (d, q, f) := doBursts d n q (reqBursts q x)
    match f with
    | some (cause, b, rest) =>
      let d := d.updDram n (fun y => dropReq y k)
      let others := (q.todo.filter (· ≠ x)).flatMap (reqBursts q)
      let (d, q) := restOfFrozen d n q (rest ++ others)
      freeze (d.respond (dn n) q.pkt .uncorrectable (answerData q)) n cause b
    | none =>
      let todo := q.todo.filter (· ≠ x)
      if todo.isEmpty then
        let d := d.updDram n (fun y => dropReq y k)
        d.respond (dn n) q.pkt (if q.ue then .uncorrectable else .ok) (if q.ue && !isRead q.pkt then [] else answerData q)
      else d.updDram n (fun y => { y with queue := y.queue.set k { q with todo := todo } })

/-! ### Scheduling (R368 to R372, R384) -/

/-- The class of a request (R369). -/
def reqClass (q : DramReq) : Nat := q.pkt.prio / 2

/-- Whether a tenant's requests wait under its debug halt (R575). -/
def dramHeld (d : Dev) (t : Nat) : Bool := debugFrozen d t 4

/-- Whether the k-th request may issue on subchannel x: R368, and banks that the DRAM timings allow now. DESIGN CHOICE: log entry 54. -/
def mayIssue (d : Dev) (n x k : Nat) (q : DramReq) (busy : List Nat) : Bool :=
  let mine := reqBursts q x
  q.todo.contains x && !dramHeld d q.pkt.tenant &&
    !mine.any (fun b => busy.contains (dramBank d n b)) &&
    !((d.dram n).queue.take k).any (fun p => p.todo.contains x && (reqBursts p x).any (fun b => mine.contains b))

def rowHit (d : Dev) (n x : Nat) (q : DramReq) : Bool :=
  match reqBursts q x with
  | b :: _ => tget (d.dram n).rows 0 (dramBank d n b) = dramRow d n b + 1
  | [] => false

/-- Order of R369 as a number, greater first; ties go to the oldest. -/
def rank (d : Dev) (n x : Nat) (q : DramReq) : Nat :=
  if q.promoted then 100 else 2 * reqClass q + (if rowHit d n x q then 1 else 0)

/-- The request a subchannel issues next among those that satisfy `p`. DESIGN CHOICE: log entry 54. -/
def nextReq (d : Dev) (n x : Nat) (busy : List Nat) (p : DramReq → Bool) : Option Nat :=
  let l := (d.dram n).queue.zipIdx.filter (fun e => p e.1 && mayIssue d n x e.2 e.1 busy)
  (l.foldl (fun (best : Option (Nat × Nat)) e =>
    match best with
    | some (_, r) => if r < rank d n x e.1 then some (e.2, rank d n x e.1) else best
    | none => some (e.2, rank d n x e.1)) none).map (·.1)

/-- DRAM_ISSUE: `busy` names the banks the DRAM timings do not allow now (their keys as `dramBank` gives them). -/
def execDramIssue (n : DramIx) (x : Fin 2) (busy : List Nat) (s : State) : Host.Outcome State Fault Refusal :=
  s.run (fun d =>
    if (d.dram n.val).state = 2 && !d.flag (dn n.val) R.DDR_PART 0 then
      match nextReq d n.val x.val busy (fun _ => true) with
      | some k => serveReq d n.val k x.val
      | none => d
    else d)

/-- The age of the k-th queued request exceeds the limit of its class. -/
def execRequestPromotion (n : DramIx) (k : Nat) (s : State) : Host.Outcome State Fault Refusal :=
  s.run (fun d => d.updDram n.val (fun x =>
    match x.queue[k]? with
    | some q => { x with queue := x.queue.set k { q with promoted := true } }
    | none => x))

/-- A share of the frame in progress (R384). -/
def shareNow (d : Dev) (n t : Nat) : Nat := tget (d.dram n).shares 0 t

/-- The tenant of slot i: values of j = i / 8 go to tenants in ascending number. DEDUCED: log entry 57. -/
def slotTenant (d : Dev) (n i : Nat) : Option Nat :=
  let j := i / 8
  ((List.range 16).foldl (fun (a : Nat × Option Nat) t =>
    let m := shareNow d n t / 8
    (a.1 + m, if a.2.isNone && a.1 ≤ j && j < a.1 + m then some t else a.2)) (0, none)).2

/-- r service frames pass between refresh frames. -/
def framesPerRefresh (d : Dev) (n : Nat) : Nat := if d.flag (dn n) R.DDR_STATUS 4 then 2 else 5

/-- A new frame: shares and lend mask as they stand, a refresh frame after every r service frames. -/
def newFrame (d : Dev) (n : Nat) : Dev :=
  let x := d.dram n
  let ref := !x.refreshing && framesPerRefresh d n ≤ x.frames
  d.setDram n { x with
    refreshing := ref, frames := if ref then 0 else x.frames + 1,
    lend := d.fld (dn n) R.DDR_PART 16 16,
    shares := (List.range 16).foldl (fun t k => tput t 0 k (d.fld (dn n) (R.DDR_SLOT + 4 * k) 0 8)) [] }

/-- One slot of both subchannels (R384). An idle slot that is not lent is left to patrol. -/
def partitionSlot (d : Dev) (n : Nat) (busy : List Nat) : Dev :=
  let i := (d.dram n).slot
  let d := if i = 0 then newFrame d n else d
  let inGroup (x : Nat) (q : DramReq) : Bool :=
    match reqBursts q x with | b :: _ => subBurst b / 64 % 8 = i % 8 | [] => false
  let lend := (d.dram n).lend
  let one (d : Dev) (x : Nat) : Dev :=
    if (d.dram n).refreshing || (d.dram n).state ≠ 2 then d
    else
      let t := slotTenant d n i
      let own := match t with
        | some t => nextReq d n x busy (fun q => q.pkt.tenant = t && inGroup x q)
        | none => none
      match own with
      | some k => serveReq d n k x
      | none =>
        let lent := match t with | some t => lend.testBit t | none => true
        if lent then
          match (d.dram n).queue.zipIdx.find? (fun e => lend.testBit e.1.pkt.tenant && inGroup x e.1 && mayIssue d n x e.2 e.1 busy) with
          | some e => serveReq d n e.2 x
          | none => d
        else d
  (one (one d 0) 1).updDram n (fun x => { x with slot := (i + 1) % 64 })

def execPartitionSlot (n : DramIx) (busy : List Nat) (s : State) : Host.Outcome State Fault Refusal :=
  s.run (fun d => if d.flag (dn n.val) R.DDR_PART 0 then partitionSlot d n.val busy else d)

/-- An open row's timeout ends (R371); the bank as `dramBank` gives it. -/
def execPageOpenTimeout (n : DramIx) (bank : Nat) (s : State) : Host.Outcome State Fault Refusal :=
  s.run (fun d => if d.fld (dn n.val) R.DDR_PAGE_CFG 4 12 = 0 then d
    else d.updDram n.val (fun x => { x with rows := tput x.rows 0 bank 0 }))

/-! ### Arrival (R57, R60, R367, R372, R379, R615) -/

/-- Entries in use on a subchannel, of all tenants or of one. -/
def entriesUsed (x : Dram) (sub : Nat) (t : Option Nat) : Nat :=
  (x.queue.filter (fun q => q.todo.contains sub && (match t with | some t => q.pkt.tenant = t | none => true))).length

/-- Whether a granule is blocked for zero-fill (R382). -/
def zfMasked (d : Dev) (n g : Nat) : Bool := d.flag (dn n) (R.DDR_ZF_MASK + 4 * (g / 32)) (g % 32)

/-- What a channel answers at once to a request that passed the checks before: none where it is to be queued. -/
def dramRefused (d : Dev) (n : Nat) (p : Pkt) : Option Status :=
  let x := d.dram n
  if granOwner d (localAddr p.addr / 2 ^ 30) ≠ p.tenant then some .denied
  else if x.oos then some .unitTest
  else if x.state = 1 then some .unitTest
  else if x.state = 3 then some .frozen
  else if x.state ≠ 2 then some .badState
  else if zfMasked d n (localAddr p.addr / 2 ^ 30) then some .badState
  else none

/-- A request is taken: queued, or in partitioned mode refused beyond its tenant's entries. None where the controller cannot take the
packet now. -/
def dramTake (d : Dev) (n : Nat) (p : Pkt) : Option Dev :=
  match dramIn (tableFor d p) (localAddr p.addr) with
  | none => some (d.respond (dn n) p .noTarget [])
  | some (_, c) =>
    let q : DramReq := { pkt := p, loc := c, len := cmdBytes p, todo := [] }
    let q := { q with todo := [0, 1].filter (fun x => !(reqBursts q x).isEmpty) }
    if d.flag (dn n) R.DDR_PART 0 then
      if q.todo.any (fun x => 4 * shareNow d n p.tenant ≤ entriesUsed (d.dram n) x (some p.tenant)) then
        some (if p.rr then d.respond (dn n) p .badState [] else ddrEvent d n 9)
      else some (d.updDram n (fun x => { x with queue := x.queue ++ [q] }))
    else if q.todo.any (fun x => 256 ≤ entriesUsed (d.dram n) x none) then none
    else some (d.updDram n (fun x => { x with queue := x.queue ++ [q] }))

/-! ### States (R377 to R380) -/

/-- What a command with a parity error may have done: nothing, or a burst written at a wrong place (R378). DESIGN CHOICE: log entry 146. -/
def strayWrite (d : Dev) (n : Nat) : Dev :=
  let (k, d) := d.draw
  let (b, d) := d.draw
  let (v, d) := d.draw
  if k % 2 = 0 then d else d.updDram n (fun x => putBurst x (b % (dramGiB d n * 2 ^ 24)) (BitVec.ofNat 512 v))

def execCaParityAlert (n : DramIx) (s : State) : Host.Outcome State Fault Refusal :=
  s.run (fun d => if (d.dram n.val).state = 2 && d.flag (dn n.val) R.DDR_DEV_CFG 9 then freeze (strayWrite d n.val) n.val 2 0 else d)

/-- DDR_CTL (R378, R379): one bit, in a state that allows it. -/
def ddrCtlWriter : Writer := fun d _ node _ v =>
  let n := node - 0x100
  let x := d.dram n
  let go (st : Nat) : Dev × Status := (d.updDram n (fun x => { x with state := st }), .ok)
  if v % 32 = 1 && x.state = 0 then go 1
  else if v % 32 = 2 && x.state = 1 then go 2
  else if v % 32 = 4 && x.oos && (x.state = 2 && x.queue.isEmpty || x.state = 3) then
    (d.updDram n (fun x => { x with state := 1, kept := [] }), .ok)
  else if v % 32 = 8 && x.state = 3 then (d.updDram n (fun x => { x with state := 2, kept := [], queue := [] }), .ok)
  else if v % 32 = 16 && x.state = 1 then
    (d.updDram n (fun x => { x with state := 0, data := [], errs := [], rows := [], trn := false }), .ok)
  else (d, .badState)

def ddrCtl (r : Req) (n v : Nat) (s : State) : Host.Outcome State Fault Refusal :=
  s.run (fun d => d.regCmd r (dn n) R.DDR_CTL (BitVec.ofNat 32 v) ddrCtlWriter)
def execDdrInit (r : Req) (n : DramIx) (s : State) : Host.Outcome State Fault Refusal := ddrCtl r n.val 1 s
def execDdrActivate (r : Req) (n : DramIx) (s : State) : Host.Outcome State Fault Refusal := ddrCtl r n.val 2 s
def execDdrTrain (r : Req) (n : DramIx) (s : State) : Host.Outcome State Fault Refusal := ddrCtl r n.val 4 s
def execDdrResume (r : Req) (n : DramIx) (s : State) : Host.Outcome State Fault Refusal := ddrCtl r n.val 8 s
def execDdrShutdown (r : Req) (n : DramIx) (s : State) : Host.Outcome State Fault Refusal := ddrCtl r n.val 16 s

/-! ### Training primitives (R381) -/

def trnStatus (d : Dev) (n : Nat) (st : Status) : Dev := d.setFld (dn n) R.DDR_TRN_CMD 7 5 (1 + 2 * st.code)

/-- A primitive is performed: `res` is what the memory returns. DESIGN CHOICE: log entry 10; PRESUMED: log entry 55. -/
def trnPerform (d : Dev) (n : Nat) (res : W128) : Dev :=
  let op := d.fld (dn n) R.DDR_TRN_CMD 0 4
  let arg := d.reg (dn n) R.DDR_TRN_ARG
  let d := if op = 0 ∨ op = 8 then d
    else d.emit (.dramCmd n op (d.fld (dn n) R.DDR_TRN_CMD 4 2) arg.toNat)
  let d := if op = 8 then d.updDram n (fun x => { x with dlyOn := x.dly })
    else if op = 2 ∨ (4 ≤ op ∧ op ≤ 7) then
      let w := if op = 2 then 80 else if op = 4 then 10 else if op = 7 then 14 else 40
      d.setReg128 (dn n) R.DDR_TRN_RESULT (res &&& BitVec.ofNat 128 (2 ^ w - 1))
    else d
  let d := if op = 6 then
      let p := d.reg128 (dn n) R.DDR_TRN_PAT
      writeBurst d n (arg.toNat % 2 ^ 31) (p ++ p ++ p ++ p)
    else d
  ddrEvent (trnStatus (d.updDram n (fun x => { x with trn := false })) n .ok) n 4

/-- Whether an ACTIVE channel permits a primitive: MRR of MR4 and the DQS oscillator registers, MPC oscillator start and stop, and
DLY_APPLY. -/
def trnInActive (op arg : Nat) : Bool :=
  (op = 2 && (arg % 256 = 4 || (45 ≤ arg % 256 && arg % 256 ≤ 47))) || (op = 3 && (arg % 256 = 6 || arg % 256 = 7)) || op = 8

/-- DDR_TRN_CMD; a primitive the state does not permit is answered in its status field. DEDUCED: log entry 56. -/
def trnWriter (res : W128) : Writer := fun d _ node _ v =>
  let n := node - 0x100
  let x := d.dram n
  if x.trn then (d, .badState)
  else
    let d := d.setReg node R.DDR_TRN_CMD ((d.reg node R.DDR_TRN_CMD &&& ~~~0x3F) ||| BitVec.ofNat 32 (v % 64))
    if !v.testBit 6 then (d, .ok)
    else
      let op := v % 16
      let arg := (d.reg node R.DDR_TRN_ARG).toNat
      let blocked := op = 6 && (match dramAddr d n (arg % 2 ^ 31 * 64) with | some a => granMapped d (a / 2 ^ 30) | none => false)
      if 8 < op || blocked then (trnStatus d n .badState, .ok)
      else if op = 0 || x.state = 1 then (trnPerform d n res, .ok)
      else if x.state = 2 && trnInActive op arg then
        ((d.setFld node R.DDR_TRN_CMD 7 5 0).updDram n (fun x => { x with trn := true }), .ok)
      else (trnStatus d n .badState, .ok)

/-- A primitive's command: DDR_TRN_CMD with go and this op; `v` gives the subchannel and rank bits. -/
def trnCmd (r : Req) (n op : Nat) (v : Word) (res : W128) (s : State) : Host.Outcome State Fault Refusal :=
  s.run (fun d => d.regCmd r (dn n) R.DDR_TRN_CMD ((v &&& 0x30) ||| BitVec.ofNat 32 (op + 64)) (trnWriter res))
def execTrnNop (r : Req) (n : DramIx) (v : Word) (s : State) : Host.Outcome State Fault Refusal := trnCmd r n.val 0 v 0 s
def execMrw (r : Req) (n : DramIx) (v : Word) (s : State) : Host.Outcome State Fault Refusal := trnCmd r n.val 1 v 0 s
def execMrr (r : Req) (n : DramIx) (v : Word) (res : W128) (s : State) : Host.Outcome State Fault Refusal := trnCmd r n.val 2 v res s
def execMpc (r : Req) (n : DramIx) (v : Word) (s : State) : Host.Outcome State Fault Refusal := trnCmd r n.val 3 v 0 s
def execWlSample (r : Req) (n : DramIx) (v : Word) (res : W128) (s : State) : Host.Outcome State Fault Refusal := trnCmd r n.val 4 v res s
def execRdPattern (r : Req) (n : DramIx) (v : Word) (res : W128) (s : State) : Host.Outcome State Fault Refusal := trnCmd r n.val 5 v res s
def execWrRdCmp (r : Req) (n : DramIx) (v : Word) (res : W128) (s : State) : Host.Outcome State Fault Refusal := trnCmd r n.val 6 v res s
def execCaSample (r : Req) (n : DramIx) (v : Word) (res : W128) (s : State) : Host.Outcome State Fault Refusal := trnCmd r n.val 7 v res s
def execDlyApply (r : Req) (n : DramIx) (v : Word) (s : State) : Host.Outcome State Fault Refusal := trnCmd r n.val 8 v 0 s

/-- DDR_DLY_SEL: reserved selections are refused (R389). -/
def dlySelWriter : Writer := fun d _ node off v =>
  let pin := v % 128
  let kind := v / 512 % 8
  if 67 < pin || 3 < kind || (kind ≠ 0 && 49 < pin) then (d, .badState) else (d.setReg node off (BitVec.ofNat 32 (v % 4096)), .ok)

def dlyDataWriter : Writer := fun d _ node _ v =>
  (d.updDram (node - 0x100) (fun x => { x with dly := tput x.dly 0 (d.reg node R.DDR_DLY_SEL).toNat (BitVec.ofNat 32 (v % 1024)) }), .ok)

/-! ### Refresh, patrol (R376, R380) -/

/-- A refresh of a rank: `hot` is the DRAM's MR4 report, `res` what a training primitive inside it returns. DEDUCED: log entry 57. -/
def refresh (d : Dev) (n rank : Nat) (hot : Bool) (res : W128) : Dev :=
  let x := d.dram n
  if x.state = 0 || x.state = 4 || (d.flag (dn n) R.DDR_PART 0 && !x.refreshing) then d
  else
    let d := d.emit (.dramCmd n 16 rank 0)
    let auto := hot && d.flag (dn n) R.DDR_REF_CFG 4
    let was := d.flag (dn n) R.DDR_STATUS 4
    let now := auto || d.flag (dn n) R.DDR_REF_CFG 5
    let d := (d.setFld (dn n) R.DDR_STATUS 4 1 (if now then 1 else 0)).updDram n (fun x => { x with hot := hot })
    let d := if auto && !was then ddrEvent d n 7 else d
    if x.trn && d.fld (dn n) R.DDR_TRN_CMD 5 1 = rank then trnPerform d n res else d

def execRefresh (n : DramIx) (rank : Fin 2) (hot : Bool) (res : W128) (s : State) : Host.Outcome State Fault Refusal :=
  s.run (fun d => refresh d n.val rank.val hot res)

def patrolOn (d : Dev) (n : Nat) : Bool := d.fld (dn n) R.DDR_PATROL 0 16 ≠ 0 && (d.dram n).state = 2 && !(d.dram n).oos

/-- Patrol reads the next burst (R376). DEDUCED: log entry 144. -/
def dramPatrol (d : Dev) (n : Nat) : Dev :=
  if !patrolOn d n then d
  else
    let per := dramGiB d n * 2 ^ 23
    let p := (d.dram n).patrolPos
    let b := burstAt (p / per) (p % per)
    -- patrol carries no hint: the controller's default. DEDUCED: log entry 144
    let (d, _, bad) := readBurst (afterAccess d n b 0) n b 1
    let last := 2 * per ≤ p + 1
    let d := d.updDram n (fun x => { x with patrolPos := if last then 0 else p + 1 })
    let d := if last then ddrEvent d n 5 else d
    if !bad then d
    else if (poisonIx d n b).isSome then d
    else if (poisonFree d n).isSome then poisonAdd d n b
    else freeze d n 3 b

def execDramPatrolRead (n : DramIx) (s : State) : Host.Outcome State Fault Refusal := s.run (fun d => dramPatrol d n.val)

/-! ### Zero-fill (R382) -/

/-- DDR_ZF_CMD, from the Cox only. -/
def zfCmdWriter : Writer := fun d r node off v =>
  if r.node ≠ 0x141 then (deniedHere d r node off, .denied)
  else if !v.testBit 31 then (d, .ok)
  else if ((d.dram (node - 0x100)).zf).isSome then (d, .badState)
  else (d.updDram (node - 0x100) (fun x => { x with zf := some (v % 1024) }), .ok)

/-- DDR_ZF_MASK, from the Cox only. -/
def zfMaskWriter : Writer := fun d r node off v =>
  if r.node ≠ 0x141 then (deniedHere d r node off, .denied) else storeWriter d r node off v

def execZeroFill (r : Req) (n : DramIx) (v : Word) (s : State) : Host.Outcome State Fault Refusal :=
  s.run (fun d => d.regCmd r (dn n.val) R.DDR_ZF_CMD (v ||| 0x80000000) zfCmdWriter)

/-- Zeros in the part of granule g that lies in channel n. The fill opens every row of the part in turn, and leaves none open.
DEDUCED: log entry 144. -/
def zeroGranule (d : Dev) (n g : Nat) : Dev :=
  match granRange d g with
  | none => d
  | some (lo, len) =>
    let here (c : Nat) : Bool := lo ≤ c && c < lo + len
    let d := d.updDram n (fun x => { x with
      data := tdrop x.data (fun u => here (16 * u)), errs := tdrop x.errs (fun b => here (64 * b)), rows := [] })
    (List.range 16).foldl (fun (d : Dev) p =>
      if d.flag (dn n) (poisonOff p) 31 && here (64 * d.fld (dn n) (poisonOff p) 0 31) then d.setReg (dn n) (poisonOff p) 0 else d) d

/-- A request queued before its granule was blocked is served before the fill of what it touches (R63, R368). -/
def fillWaits (d : Dev) (n g : Nat) : Bool :=
  match granRange d g with
  | some (lo, len) => (d.dram n).queue.any (fun q => lo < q.loc + q.len && q.loc < lo + len)
  | none => false

/-- A fill ends, unless an earlier request holds it or the channel is not ACTIVE (R388). Its bursts run in class C1 between other requests, which see nothing
of it: what they could touch of the granule is blocked (R382). DESIGN CHOICE: log entry 145. -/
def zfDone (d : Dev) (n : Nat) : Option (Dev × Nat) :=
  match (d.dram n).zf with
  | some g =>
    if (d.dram n).state ≠ 2 || fillWaits d n g then none
    else
      let d := (zeroGranule d n g).updDram n (fun x => { x with zf := none })
      some (ddrEvent (ddrEvent d n 10) n 6, g)
  | none => none

/-! ### Zero-fill of granules (R60, R382) -/

/-- The channels that hold a part of a granule. -/
def granChannels (d : Dev) (g : Nat) : List Nat := match granPlace d.isets g with | some (m, _) => maskChannels m | none => []

def zfMask (d : Dev) (n g : Nat) (on : Bool) : Dev := d.putFld 0x141 0 (dn n) (R.DDR_ZF_MASK + 4 * (g / 32)) (g % 32) 1 (if on then 1 else 0)

/-- The Cox writes DDR_ZF_CMD of every channel that fills nothing and has a part waiting. -/
def zfPump (d : Dev) : Dev :=
  (List.range 8).foldl (fun (d : Dev) n =>
    if ((d.dram n).zf).isSome then d
    else match d.fills.find? (fun e => e.1 = n) with
      | some (_, g) => 
        let a := regAddr d (dn n) R.DDR_ZF_CMD
        (d.updDram n (fun x => { x with zf := some g })).asked 0x141 (dn n) 0xB 1 0 a [laneOf a (BitVec.ofNat 32 (g + 2 ^ 31))]
      | none => d) d

/-- Granules begin to be filled: blocked on their channels, and queued. -/
def fillStart (d : Dev) (l : List Nat) : Dev :=
  let parts := l.flatMap (fun g => (granChannels d g).map (fun n => (n, g)))
  let d := parts.foldl (fun (d : Dev) e => zfMask d e.1 e.2 true) d
  zfPump { d with fills := d.fills ++ parts.filter (fun e => !d.fills.contains e) }

/-- Granules of a list with a part still to be filled. DEDUCED: log entry 58. -/
def stillFilling (d : Dev) (l : List Nat) : List Nat := l.filter (fun g => d.fills.any (fun e => e.2 = g))

def setGmap (d : Dev) (g : Nat) (on : Bool) : Dev := d.setFld 0x141 (R.COX_GMAP + 4 * (g / 32)) (g % 32) 1 (if on then 1 else 0)

/-- After a reset every granule whose bit is set is filled before it serves (R60): those that an interleave table places. -/
def fillMapped (d : Dev) : Dev :=
  fillStart d (d.unfilled.filter (fun g => !(granChannels d g).isEmpty && (stillFilling d [g]).isEmpty))

/-! ### Interleave sets (R363, R365) -/

/-- The sets the registers describe: base granule, count, mask, local base; unused ones left out. -/
def isetRegs (d : Dev) : List (Nat × Nat × Nat × Nat) :=
  ((List.range 8).map (fun s =>
    let a := d.reg 0x100 (R.DDR_ISET_A + 8 * s)
    (bitsOf a.toNat 0 10, bitsOf a.toNat 10 11, bitsOf a.toNat 21 8, d.fld 0x100 (R.DDR_ISET_B + 8 * s) 0 7))).filter (fun s => s.2.1 ≠ 0)

/-- Whether two sets overlap, in granules or in local ranges on a shared channel. -/
def setsClash (s t : Nat × Nat × Nat × Nat) : Bool :=
  let meets (a n b m : Nat) : Bool := a < b + m && b < a + n
  meets s.1 s.2.1 t.1 t.2.1 ||
    (s.2.2.1 &&& t.2.2.1 ≠ 0 &&
      meets s.2.2.2 (s.2.1 / (maskChannels s.2.2.1).length) t.2.2.2 (t.2.1 / (maskChannels t.2.2.1).length))

def setLegal (d : Dev) (s : Nat × Nat × Nat × Nat) : Bool :=
  let ch := maskChannels s.2.2.1
  let k := ch.length
  (k = 1 || k = 2 || k = 4 || k = 8) && s.1 + s.2.1 ≤ 1024 && s.2.1 % k = 0 && ch.all (fun n => s.2.2.2 + s.2.1 / k ≤ dramGiB d n)

def pairwiseOk (l : List (Nat × Nat × Nat × Nat)) : Bool :=
  match l with
  | [] => true
  | s :: r => r.all (fun t => !setsClash s t) && pairwiseOk r

/-- Whether a commit may go ahead (R363). -/
def isetsLegal (d : Dev) (l : List (Nat × Nat × Nat × Nat)) : Bool :=
  l.all (setLegal d) && pairwiseOk l &&
    (List.range 1024).all (fun g => granPlace d.isets g = granPlace l g || (granPlace d.isets g).isNone || !granMapped d g)

/-- DEDUCED: log entry 58. -/
def isetCtlWriter : Writer := fun d _ _ _ v =>
  if v % 2 = 0 then (d, .ok)
  else if d.isetNext.isSome then (d, .badState)
  else
    let l := isetRegs d
    if isetsLegal d l then (({ d with isetNext := some l }).setReg 0x100 R.DDR_ISET_CTL 2, .ok)
    else (d.setReg 0x100 R.DDR_ISET_CTL 0xD0, .badState)

def execIsetCommit (r : Req) (s : State) : Host.Outcome State Fault Refusal :=
  s.run (fun d => d.regCmd r 0x100 R.DDR_ISET_CTL 1 isetCtlWriter)

def execIsetCommitDone (s : State) : Host.Outcome State Fault Refusal :=
  s.run (fun d => match d.isetNext with
    -- mapped granules that the new table places are filled before they serve (R60)
    -- requests injected before now keep the old table (R365)
    | some l =>
      let old := d.noc.flight.map (fun h => (h, d.isets))
      fillMapped (({ d with isets := l, isetNext := none, noc := { d.noc with flight := [], flightOld := d.noc.flightOld ++ old } }).setReg 0x100
        R.DDR_ISET_CTL 0)
    | none => d)

/-! ### Sharing (R383) and other checked registers (R389) -/

/-- A timing in ns, rounded up, from DDR clock cycles. -/
def cyclesNs (d : Dev) (n c : Nat) : Nat :=
  let mt := 3200 + 400 * d.fld (dn n) R.DDR_DEV_CFG 4 4
  (c * 2000 + mt - 1) / mt

def sharesOk (d : Dev) (n : Nat) (s0 : Nat) : Bool :=
  let sh (t : Nat) : Nat := if t = 0 then s0 else d.fld (dn n) (R.DDR_SLOT + 4 * t) 0 8
  (List.range 16).all (fun t => sh t % 8 = 0) && (List.range 16).foldl (fun a t => a + sh t) 0 ≤ 64

/-- Principals that hold granules on a channel. -/
def dramHolders (d : Dev) (n : Nat) : List Nat := ((granulesOn d n).map (granOwner d)).eraseDups

/-- DEDUCED: log entry 57. -/
def ddrPartWriter : Writer := fun d r node off v =>
  let n := node - 0x100
  let ok := if v % 2 = 0 then (dramHolders d n).length ≤ 1
    else cyclesNs d n (d.fld node (R.DDR_TIM + 8) 16 16) ≤ 80 && cyclesNs d n (d.fld node (R.DDR_TIM + 24) 0 16) ≤ 640 &&
      sharesOk d n (d.fld node R.DDR_SLOT 0 8)
  if ok then
    let was := d.flag node R.DDR_PART 0
    let (d, st) := storeWriter d r node off v
    -- the shares of the first frame hold from here on (R372)
    let sh := (List.range 16).foldl (fun t k => tput t 0 k (d.fld node (R.DDR_SLOT + 4 * k) 0 8)) []
    let first := fun x : Dram =>
      { x with slot := 0, frames := 0, refreshing := false, lend := d.fld node R.DDR_PART 16 16, shares := sh }
    (if !was && v % 2 = 1 then d.updDram n first else d, st)
  else (d, .badState)

/-- DDR_SLOT_0 by the Owner; the others by the Cox, and read-only to all else. DEDUCED: log entry 57. -/
def ddrSlotWriter : Writer := fun d r node off v =>
  let n := node - 0x100
  if off = R.DDR_SLOT then
    if r.tenant ≠ 0 then (d, .ok)
    else if d.flag node R.DDR_PART 0 && !sharesOk d n (v % 256) then (d, .badState)
    else storeWriter d r node off v
  else if r.node = 0x141 then storeWriter d r node off v
  else (d, .ok)

/-- Memory configuration and timings: in DOWN and TRAINING only. -/
def ddrCfgWriter : Writer := fun d r node off v =>
  let st := (d.dram (node - 0x100)).state
  if !(st = 0 || st = 1) || (off = R.DDR_DEV_CFG && 8 < v / 16 % 16) then (d, .badState) else storeWriter d r node off v

/-! ### Stored errors (R374, R609) -/

/-- Bits of a burst's codeword are disturbed: symbol σ of R373 at bits 8σ of the pattern. -/
def execDramError (n : DramIx) (b : Nat) (pattern : BitVec 640) (s : State) : Host.Outcome State Fault Refusal :=
  s.run (fun d => d.updDram n.val (fun x => { x with errs := tput x.errs 0 b (tget x.errs 0 b ^^^ pattern) }))

/-! ### Values read -/

def ddrStatusView (d : Dev) (n : Nat) : Word :=
  let x := d.dram n
  let f (c : Bool) (k : Nat) : Nat := if c then 2 ^ k else 0
  BitVec.ofNat 32 (x.state + f (d.flag (dn n) R.DDR_PART 0) 3 + f (d.flag (dn n) R.DDR_STATUS 4) 4 + f x.zf.isSome 5
    + f (x.oos && x.queue.isEmpty) 6 + f (patrolOn d n) 7
    + ((List.range 16).filter (fun p => d.flag (dn n) (poisonOff p) 31)).length * 256)

def zfStatusView (d : Dev) (n : Nat) : Word :=
  match (d.dram n).zf with | some g => BitVec.ofNat 32 (g + 2 ^ 16) | none => 0

end Sys2Proof.Machine
end

