-- ==== Sys2Proof/Machine/Link.lean ====
section
/-! DEFINITION. Talux Links (R415 to R443): flits and their checks, replay, credit, training, stroke channels, tunnelling, and
device time. -/

namespace Sys2Proof.Machine

/-! ### Flits (R416 to R421) -/

def flitByte (f : Flit) (k : Nat) : BitVec 8 := f.extractLsb' (8 * k) 8

/-- CRC-16 of bytes 0 to 33: polynomial 0x8BB7, initial value 0xFFFF (R416). -/
def crc16 (f : Flit) : BitVec 16 :=
  (List.range 34).foldl (fun c k =>
    (List.range 8).foldl (fun (x : BitVec 16) _ => if x.getLsbD 15 then (x <<< 1) ^^^ 0x8BB7#16 else x <<< 1)
      (c ^^^ ((flitByte f k).setWidth 16 <<< 8))) 0xFFFF#16

/-- The inverse, as the 254th power. -/
def gfInv (a : BitVec 8) : BitVec 8 := (List.range 253).foldl (fun x _ => gfMul x a) a

/-- Syndromes of a 40-byte flit at α^0 to α^3: byte k is the coefficient of x^(39 − k) (R418). -/
def syndromes (f : Flit) : List (BitVec 8) :=
  (List.range 4).map (fun i => (List.range 40).foldl (fun s k => gfMul s (gfPow i) ^^^ flitByte f k) 0)

/-- Parity bytes: the remainder of the first 36 bytes times x^4 modulo (x − 1)(x − α)(x − α²)(x − α³). -/
def fecParity (f : Flit) : List (BitVec 8) :=
  let g : List (BitVec 8) := (List.range 4).foldl (fun (p : List (BitVec 8)) i =>
    List.zipWith (fun a b => a ^^^ gfMul b (gfPow i)) (p ++ [0]) (0 :: p)) [1]
  (List.range 36).foldl (fun (r : List (BitVec 8)) k =>
    let q := r.headD 0 ^^^ flitByte f k
    List.zipWith (fun a b => a ^^^ gfMul q b) (r.drop 1 ++ [0]) (g.drop 1)) [0, 0, 0, 0]

def flipByte (f : Flit) (k : Nat) (e : BitVec 8) : Flit := f ^^^ (e.setWidth 320 <<< (8 * k))

/-- FEC decoding (R418): up to two byte errors corrected; none where there are more. -/
def fecDecode (f : Flit) : Option Flit :=
  let s := syndromes f
  let s0 := s[0]?.getD 0
  let s1 := s[1]?.getD 0
  let s2 := s[2]?.getD 0
  let s3 := s[3]?.getD 0
  if s.all (· == 0) then some f
  else
    let x (k : Nat) : BitVec 8 := gfPow (39 - k)
    match (List.range 40).find? (fun k => s0 != 0 && gfMul s0 (x k) == s1 && gfMul s1 (x k) == s2 && gfMul s2 (x k) == s3) with
    | some k => some (flipByte f k s0)
    | none =>
      (List.range 40).findSome? (fun j => (List.range j).findSome? (fun k =>
        let e2 := gfMul (s1 ^^^ gfMul s0 (x j)) (gfInv (x j ^^^ x k))
        let e1 := s0 ^^^ e2
        if e1 != 0 && e2 != 0 && gfMul e1 (gfMul (x j) (x j)) ^^^ gfMul e2 (gfMul (x k) (x k)) == s2
            && gfMul e1 (gfMul (x j) (gfMul (x j) (x j))) ^^^ gfMul e2 (gfMul (x k) (gfMul (x k) (x k))) == s3 then
          some (flipByte (flipByte f j e1) k e2)
        else none))

/-- A flit or training frame with its CRC in bytes 34 and 35. -/
def withCrc (f : Flit) : Flit :=
  let c := crc16 f
  f ||| ((c.extractLsb' 8 8).setWidth 320 <<< 272) ||| ((c.extractLsb' 0 8).setWidth 320 <<< 280)

/-- A flit from its fields, with its CRC and, in FEC format, its parity. -/
def mkFlit (fec : Bool) (seq vc : Nat) (u0 u1 : W128) : Flit :=
  let f := withCrc (BitVec.ofNat 320 (seq % 4096 + vc % 16 * 4096 + u0.toNat * 2 ^ 16 + u1.toNat * 2 ^ 144))
  if fec then ((fecParity f).zipIdx).foldl (fun (f : Flit) (e : BitVec 8 × Nat) => f ||| (e.1.setWidth 320 <<< (8 * (36 + e.2)))) f else f

def flitSeq (f : Flit) : Nat := bitsOf f.toNat 0 12
def flitVc (f : Flit) : Nat := bitsOf f.toNat 12 4
def flitSlot (f : Flit) (k : Nat) : W128 := f.extractLsb' (16 + 128 * k) 128
/-- The 32-byte payload of a flit. -/
def flitPay (f : Flit) : BitVec 256 := f.extractLsb' 16 256

def linkFec (d : Dev) (n : Nat) : Bool := d.flag (lp n) R.LNK_STATUS 3

/-- The receiver's check of a flit (R418, R419): the flit where it is good, with the FEC and CRC counts taken. -/
def flitCheck (d : Dev) (n : Nat) (f : Flit) : Dev × Option Flit :=
  let sat (d : Dev) (off : Nat) : Dev := d.countFld (lp n) off 0 32 1
  let crcOk (f : Flit) : Bool := flitByte f 34 ++ flitByte f 35 == crc16 f && flitVc f < 9
  if linkFec d n then
    match fecDecode f with
    | none => (linkEvent (sat d R.LNK_FEC_UNCORR) n 7, none)
    | some g =>
      let d := if g = f then d else sat d R.LNK_FEC_CORR
      if crcOk g then (d, some g) else (sat d R.LNK_CRC_ERRS, none)
  else if crcOk f then (d, some f) else (sat d R.LNK_CRC_ERRS, none)

/-! ### Packets on a link (R420, R431, R435) -/

/-- Carried units of a NoC packet by its command and length (R333). -/
def carried (cmd len : Nat) : Nat :=
  if cmd = 8 ∨ cmd = 0x10 ∨ cmd = 0x18 ∨ 0x30 ≤ cmd then len
  else if (9 ≤ cmd ∧ cmd ≤ 0xD) ∨ cmd = 0x14 then 1 else 0

/-- Units of the packet that begins with these units: a stroke packet from its stroke unit, a tunnel packet from its header. -/
def packetUnits (vc : Nat) (l : List W128) : Option Nat :=
  if vc = 1 then
    match l with
    | u :: _ => some (if u.getLsbD 63 then 1 else 2 + bitsOf u.toNat 30 4 % 8)
    | [] => none
  else
    match l with
    | _ :: h :: _ => some (2 + carried (bitsOf h.toNat 20 6) (bitsOf h.toNat 36 8))
    | _ => none

/-- The initial credit of a vc (R419). -/
def vcBuffer (vc : Nat) : Nat := if vc = 1 ∨ vc = 2 then 128 else 32

def creditOf (x : LinkSt) (vc : Nat) : Nat := tget x.credit 0 vc

/-! ### Transmission (R422, R424, R434) -/

/-- DTIME in units of 2^-8 ns (R421). -/
def time256 (d : Dev) : W64 := d.dtime <<< 8

/-- The CTRL flit due now: it takes the nak, swap, time and credit that are owed. DEDUCED: log entry 62. -/
def sendCtrl (d : Dev) (n : Nat) : Dev :=
  let x := d.link n
  let b (c : Bool) (k : Nat) : Nat := if c then 2 ^ k else 0
  let credit := (List.range 8).foldl (fun a k => a + min 255 (tget x.creditDue 0 (k + 1)) * 2 ^ (8 * k)) 0
  let pay := b x.nakDue 0 + b x.swapDue.isSome 1 + b x.reqDue 2 + b x.rspDue.isSome 3 + x.swapDue.getD 0 * 2 ^ 8 + credit * 2 ^ 16
    + (time256 d).toNat * 2 ^ 96 + (x.rspDue.getD 0).toNat * 2 ^ 160
  let f := mkFlit (linkFec d n) x.rxSeq 0 (BitVec.ofNat 128 pay) (BitVec.ofNat 128 (pay / 2 ^ 128))
  let d := d.setLink n { x with
    nakDue := false, swapDue := none, reqDue := false, rspDue := none, owed := 0,
    creditDue := (List.range 8).foldl (fun t k => tput t 0 (k + 1) (tget x.creditDue 0 (k + 1) - min 255 (tget x.creditDue 0 (k + 1)))) [],
    t1 := if x.reqDue then time256 d else x.t1 }
  d.emit (.flit n f)

/-- Send the next flit of a packet: sequenced, kept for replay, its credit used. What is left of the packet. -/
def sendUnits (d : Dev) (n : Nat) (p : LinkPkt) : Dev × Option LinkPkt :=
  let x := d.link n
  let f := mkFlit (linkFec d n) x.txSeq p.vc (p.units[0]?.getD 0) (p.units[1]?.getD 0)
  let d := d.setLink n { x with
    txSeq := (x.txSeq + 1) % 4096, replay := x.replay ++ [f], credit := tput x.credit 0 p.vc (creditOf x p.vc - 1) }
  let d := d.setReg64 (lp n) R.LNK_TX_FLITS (d.reg64 (lp n) R.LNK_TX_FLITS + 1)
  let rest := p.units.drop 2
  (d.emit (.flit n f), if rest.isEmpty then none else some { p with units := rest })

/-- A principal's grants of a round: its share, the Owner's the remainder (R434). -/
def grantShare (d : Dev) (n t : Nat) : Nat :=
  let s (k : Nat) : Nat := d.fld (lp n) (R.LNK_SHARE + 4 * (k / 4)) (8 * (k % 4)) 8
  if t = 0 then 256 - (List.range 15).foldl (fun a k => a + s (k + 1)) 0 else s t

/-- The principal whose stroke flit is granted next: one within its share, else the lowest waiting one. DEDUCED: log entry 61. -/
def strokePick (d : Dev) (n : Nat) : Option Nat :=
  let x := d.link n
  let waiting := (List.range 16).filter (fun t => x.strokeQ.any (fun p => p.tenant = t))
  match waiting.find? (fun t => tget x.grants 0 t < grantShare d n t) with
  | some t => some t
  | none => waiting.head?

/-- Count a stroke grant; a round has 256. -/
def countGrant (d : Dev) (n t : Nat) : Dev :=
  d.updLink n (fun x =>
    let g := tput x.grants 0 t (tget x.grants 0 t + 1)
    { x with grants := if 256 ≤ g.foldl (fun a e => a + e.2) 0 then [] else g })

def sendStroke (d : Dev) (n : Nat) (p : LinkPkt) : Dev :=
  let (d, rest) := sendUnits (countGrant d n p.tenant) n p
  d.updLink n (fun x => { x with curStroke := rest })

/-- Remove the first packet of a queue that satisfies a condition. -/
def takeFirst (l : List LinkPkt) (p : LinkPkt → Bool) : Option (LinkPkt × List LinkPkt) :=
  match l with
  | [] => none
  | q :: r => if p q then some (q, r) else (takeFirst r p).map (fun e => (e.1, q :: e.2))

/-- The source of a vc whose turn it is, among its packets of the highest priority. -/
def turnOf (x : LinkSt) (vc : Nat) : Option (Nat × Nat) :=
  let l := x.tunnelQ.filter (fun p => p.vc = vc)
  let top := l.foldl (fun m p => max m p.prio) 0
  let srcs := (l.filter (fun p => p.prio = top)).map (·.src)
  let last := tget x.lastSrc 0 vc
  let low (l : List Nat) : Option Nat := l.foldl (fun m s => match m with | some k => some (min k s) | none => some s) none
  match low (srcs.filter (fun s => last ≤ s)), low srcs with
  | some s, _ => some (top, s)
  | none, some s => some (top, s)
  | none, none => none

/-- The vc of the next new tunnel packet: RSP, then hop 6 down to hop 1, with credit. -/
def nextVc (x : LinkSt) : Option Nat :=
  ([2, 8, 7, 6, 5, 4, 3] : List Nat).find? (fun vc => 0 < creditOf x vc && x.tunnelQ.any (fun p => p.vc = vc))

/-- One flit slot (R424). Between the flits of a stroke packet that waits for credit no tunnelled flit is sent (R420). -/
def flitTransmit (d : Dev) (n : Nat) : Dev :=
  let x := d.link n
  if linkState d n ≠ 2 then d
  else if 0 < x.resend then
    let f := x.replay[x.replay.length - x.resend]?.getD 0
    (d.setLink n { x with resend := x.resend - 1 }).emit (.flit n f)
  else if x.nakDue || x.swapDue.isSome || x.reqDue || x.rspDue.isSome || 16 ≤ x.owed then sendCtrl d n
  else if 64 ≤ x.replay.length then sendCtrl d n
  else
    let stroke : Option Dev :=
      if creditOf x 1 = 0 then (if x.curStroke.isSome then some (sendCtrl d n) else none)
      else match x.curStroke with
        | some p => some (sendStroke d n p)
        | none =>
          match strokePick d n with
          | some t =>
            match takeFirst x.strokeQ (fun p => p.tenant = t) with
            | some (p, q) => some (sendStroke (d.setLink n { x with strokeQ := q }) n p)
            | none => none
          | none => none
    match stroke with
    | some d => d
    | none =>
      match x.curTunnel with
      | some p =>
        if creditOf x p.vc = 0 then sendCtrl d n
        else
          let (d, rest) := sendUnits d n p
          d.updLink n (fun x => { x with curTunnel := rest })
      | none =>
        match nextVc x with
        | none => sendCtrl d n
        | some vc =>
          match turnOf x vc with
          | none => sendCtrl d n
          | some (top, src) =>
            match takeFirst x.tunnelQ (fun p => p.vc = vc && p.prio = top && p.src = src) with
            | none => sendCtrl d n
            | some (p, q) =>
              let (d, rest) := sendUnits (d.setLink n { x with tunnelQ := q, lastSrc := tput x.lastSrc 0 vc (src + 1) }) n p
              d.updLink n (fun x => { x with curTunnel := rest })

def execFlitTransmit (n : LinkIx) (s : State) : Host.Outcome State Fault Refusal := s.run (fun d => flitTransmit d n.val)

/-- At least once every 100 ns. -/
def execCtrlTimer (n : LinkIx) (s : State) : Host.Outcome State Fault Refusal :=
  s.run (fun d => if linkState d n.val = 2 then sendCtrl d n.val else d)

/-! ### Replay (R422, R423) -/

/-- Go back to the oldest unacknowledged flit; the eighth time without progress recovery starts. -/
def replayNow (d : Dev) (n : Nat) : Dev :=
  let x := d.link n
  if x.replay.isEmpty then d
  else
    let d := (d.setLink n { x with resend := x.replay.length, stuck := x.stuck + 1 }).countFld (lp n) R.LNK_RETRIES 0 32 1
    let d := linkEvent d n 5
    if x.stuck + 1 < 8 then d
    else recoveryStart (linkEvent (d.updLink n (fun x => { x with stuck := 0 })) n 6) n

def execReplayTimer (n : LinkIx) (s : State) : Host.Outcome State Fault Refusal :=
  s.run (fun d => if linkState d n.val = 2 then replayNow d n.val else d)

/-- An ack frees the flits before it. -/
def ackTo (d : Dev) (n ack : Nat) : Dev :=
  let x := d.link n
  let oldest := (x.txSeq + 4096 - x.replay.length) % 4096
  let k := (ack + 4096 - oldest) % 4096
  if k = 0 || x.replay.length < k then d
  else d.setLink n { x with replay := x.replay.drop k, resend := min x.resend (x.replay.length - k), stuck := 0 }

/-! ### Device time (R443) -/

def isMaster (d : Dev) : Bool := d.fld 0x142 R.CRW_TIME_CFG 0 6 = d.devId

/-- The link a follower takes its time from: the route to the master. -/
def upstream (d : Dev) : Option Nat :=
  let r := d.reg 0x142 (R.CRW_ROUTE + 4 * d.fld 0x142 R.CRW_TIME_CFG 0 6)
  if isMaster d || !r.getLsbD 31 then none else some (bitsOf r.toNat 0 5)

def crwEvent (d : Dev) (b : Nat) : Dev := d.sticky 0x142 7 14 b R.CRW_EVENTS

/-- Act on the mean of 16 offsets, in 2^-8 ns. The steering rate is a free value of up to 300 ppm towards zero.
DESIGN CHOICE: log entry 63. -/
def timeMean (d : Dev) (θ : Int) : Dev :=
  let d := d.setReg 0x142 R.CRW_TIME_OFFSET (BitVec.ofInt 32 (θ * 1000 / 256))
  let good := if θ.natAbs ≤ 256 then d.goodMeans + 1 else 0
  let d := { d with goodMeans := good }
  if 256000 < θ then crwEvent { d with dtime := d.dtime + BitVec.ofNat 64 (θ.toNat / 256), ppm := 0 } 3
  else if θ < -256000 then { d with ppm := -500000 }
  else
    let (k, d) := d.draw
    { d with ppm := if θ = 0 then 0 else if 0 < θ then Int.ofNat (k % 301) else -Int.ofNat (k % 301) }

/-- One exchange: transmit and receive times t2, t3 of the partner, and the answer's arrival now. -/
def timeSample (d : Dev) (n : Nat) (t2 t3 : W64) : Dev :=
  let x := d.link n
  let t4 := time256 d
  let θ : Int := ((t2 - x.t1).toInt - (t4 - t3).toInt) / 2
  let l := x.samples ++ [θ]
  if l.length < 16 then d.setLink n { x with samples := l }
  else timeMean (d.setLink n { x with samples := [] }) (l.foldl (· + ·) 0 / 16)

def timeOn (d : Dev) (n : Nat) : Bool := d.flag 0x142 R.CRW_TIME_CFG 8 && d.flag (lp n) R.LNK_CFG 4

/-- Every t_SYNC: a time request on the upstream link; holdover where it is not UP. -/
def execTimeExchange (n : LinkIx) (s : State) : Host.Outcome State Fault Refusal :=
  s.run (fun d =>
    if upstream d ≠ some n.val || !timeOn d n.val then d
    else if linkState d n.val = 2 then
      (d.setFld (lp n.val) R.LNK_STATUS 13 1 0).updLink n.val (fun x => { x with reqDue := true })
    else
      let d := d.setFld (lp n.val) R.LNK_STATUS 13 1 1
      if d.flag 0x142 R.CRW_EVENTS 2 then d else crwEvent d 2)

/-- CRW_DTIME_SET: on the master, forward only. DEDUCED: log entry 64. -/
def dtimeSetWriter : Writer := fun d _ node off v =>
  let w := BitVec.ofNat 64 v
  if !isMaster d || w < d.dtime then (d, .badState) else (({ d with dtime := w }).setReg64 node off w, .ok)

def execDtimeSet (r : Req) (v : Word) (s : State) : Host.Outcome State Fault Refusal :=
  s.run (fun d => d.regCmd r 0x142 R.CRW_DTIME_SET v dtimeSetWriter)

/-! ### Reception (R421, R422, R424) -/

/-- The transmitter's side of a swap (R429 steps 2 and 5). -/
def swapTo (d : Dev) (n a : Nat) : Dev :=
  if d.fld (lp n) R.LNK_STATUS 8 4 = a then d else linkEvent (d.setFld (lp n) R.LNK_STATUS 8 4 a) n 4

/-- A good CTRL flit: its ack and credits, then its nak, swap request and time exchange. DEDUCED: log entry 62. -/
def ctrlReceive (d : Dev) (n : Nat) (f : Flit) : Dev :=
  let p := (flitPay f).toNat
  let d := ackTo d n (flitSeq f)
  let d := d.updLink n (fun x => { x with
    credit := (List.range 8).foldl (fun t k => tput t 0 (k + 1) (min (vcBuffer (k + 1)) (tget t 0 (k + 1) + bitsOf p (16 + 8 * k) 8))) x.credit })
  let d := if p.testBit 0 then replayNow d n else d
  let d := if p.testBit 1 && bitsOf p 8 4 < 8 then swapTo d n (bitsOf p 8 4) else d
  let d := if p.testBit 2 then d.updLink n (fun x => { x with rspDue := some (time256 d) }) else d
  if p.testBit 3 && upstream d = some n && timeOn d n then
    timeSample d n (BitVec.ofNat 64 (bitsOf p 160 64)) (BitVec.ofNat 64 (bitsOf p 96 64))
  else d

/-- The lowest free record of hop h; the tag of one that timed out is out of use for a while (R344, R437). -/
def freeProxy (d : Dev) (n h : Nat) : Option Nat :=
  ((List.range 128).map (fun i => h * 128 + i)).find? (fun t =>
    !((d.link n).proxies.any (fun e => e.1 = t)) && !(d.noc.quarantine.any (fun e => e.1 = lp n && e.2.2 = t)))

/-- Flits of the packet being received, once no earlier packet of its vc waits, are passed on as they come: their credit is owed (R424).
While a request's record is not free they wait, and their credit is kept back (R437). DEDUCED: log entry 62. -/
def passFlits (d : Dev) (n vc : Nat) : Dev :=
  let x := d.link n
  let k := tget x.asmFlits 0 vc
  let rr := 3 ≤ vc && ((tget x.asm [] vc)[1]?.getD 0).getLsbD 63
  if k = 0 || x.rxq.any (fun e => e.1 = vc) || (rr && (freeProxy d n (vc - 2)).isNone) then d
  else d.setLink n { x with asmFlits := tput x.asmFlits 0 vc 0, creditDue := tput x.creditDue 0 vc (tget x.creditDue 0 vc + k) }

/-- Units of an accepted flit join the packet of its vc; a whole packet waits to be passed on. -/
def deliverUnits (d : Dev) (n : Nat) (f : Flit) : Dev :=
  let vc := flitVc f
  let d := d.updLink n (fun x =>
    let l := tget x.asm [] vc ++ [flitSlot f 0, flitSlot f 1]
    let k := tget x.asmFlits 0 vc + 1
    match packetUnits vc l with
    | some u =>
      if u ≤ l.length then { x with asm := tput x.asm [] vc [], asmFlits := tput x.asmFlits 0 vc 0, rxq := x.rxq ++ [(vc, l.take u, k)] }
      else { x with asm := tput x.asm [] vc l, asmFlits := tput x.asmFlits 0 vc k }
    | none => { x with asm := tput x.asm [] vc l, asmFlits := tput x.asmFlits 0 vc k })
  passFlits d n vc

/-- A flit is not accepted: the first since an accepted one brings a nak. -/
def flitDiscard (d : Dev) (n : Nat) : Dev :=
  d.updLink n (fun x => if x.ignoring then x else { x with ignoring := true, nakDue := true })

/-- A flit arrives on a link that is UP. -/
def flitReceive (d : Dev) (n : Nat) (f : Flit) : Dev :=
  if linkState d n ≠ 2 || lanesTested d then d
  else
    match flitCheck d n f with
    | (d, none) => if flitVc f = 0 then d else flitDiscard d n
    | (d, some f) =>
      if flitVc f = 0 then ctrlReceive d n f
      else if flitSeq f ≠ (d.link n).rxSeq then flitDiscard d n
      else
        let d := d.updLink n (fun x => { x with rxSeq := (x.rxSeq + 1) % 4096, ignoring := false, owed := x.owed + 1 })
        deliverUnits (d.setReg64 (lp n) R.LNK_RX_FLITS (d.reg64 (lp n) R.LNK_RX_FLITS + 1)) n f

def execFlitReceive (n : LinkIx) (f : Flit) (s : State) : Host.Outcome State Fault Refusal := s.run (fun d => flitReceive d n.val f)

/-- A CTRL flit that carries bit k of byte 0; another flit is no such event. -/
def ctrlEvent (n : Nat) (f : Flit) (k : Nat) (s : State) : Host.Outcome State Fault Refusal :=
  s.run (fun d => if flitVc f = 0 && (flitPay f).getLsbD k then flitReceive d n f else d)

def execNak (n : LinkIx) (f : Flit) (s : State) : Host.Outcome State Fault Refusal := ctrlEvent n.val f 0 s
def execSwapReq (n : LinkIx) (f : Flit) (s : State) : Host.Outcome State Fault Refusal := ctrlEvent n.val f 1 s
def execTimeReq (n : LinkIx) (f : Flit) (s : State) : Host.Outcome State Fault Refusal := ctrlEvent n.val f 2 s
def execTimeRsp (n : LinkIx) (f : Flit) (s : State) : Host.Outcome State Fault Refusal := ctrlEvent n.val f 3 s
/-- Any CTRL flit: its ack and credits count. -/
def execAckCredit (n : LinkIx) (f : Flit) (s : State) : Host.Outcome State Fault Refusal :=
  s.run (fun d => if flitVc f = 0 then flitReceive d n.val f else d)

/-- Take the oldest whole packet of a vc; the credit of its flits is owed. -/
def takePacket (d : Dev) (n : Nat) (vc : Nat → Bool) : Option (Dev × Nat × List W128) :=
  let x := d.link n
  match x.rxq.find? (fun e => vc e.1) with
  | none => none
  | some e => some (d.setLink n { x with rxq := x.rxq.erase e, creditDue := tput x.creditDue 0 e.1 (tget x.creditDue 0 e.1 + e.2.2) }, e.1, e.2.1)

/-! ### Stroke channels (R431 to R433) -/

def txMap (c : Nat) : Nat := R.LNK_TX_MAP + 8 * c
def rxMap (c : Nat) : Nat := R.LNK_RX_MAP + 8 * c

/-- A map entry that is mapped. -/
def mapValid (w : Word) : Bool := w.getLsbD 31
def mapIsl (w : Word) : Nat := bitsOf w.toNat 0 8
def mapPort (w : Word) : Nat := bitsOf w.toNat 8 5
def mapFar (w : Word) : Nat := bitsOf w.toNat 13 5
def mapTenant (w : Word) : Nat := bitsOf w.toNat 18 4
def mapCount (w : Word) : Nat := bitsOf w.toNat 22 3 + 1

def strokeUnit (sack : Bool) (c a b tenant count : Nat) (free : Bool) : W128 :=
  BitVec.ofNat 128 (if sack then c % 1024 + a % 256 * 2 ^ 10 + b % 256 * 2 ^ 18 + tenant % 16 * 2 ^ 26 + 2 ^ 63
    else c % 1024 + a % 65536 * 2 ^ 10 + tenant % 16 * 2 ^ 26 + (count - 1) % 16 * 2 ^ 30 + (if free then 2 ^ 34 else 0))

/-- Units of stroke traffic a port holds (R433). -/
def strokeUnits (x : LinkSt) : Nat := x.strokeQ.foldl (fun a p => a + p.units.length) 0

/-- A STROKE or SACK packet from an island reaches the link port that carries its channel (R334, R432): none where the port's buffer
holds it back. DEDUCED: log entry 61. -/
def linkStrokeOut (d : Dev) (n : Nat) (p : Pkt) : Option Dev :=
  let x := d.link n
  let find (base : Nat) (q : Word → Bool) : Option Nat :=
    (d.linkChans.map (fun k => k % 2048 / 2)).find? (fun c => d.linkChans.contains ((n * 1024 + c) * 2 + (if base = R.LNK_TX_MAP then 0 else 1)) &&
      mapValid (d.reg (lp n) (base + 8 * c)) && q (d.reg (lp n) (base + 8 * c)))
  let push (units : List W128) : Option Dev :=
    if linkState d n ≠ 2 then some d
    else if 512 < strokeUnits x + units.length then none
    else some (d.setLink n { x with strokeQ := x.strokeQ ++ [⟨1, p.prio, p.src, p.tenant, units⟩] })
  if p.cmd = 0x18 then
    match find R.LNK_TX_MAP (fun w => mapIsl w = p.src && mapFar w = p.addr % 32) with
    | some c => push (strokeUnit false c (p.addr / 32 % 65536) 0 p.tenant p.len (p.addr.testBit 21) :: p.data)
    | none => some (linkEvent d n 8)
  else
    match find R.LNK_RX_MAP (fun w => mapIsl w = p.src && mapFar w = p.addr % 32) with
    | some c => push [strokeUnit true c (p.addr / 32 % 256) (p.addr / 2 ^ 13 % 256) p.tenant 0 false]
    | none => some (linkEvent d n 8)

/-- A received stroke packet: checked, and forwarded with the link port as its source; or discarded with map_error. -/
def linkStrokeIn (d : Dev) (n : Nat) : Dev :=
  match takePacket d n (· = 1) with
  | none => d
  | some (d, _, l) =>
    let u := (l.headD 0).toNat
    let c := bitsOf u 0 10
    let t := bitsOf u 26 4
    let sack := u.testBit 63
    let w := d.reg (lp n) (if sack then txMap c else rxMap c)
    let words := l.drop 1
    let ok := mapValid w && mapTenant w = t &&
      (sack || (mapCount w = bitsOf u 30 4 + 1 && w.getLsbD 25 = u.testBit 34))
    if !ok then linkEvent d n 8
    else if sack then
      d.send (lp n) (mapIsl w) 0x19 0 0 t 1 false (mapPort w + bitsOf u 10 8 * 32 + bitsOf u 18 8 * 2 ^ 13) [] 0
    else
      d.send (lp n) (mapIsl w) 0x18 0 0 t 1 false (mapPort w + bitsOf u 10 16 * 32 + (if u.testBit 34 then 2 ^ 21 else 0)) words words.length

def execLinkStrokeUnit (n : LinkIx) (s : State) : Host.Outcome State Fault Refusal :=
  s.run (fun d => passFlits (linkStrokeIn d n.val) n.val 1)

/-! ### Tunnelling (R435 to R438, R446) -/

def devEpoch (d : Dev) (v : Nat) : Nat := d.fld 0x142 (R.CRW_DEV_EPOCH + 4 * v) 0 8
def lpEpoch (d : Dev) (v k : Nat) : Nat := d.fld 0x142 (R.CRW_LP_EPOCH + 32 * v + 4 * (k / 4)) (8 * (k % 4)) 8

def tunnelUnit (d : Dev) (n dest hop : Nat) : W128 :=
  BitVec.ofNat 128 (dest % 64 + d.devId * 64 + devEpoch d d.devId % 256 * 2 ^ 12 + d.epoch (lp n) % 256 * 2 ^ 20 + hop % 8 * 2 ^ 28)

/-- Queue a tunnel packet. -/
def tunnelSend (d : Dev) (n vc dest hop src : Nat) (hdr : W128) (data : List W128) : Dev :=
  d.updLink n (fun x => { x with
    tunnelQ := x.tunnelQ ++ [⟨vc, bitsOf hdr.toNat 44 3, src, bitsOf hdr.toNat 47 4, tunnelUnit d n dest hop :: hdr :: data⟩] })

/-- The control offset of CRW_MSG. -/
def isCrwMsg (addr : Nat) : Bool :=
  inControl addr && controlOff addr / 0x10000 = 0x142 && R.CRW_MSG ≤ controlOff addr % 0x10000 && controlOff addr % 0x10000 < R.CRW_MSG + 64

/-- A request for another device reaches its egress link port (R436, R438, R446). -/
def tunnelRequestOut (d : Dev) (n : Nat) (p : Pkt) : Dev :=
  let fromLink := 0x110 ≤ p.src && p.src < 0x130
  if linkState d n ≠ 2 then
    (d.nocEvent (lp n) 4 0 0).respond (lp n) p .noTarget []
  else if isCrwMsg p.addr && !(p.src = 0x141 || p.src = 0x142 || fromLink) then
    (deniedHere d ⟨p.src, 0, p.tenant⟩ (lp n) 0).respond (lp n) p .denied []
  else
    let hop := if fromLink then p.tag / 128 + 1 else 1
    tunnelSend d n (2 + hop) (deviceOf p.addr) hop p.src p.hdr p.data

/-- Replace a header's source, destination, tag, epoch or status code, with its crc. -/
def reHdr (h : W128) (dest src cmd tag epoch : Nat) : W128 :=
  let f (lo w : Nat) : Nat := bitsOf h.toNat lo w
  mkHdr dest src cmd tag (f 36 8) (f 44 3) (f 47 4) epoch (f 59 2) (f 61 2) (h.getLsbD 63) (f 64 52)

/-- Answer a tunnelled request over the link it came by. -/
def tunnelAnswer (d : Dev) (n dev : Nat) (hdr : W128) (st : Status) : Dev :=
  if !hdr.getLsbD 63 then d
  else
    let f (lo w : Nat) : Nat := bitsOf hdr.toNat lo w
    let h := mkHdr (f 10 10) (f 0 10) (0x30 + st.code) (f 26 10) 0 (f 44 3) (f 47 4) (f 51 8) (f 59 2) 0 false (f 64 52)
    tunnelSend d n 2 dev 0 (lp n) h []

/-- Whether a tunnel unit agrees with the crew epoch table and the partner found at training (R438). -/
def tunnelFresh (d : Dev) (n : Nat) (u : W128) : Bool :=
  let v := bitsOf u.toNat 6 6
  let i := d.reg (lp n) R.LNK_PEER_INFO
  i.getLsbD 31 && bitsOf i.toNat 0 6 = v && bitsOf u.toNat 12 8 = devEpoch d v && bitsOf u.toNat 20 8 = lpEpoch d v (bitsOf i.toNat 14 5)

/-- A tunnelled request of hop h arrives (R437). -/
def tunnelRequestIn (d : Dev) (n h : Nat) : Dev :=
  let x := d.link n
  match x.rxq.find? (fun e => e.1 = 2 + h) with
  | none => d
  | some (_, l, _) =>
    let hdr := l[1]?.getD 0
    let rr := hdr.getLsbD 63
    -- while no record of the hop is free the request waits, and its credit is kept back
    if rr && (freeProxy d n h).isNone then d
    else
      match takePacket d n (· = 2 + h) with
      | none => d
      | some (d, _, _) =>
        let u := l.headD 0
        let from_ := bitsOf u.toNat 6 6
        let addr := bitsOf hdr.toNat 64 52
        if !tunnelFresh d n u then tunnelAnswer (linkEvent d n 12) n from_ hdr .stale
        else if deviceOf addr ≠ d.devId && (h = 6 || (destOf d addr).isNone) then
          tunnelAnswer (if h = 6 then linkEvent d n 11 else d) n from_ hdr .noTarget
        else
          match destOf d addr with
          | none => tunnelAnswer (d.nocEvent (lp n) 4 0 0) n from_ hdr .noTarget
          | some dest =>
            let tag := if rr then (freeProxy d n h).getD (h * 128) else h * 128
            let p : Pkt := ⟨reHdr hdr dest (lp n) (bitsOf hdr.toNat 20 6) tag (d.epoch (lp n)), l.drop 2, false⟩
            let d := if rr then d.updLink n (fun x => { x with proxies := x.proxies ++ [(tag, ⟨from_, hdr⟩)] }) else d
            { d with noc := { d.noc with inject := d.noc.inject ++ [(lp n, 0, p)] } }

def execTunnelRequest (n : LinkIx) (h : Fin 7) (s : State) : Host.Outcome State Fault Refusal :=
  s.run (fun d => if h.val = 0 then d else passFlits (tunnelRequestIn d n.val h.val) n.val (2 + h.val))

/-- A response reaches the proxy of its request: it goes back over the link with the original source and tag (R437). -/
def proxyResponse (d : Dev) (n : Nat) (p : Pkt) : Dev :=
  match (d.link n).proxies.find? (fun e => e.1 = p.tag) with
  | none => (d.dropped (lp n) 24).nocEvent (lp n) 5 0 0
  | some (_, q) =>
    let d := d.updLink n (fun x => { x with proxies := x.proxies.filter (fun e => e.1 ≠ p.tag) })
    if linkState d n ≠ 2 then d
    else tunnelSend d n 2 q.dev 0 p.src
      (reHdr p.hdr (bitsOf q.hdr.toNat 10 10) (bitsOf q.hdr.toNat 0 10) p.cmd (bitsOf q.hdr.toNat 26 10) p.epoch) p.data

/-- A response on vc 2 is injected to the original source (R437). -/
def tunnelResponseIn (d : Dev) (n : Nat) : Dev :=
  match takePacket d n (· = 2) with
  | none => d
  | some (d, _, l) =>
    let hdr := l[1]?.getD 0
    if !tunnelFresh d n (l.headD 0) then linkEvent d n 12
    else d.emit (.pkt ⟨reHdr hdr (bitsOf hdr.toNat 0 10) (lp n) (bitsOf hdr.toNat 20 6) (bitsOf hdr.toNat 26 10) (d.epoch (lp n)), l.drop 2, false⟩)

def execTunnelResponse (n : LinkIx) (s : State) : Host.Outcome State Fault Refusal :=
  s.run (fun d => passFlits (tunnelResponseIn d n.val) n.val 2)

/-- A proxy's own timer, from the injection of its request: the record is freed, its tag is kept out of use for a while, and nothing is
sent back (R344, R437). -/
def proxyTimeout (d : Dev) (n tag : Nat) : Dev :=
  if !(d.link n).proxies.any (fun e => e.1 = tag) || d.noc.inject.any (fun e => e.1 = lp n && e.2.2.rr && e.2.2.tag = tag) then d
  else
    let d := (d.nocEvent (lp n) 6 0 0).updLink n (fun x => { x with proxies := x.proxies.filter (fun e => e.1 ≠ tag) })
    { d with noc := { d.noc with quarantine := d.noc.quarantine ++ [(lp n, 0, tag)] } }

def execProxyTimeout (n : LinkIx) (tag : Fin 1024) (s : State) : Host.Outcome State Fault Refusal :=
  s.run (fun d => proxyTimeout d n.val tag.val)

/-! ### Training (R425 to R429, R432) -/

/-- Lane test modes in force on a group's lanes (R404). -/
def testActive (d : Dev) (n : Nat) : Bool :=
  (groupLanes n).any (fun g => (d.reg (laneNode g) (laneOff R.LANE_TEST_CTL g) &&& 0x377) != 0)

/-- A training frame that this end sends on lane j (R426): its phase, its identity chunk, and the taps it requests of the partner. -/
def trainFrame (d : Dev) (n j phase chunk : Nat) (taps : Option (Nat × Nat)) : BitVec 288 :=
  (withCrc (BitVec.ofNat 320 (0x817E + phase * 2 ^ 16 + j * 2 ^ 24 + n * 2 ^ 32 + d.devId * 2 ^ 40 + devEpoch d d.devId * 2 ^ 48
    + d.epoch (lp n) % 256 * 2 ^ 56 + (if d.flag (lp n) R.LNK_CFG 1 then 2 ^ 64 else 0)
    + (match taps with | some (pre, post) => (pre + 128) * 2 ^ 72 + post * 2 ^ 80 | none => 0) + chunk * 2 ^ 88
    + bitsOf (devHash d).toNat (128 * chunk) 128 * 2 ^ 96))).setWidth 288

/-- Training starts: what the link held is discarded, and frames of phase 3 go out on every lane (R425, R426, R430).
DESIGN CHOICE: log entry 147. -/
def trainStart (d : Dev) (n : Nat) : Dev :=
  let d := (linkDiscard (leaveUp (d.setFld (lp n) R.LNK_STATUS 4 8 0xFF) n 1) n).emit (.linkTrain n)
  (List.range 9).foldl (fun (d : Dev) j => d.emit (.trainFrame n j (trainFrame d n j 3 0 none))) d

/-- DEDUCED: log entry 60. -/
def mayTrain (d : Dev) (n : Nat) : Bool := d.flag (lp n) R.LNK_CFG 0 && d.fld (lp n) R.LANE_GRP_CFG 0 2 = 1

/-- The end of an exit from Standby: the islands that entry feathered resume, then the joined groups (R205). -/
def standbyResume (d : Dev) : Dev :=
  let go (d : Dev) (i : Nat) : Dev :=
    if (d.isl i).featheredByStandby then unfeather (d.updIsl i (fun x => { x with featheredByStandby := false })) i else d
  let l := d.islands.map (·.1)
  (l.filter (fun i => !strokeMode d i)).foldl go ((l.filter (strokeMode d)).foldl go d)

/-- A link has left training: an exit from Standby that waited for it goes on. -/
def standbyTrained (d : Dev) : Dev :=
  if d.standbyLinks.isEmpty then d
  else
    let d := { d with standbyLinks := d.standbyLinks.filter (fun n => linkState d n = 1) }
    if d.standbyLinks.isEmpty then standbyResume d else d

/-- Every tenant channel of a link is unmapped. -/
def unmapLink (d : Dev) (n : Nat) : Dev :=
  (d.linkChans.filter (fun k => k / 2048 = n)).foldl (fun (d : Dev) k =>
    d.setFld (lp n) ((if k % 2 = 0 then R.LNK_TX_MAP else R.LNK_RX_MAP) + 8 * (k / 2 % 1024)) 31 1 0) d

/-- LNK_CTL: train, down or clear_stats, one at a time. -/
def linkCtlWriter : Writer := fun d _ node _ v =>
  let n := node - 0x110
  if v % 8 = 1 then (if mayTrain d n then (trainStart d n, .ok) else (d, .badState))
  else if v % 8 = 2 then (standbyTrained (unmapLink (linkDiscard (leaveUp (d.setFld node R.LNK_STATUS 4 8 0xFF) n 0) n) n), .ok)
  else if v % 8 = 4 then
    (([R.LNK_RETRIES, R.LNK_CRC_ERRS, R.LNK_FEC_CORR, R.LNK_FEC_UNCORR, R.LNK_TX_FLITS, R.LNK_TX_FLITS + 4, R.LNK_RX_FLITS,
       R.LNK_RX_FLITS + 4] : List Nat).foldl (fun (d : Dev) o => d.setReg node o 0) d, .ok)
  else if v % 8 = 0 then (d, .ok)
  else (d, .badState)

def execLinkTrain (r : Req) (n : LinkIx) (s : State) : Host.Outcome State Fault Refusal :=
  s.run (fun d => d.regCmd r (lp n.val) R.LNK_CTL 1 linkCtlWriter)
def execLinkDown (r : Req) (n : LinkIx) (s : State) : Host.Outcome State Fault Refusal :=
  s.run (fun d => d.regCmd r (lp n.val) R.LNK_CTL 2 linkCtlWriter)
def execClearStats (r : Req) (n : LinkIx) (s : State) : Host.Outcome State Fault Refusal :=
  s.run (fun d => d.regCmd r (lp n.val) R.LNK_CTL 4 linkCtlWriter)

def execAutoRetrain (n : LinkIx) (s : State) : Host.Outcome State Fault Refusal :=
  s.run (fun d => if linkState d n.val = 5 && d.flag (lp n.val) R.LNK_CFG 3 && mayTrain d n.val then trainStart d n.val else d)

/-- The partner's request for the taps of lane j's transmitter is applied: the main tap follows, and values out of range change nothing
(R396, R427). -/
def applyTaps (d : Dev) (n j pre post : Nat) : Dev :=
  if 15 < pre || 24 < post then d
  else d.setReg (lp n) (laneOff R.LANE_TX_COEF (9 * n + j)) (BitVec.ofNat 32 (pre + post * 2 ^ 8 + (63 - pre - post) * 2 ^ 16))

/-- This end's frame in answer to one of phase `ph` and chunk `i`: the next phase up to 5, whose frames go through the identity's chunks;
with train_en = 1 it requests taps of the sweeps, which the bit errors of the lane decide and no rule gives: free values.
DESIGN CHOICE: log entry 147. -/
def frameReply (d : Dev) (n j ph i : Nat) : Dev :=
  let phase := min 5 (max 3 ph + 1)
  let chunk := if ph = 5 then (i + 1) % 3 else 0
  let (k, d) := d.draw
  let taps := if d.flag (lp n) R.LNK_CFG 2 then some (3 * (k % 6), 4 * (k / 6 % 7)) else none
  d.emit (.trainFrame n j (trainFrame d n j phase chunk taps))

/-- A training frame on physical lane j (R426, R427): a bad one leaves its lane unconfirmed. -/
def trainingFrame (d : Dev) (n j : Nat) (f : BitVec 288) : Dev :=
  let g : Flit := f.setWidth 320
  let b (k : Nat) : Nat := (flitByte g k).toNat
  if linkState d n ≠ 1 then d
  else if flitByte g 34 ++ flitByte g 35 ≠ crc16 g || b 0 ≠ 0x7E || b 1 ≠ 0x81 || b 3 ≠ j then d
  else
    let d := d.updLink n (fun x => { x with
      lanesOk := if x.lanesOk.contains j then x.lanesOk else x.lanesOk ++ [j], peer := some f,
      chunks := if b 11 < 3 then tput x.chunks 0 (b 11) (f.extractLsb' 96 128) else x.chunks })
    let d := if d.flag (lp n) R.LNK_CFG 2 && 128 ≤ b 9 then applyTaps d n j (b 9 % 16) (b 10 % 32) else d
    frameReply d n j (b 2) (b 11)

def execTrainingFrame (n : LinkIx) (j : Fin 9) (f : BitVec 288) (s : State) : Host.Outcome State Fault Refusal :=
  s.run (fun d => trainingFrame d n.val j.val f)

/-- Map the channels of every tenant whose conditions hold (R432, R55). -/
def mapChannels (d : Dev) (n : Nat) (hash : BitVec 384) : Dev :=
  let test := testActive d n
  (d.linkChans.filter (fun k => k / 2048 = n)).foldl (fun (d : Dev) k =>
    let o := (if k % 2 = 0 then R.LNK_TX_MAP else R.LNK_RX_MAP) + 8 * (k / 2 % 1024)
    let t := mapTenant (d.reg (lp n) o)
    if tget d.linkIds 0 (n * 16 + t) ≠ hash then (if d.flag (lp n) R.LNK_EVENTS 9 then d else linkEvent d n 9)
    else if test then (if d.flag (lp n) R.LNK_EVENTS 8 then d else linkEvent d n 8)
    else d.setFld (lp n) o 31 1 1) d

/-- Training ends (R425, R428): `locked` the PLL and the PRBS lock, `badRx` and `badTx` the bad lanes of each direction as the ends found
them, `ctle` the equaliser settings the sweeps kept, by lane. DESIGN CHOICE: log entry 63. -/
def trainingDone (d : Dev) (n : Nat) (locked : Bool) (badRx badTx ctle : List Nat) : Dev :=
  let x := d.link n
  if linkState d n ≠ 1 then d
  else match locked && pllLocked d n, x.peer with
    | false, _ => linkFail d n
    | true, none => linkFail d n
    | true, some f =>
      let b (k : Nat) : Nat := (flitByte (f.setWidth 320) k).toNat
      let dev := b 5 % 64
      let link := b 4 % 32
      if dev = d.devId then linkFail (linkEvent d n 10) n
      else if b 6 ≠ devEpoch d dev || b 7 ≠ lpEpoch d dev link then
        linkEvent (linkEvent (linkDiscard (setLinkState d n 4) n) n 12) n 3
      else if (b 8 % 2 = 1) ≠ d.flag (lp n) R.LNK_CFG 1 then linkFail d n
      else
        let hash : BitVec 384 := tget x.chunks 0 2 ++ tget x.chunks 0 1 ++ tget x.chunks 0 0
        let d := d.setReg (lp n) R.LNK_PEER_INFO (BitVec.ofNat 32 (dev + b 6 * 2 ^ 6 + link * 2 ^ 14 + b 7 * 2 ^ 19 + 2 ^ 31))
        let d := (List.range 12).foldl (fun (d : Dev) k => d.setReg (lp n) (R.LNK_PEER_HASH + 4 * k) (hash.extractLsb' (32 * k) 32)) d
        let rx := ((List.range 9).filter (fun j => badRx.contains j || !x.lanesOk.contains j))
        if 2 ≤ rx.length || 2 ≤ badTx.length then linkFail d n
        else
          let spare (l : List Nat) : Nat := match l with | j :: _ => if j < 8 then j else 15 | [] => 15
          let d := (d.setFld (lp n) R.LNK_STATUS 4 4 (spare rx)).setFld (lp n) R.LNK_STATUS 8 4 (spare badTx)
          let d := d.setFld (lp n) R.LNK_STATUS 3 1 (if d.flag (lp n) R.LNK_CFG 1 then 1 else 0)
          let d := if d.flag (lp n) R.LNK_CFG 2 then
              (ctle.zipIdx.filter (fun e => e.2 < 9)).foldl (fun (d : Dev) e => d.setFld (lp n) (laneOff R.LANE_RX_CFG (9 * n + e.2)) 0 3 e.1) d
            else d
          let d := d.setLink n { proxies := x.proxies, credit := (List.range 8).foldl (fun t k => tput t 0 (k + 1) (vcBuffer (k + 1))) [] }
          linkEvent (setLinkState (mapChannels (unmapLink d n) n hash) n 2) n 0

def execTrainingDone (n : LinkIx) (locked : Bool) (badRx badTx ctle : List Nat) (s : State) : Host.Outcome State Fault Refusal :=
  s.run (fun d => standbyTrained (trainingDone d n.val locked badRx badTx ctle))

/-- Recovery ends (R429): with at most one bad lane in each direction the link is UP again and replays. -/
def recoveryDone (d : Dev) (n : Nat) (badRx badTx : List Nat) : Dev :=
  if linkState d n ≠ 3 then d
  else if 2 ≤ badRx.length || 2 ≤ badTx.length || !pllLocked d n then linkFail d n
  else
    let spare (l : List Nat) : Nat := match l with | j :: _ => if j < 8 then j else 15 | [] => 15
    let was := d.fld (lp n) R.LNK_STATUS 4 8
    let d := (d.setFld (lp n) R.LNK_STATUS 4 4 (spare badRx)).setFld (lp n) R.LNK_STATUS 8 4 (spare badTx)
    let d := if d.fld (lp n) R.LNK_STATUS 4 8 = was then d else linkEvent d n 4
    linkEvent (setLinkState (d.updLink n (fun x => { x with resend := x.replay.length, nakDue := true, ignoring := true })) n 2) n 0

def execRecoveryDone (n : LinkIx) (badRx badTx : List Nat) (s : State) : Host.Outcome State Fault Refusal :=
  s.run (fun d => recoveryDone d n.val badRx badTx)

/-- LNK_CFG: in OFF or FAILED only. -/
def linkCfgWriter : Writer := fun d r node off v =>
  let st := linkState d (node - 0x110)
  if st = 0 || st = 5 then storeWriter d r node off v else (d, .badState)

/-! ### Values read -/

def linkStatusView (d : Dev) (n : Nat) : Word :=
  let h := upstream d = some n && linkState d n ≠ 2
  putBits (putBits (d.reg (lp n) R.LNK_STATUS) 12 1 (if testActive d n then 1 else 0)) 13 1 (if h then 1 else 0)

def timeStatusView (d : Dev) : Word :=
  let u := upstream d
  let up := match u with | some n => linkState d n = 2 | none => false
  let b (c : Bool) (k : Nat) : Nat := if c then 2 ^ k else 0
  -- no rule says how a device learns its distance to the master: a free value
  let hops := if isMaster d then 0 else Config.freeNat (2 ^ 32 + d.fld 0x142 R.CRW_TIME_CFG 0 6) % 8
  BitVec.ofNat 32 (b (isMaster d || 16 ≤ d.goodMeans) 0 + b (u.isSome && !up) 1 + b (isMaster d) 2 + u.getD 0 * 8 + hops * 256)

end Sys2Proof.Machine
end

