-- ==== Sys2Proof/Machine/HostBase.lean ====
section
/-! DEFINITION. The host interface's channels, windows and host accesses as every unit meets them: what a function may do, accesses to
host memory (R458, R459, R485), completions (R477 to R479, R481), pausing (R483) and the resets of a function (R484). -/

namespace Sys2Proof.Machine

def Dev.chan (d : Dev) (c : Nat) : Chan := tget d.chans {} c
def Dev.setChan (d : Dev) (c : Nat) (x : Chan) : Dev := { d with chans := tput d.chans {} c x }
def Dev.updChan (d : Dev) (c : Nat) (f : Chan → Chan) : Dev := d.setChan c (f (d.chan c))

/-- The function a channel's block is given to (R460). DEDUCED: log entry 88. -/
def chanFn (d : Dev) (c : Nat) : Option Nat :=
  let f := d.fld 0x140 (R.HIF_BLK_MAP + 4 * (c / 1024)) (8 * (c / 256 % 4)) 5
  if f ≤ 16 then some f else none

def hostLinkUp (d : Dev) : Bool := d.flag 0x140 R.HIF_LINK 16
def inStandby (d : Dev) : Bool := d.fld 0x146 R.PWR_DEV_STATE 0 2 ≠ 0

/-- Whether a function's accesses to host memory can be sent now. -/
def hostReady (d : Dev) (f : Nat) : Bool := fnMaster d f && hostLinkUp d

/-- Standby entry has come to step 3: no island runs, and no drain or restore is in progress (R205). -/
def standbyStill (d : Dev) : Bool :=
  d.standbyEntering && d.load.isNone
    && d.islands.all (fun e => !isRunning e.2.state && !e.2.drainActive && e.2.state ≠ .restoring)

/-- Whether a function's channels run: D0 with Bus Master Enable, and the device not in Standby, nor at step 3 of its entry (R205, R483). -/
def chansRun (d : Dev) (f : Nat) : Bool := fnMaster d f && !inStandby d && !standbyStill d

/-- The channels of a function that hold anything. -/
def fnChans (d : Dev) (f : Nat) : List Nat := (d.chans.map (·.1)).filter (fun c => chanFn d c = some f)

/-! ### Accesses to host memory (R459, R485) -/

/-- PCIe tags a function holds: its reads sent and not answered. -/
def tagsHeld (d : Dev) (f : Nat) : Nat := (d.hostAccs.filter (fun a => a.fn = f && a.sent && !a.write)).length
def tagReserve (d : Dev) (f : Nat) : Nat := d.fld 0x140 (R.HIF_FN_ARB + 0x10 * f) 16 11
/-- Tags of the shared pool that are free. DEDUCED: log entry 123. -/
def poolFree (d : Dev) : Nat :=
  let used := (List.range 17).foldl (fun a f => a + (tagsHeld d f - tagReserve d f)) 0
  1024 - (List.range 17).foldl (fun a f => a + tagReserve d f) 0 - used
def mayTag (d : Dev) (f : Nat) : Bool := tagsHeld d f < tagReserve d f || 0 < poolFree d

/-- The lowest number no access in progress has. -/
def freeAcc (d : Dev) : Nat := ((List.range (d.hostAccs.length + 1)).find? (fun t => !d.hostAccs.any (fun a => a.tag = t))).getD 0

/-- HIF_TAGS as read. DEDUCED: log entry 123. -/
def tagsView (d : Dev) : Word :=
  BitVec.ofNat 32 ((d.hostAccs.filter (fun a => a.sent && !a.write)).length % 2048 + poolFree d % 2048 * 65536)

/-- A function's event of the kind R456 and R479 name, its error captured while none is (R456). -/
def barError (d : Dev) (f off : Nat) (st : Status) (bar2 wr : Bool) : Dev :=
  let o := fnArea f R.HIF_FN_ERR
  let d := if d.flag 0x140 o 31 then d else
    (d.setReg 0x140 o (BitVec.ofNat 32 (st.code + (if bar2 then 16 else 0) + (if wr then 32 else 0) + 2 ^ 31))).setReg64 0x140
      (fnArea f R.HIF_FN_ERR_ADDR) (BitVec.ofNat 64 off)
  fnEvent d f 0

/-- A channel enters ERROR (R461, R464, R479): cause 1 fetch, 2 completion write, 3 doorbell. -/
def chanFail (d : Dev) (c cause code : Nat) : Dev :=
  let d := d.updChan c (fun x => { x with
    state := 4, fetching := false, err := if x.err.getLsbD 31 then x.err else BitVec.ofNat 32 (code + 16 * cause + 2 ^ 31) })
  match chanFn d c with
  | some f => fnEvent d f 3
  | none => d
def chanError (d : Dev) (c cause : Nat) (st : Status) : Dev := chanFail d c cause st.code

/-! ### Completions (R477 to R479, R481) -/

def jobOp (j : Job) : Nat := (j.raw.extractLsb' 0 8).toNat
def jobIrq (j : Job) : Bool := j.raw.getLsbD 8
def ringSize (code : Nat) : Nat := 2 ^ (code + 4)
def Chan.sqSize (x : Chan) : Nat := ringSize (bitsOf x.cfg.toNat 0 4)
def Chan.cqSize (x : Chan) : Nat := ringSize (bitsOf x.cfg.toNat 4 4)
/-- Room for one completion. -/
def Chan.cqRoom (x : Chan) : Bool := (x.cqTail + 1) % x.cqSize ≠ x.cqHead

/-- The 16 bytes of a completion entry. -/
def entryBytes (x : Chan) (j : Job) (r : Status × Status × Nat × Nat) : List Byte :=
  let first := if r.1 = .partly then r.2.1.code else 0
  toBytes (j.idx % 65536 + (r.1.code + 16 * first) * 2 ^ 16 + jobOp j * 2 ^ 24 + r.2.2.1 % 2 ^ 32 * 2 ^ 32 + r.2.2.2 % 2 ^ 32 * 2 ^ 64
    + (if x.phase then 2 ^ 127 else 0)) 16

/-- The oldest descriptor's completion is written and counted on the channel's vector. -/
def writeCompletion (d : Dev) (f c : Nat) (j : Job) (r : Status × Status × Nat × Nat) : Dev :=
  let x := d.chan c
  let d := d.emit (.hostWrite f (x.cqBase.toNat + 16 * x.cqTail) (entryBytes x j r))
  let t := (x.cqTail + 1) % x.cqSize
  let d := d.setChan c { x with
    cqTail := t, phase := if t = 0 then !x.phase else x.phase, done := x.done + 1, jobs := x.jobs.drop 1, cqFull := false }
  if x.cfg.getLsbD 19 && (jobIrq j || r.1 ≠ .ok) then
    vecCount d (d.fld 0x140 (R.HIF_FN_VEC + 0x10 * f) 0 11 + bitsOf x.cfg.toNat 8 11)
  else d

/-! ### Pausing (R483) -/

/-- Channels of a function follow its power state, Bus Master Enable and the device's. -/
def pauseChans (d : Dev) (f : Nat) : Dev :=
  let run := chansRun d f
  (fnChans d f).foldl (fun (d : Dev) c => d.updChan c (fun x =>
    if x.state = 1 && !run then { x with state := 2 } else if x.state = 2 && run then { x with state := 1 } else x)) d

/-- DEDUCED: log entry 115. -/
def pauseAll (d : Dev) : Dev := (List.range 17).foldl pauseChans d

/-! ### Resets of a function (R484) -/

/-- Windows a function is given. -/
def fnWindows (d : Dev) (f : Nat) : List Nat :=
  (List.range 256).filter (fun w => d.flag 0x140 (R.HIF_HWIN_FN + 0x10 * w) 31 && d.fld 0x140 (R.HIF_HWIN_FN + 0x10 * w) 0 5 = f)

/-- A channel's reset: DISABLED, its fetched descriptors abandoned; the number of control commands it has handed on is kept.
DEDUCED: log entry 77. -/
def dropChan (d : Dev) (c : Nat) : Dev :=
  let d := { d with hostAccs := d.hostAccs.filter (fun a => match a.use with
    | .noc _ => true | .fetch c' _ _ => c' ≠ c | .part c' _ _ => c' ≠ c | .back c' _ => c' ≠ c) }
  { d with hifUses := d.hifUses.filter (fun e => match e.2 with
    | .copyIn c' _ _ _ => c' ≠ c | .copyOut c' _ _ _ => c' ≠ c | .push c' _ _ _ => c' ≠ c | .pop c' _ _ => c' ≠ c
    | .snap c' _ => c' ≠ c | .batch c' _ _ => c' ≠ c | _ => true) }

/-- Whether a host access belongs to a function's BAR traffic. -/
def barOf (f : Nat) (u : HifUse) : Bool :=
  match u with
  | .bar0Read g _ _ => g = f | .bar0Write g _ => g = f | .bar2Read g _ _ _ => g = f | .bar2Write g _ => g = f | _ => false

/-- A Function Level Reset of one function: its configuration space, its function area with the own device ID in HIF_CREW_SEL, its
vectors, its channels, its windows' bases, and its pending host requests, answered ABORTED. DEDUCED: log entry 77. -/
def fnReset (d : Dev) (f : Nat) : Dev :=
  let d := (d.hostAccs.filter (fun a => a.fn = f)).foldl (fun (d : Dev) a => match a.use with
    | .noc p => d.respond 0x140 p .aborted []
    | _ => d) d
  let d := { d with hostAccs := d.hostAccs.filter (fun a => a.fn ≠ f), bar2Waits := d.bar2Waits.filter (fun w => w.fn ≠ f),
                    hifUses := d.hifUses.filter (fun e => !barOf f e.2), pmeEn := d.pmeEn.filter (· ≠ f) }
  let d := (fnChans d f).foldl (fun (d : Dev) c => (dropChan d c).setChan c { cmds := (d.chan c).cmds }) d
  let d := (fnWindows d f).foldl (fun (d : Dev) w => d.setReg64 0x140 (R.HIF_HWIN_BASE + 0x10 * w) 0) d
  let b := d.fld 0x140 (R.HIF_FN_VEC + 0x10 * f) 0 11
  let n := d.fld 0x140 (R.HIF_FN_VEC + 0x10 * f) 16 12
  let d := ((List.range n).map (· + b)).foldl (fun (d : Dev) v =>
    ((d.resetRegs 0x140 (0x4000 + 0x10 * v) (0x4010 + 0x10 * v)).clrReg 0x140 (pbaOff v) (bit (v % 32)))) d
  let d := d.resetRegs 0x140 (fnArea f 0x2000) (fnArea f 0x2100)
  d.setReg 0x140 (fnArea f R.HIF_CREW_SEL) (BitVec.ofNat 32 d.devId)

/-- The function of a channel block, 0x1F none, and a block given to none (R460). -/
def blockFn (d : Dev) (b : Nat) : Nat := d.fld 0x140 (R.HIF_BLK_MAP + 4 * (b / 4)) (8 * (b % 4)) 5
def freeBlock (d : Dev) (b : Nat) : Dev := d.setFld 0x140 (R.HIF_BLK_MAP + 4 * (b / 4)) (8 * (b % 4)) 5 0x1F

/-- Each fetched, uncompleted descriptor of a channel completes ABORTED where its ring has room. -/
def abortJobs (d : Dev) (f c : Nat) : Dev := (d.chan c).jobs.foldl (fun (d : Dev) j =>
  if (d.chan c).cqRoom then writeCompletion d f c j (.aborted, .ok, 0, 0) else d) d

/-- Whether a channel's descriptors can still be completed: it is enabled and not in ERROR. -/
def chanOpen (d : Dev) (c : Nat) : Bool := let s := (d.chan c).state; s = 1 || s = 2 || s = 3

/-- A channel block leaves its function: as eviction step 7 for its channels. -/
def blockEvict (d : Dev) (b : Nat) : Dev :=
  ((d.chans.map (·.1)).filter (fun c => c / 256 = b)).foldl (fun (d : Dev) c =>
    let f := blockFn d b
    let d := if fnMaster d f && chanOpen d c then abortJobs d f c else d
    (dropChan d c).setChan c { cmds := (d.chan c).cmds }) d

/-- Whether a channel's block or its function is being evicted, from step 7 on: its doorbells are ignored (R61). DEDUCED: log entry 88. -/
def blockShut (d : Dev) (f c : Nat) : Bool := d.wipes.any (fun w => w.quiet && (w.blocks.contains (c / 256) || w.vfs.contains f))

/-- Eviction step 7 for one function: each fetched, uncompleted descriptor completes ABORTED where the host can be reached and its ring
has room, then the function is reset (R484). -/
def fnEvict (d : Dev) (f : Nat) : Dev :=
  let d := if fnMaster d f then ((fnChans d f).filter (chanOpen d)).foldl (fun (d : Dev) c => abortJobs d f c) d else d
  fnReset d f

end Sys2Proof.Machine
end

