-- ==== Sys2Proof/Machine/CoxBase.lean ====
section
/-! DEFINITION. What the Cox holds, as the units that ask it see it: its state, the Owner key hash in force, accepted tenant entries
and root keys (R49, R526, R531, R534, R537, R543). -/

namespace Sys2Proof.Machine

/-- Whether the Cox serves commands and loads (R526, R556). -/
def coxReady (d : Dev) : Bool := coxState d = 1

/-- The active Owner key hash: that of the highest-numbered valid slot; none on an unclaimed device (R531). -/
def ownerSlot (d : Dev) : Option Nat := [3, 2, 1, 0].find? (fun s => d.flag 0x141 R.FUS_VALID s)
def ownerHash (d : Dev) : Option (BitVec 384) := (ownerSlot d).map (fun s => BitVec.ofNat 384 (coxNum d (R.FUS_OWNER_HASH + 0x30 * s) 12))

/-- The accepted entry of a tenant (R49). -/
def entryOf (d : Dev) (t : Nat) : Option TenEntry := (d.tenants.find? (fun e => e.1 = t)).map (·.2)

/-- The key hash against which a principal's objects are checked. -/
def keyHashOf (d : Dev) (p : Nat) : Option (BitVec 384) := if p = 0 then ownerHash d else (entryOf d p).map (·.keyHash)

/-- Whether a principal's root key is held in key memory (R538). -/
def rootHeld (d : Dev) (p : Nat) : Bool := (tget d.roots none p).isSome

/-- The tenant that holds an island, a granule, a block, a virtual function under its entry. -/
def islandHolder (d : Dev) (i : Nat) : Option Nat := (d.tenants.find? (fun e => e.2.islands.getLsbD i)).map (·.1)

/-- Whether a principal's content may name an island (R495). -/
def entitled (d : Dev) (p i : Nat) : Bool :=
  if p = 0 then (islandHolder d i).isNone else match entryOf d p with | some e => e.islands.getLsbD i | none => false

/-- An event of the Cox, and a failed authentication (R540, R556). -/
def coxEvent (d : Dev) (b : Nat) : Dev := d.sticky 0x141 2 21 b R.COX_EVENTS

/-! ### Grants and sessions (R546 to R548, R564) -/

def apCtl (k : Nat) : Nat := R.DBG_AP_CTL + 0x80 * k

/-- The grant whose session is open on a path: its index and itself. -/
def pathGrant (d : Dev) (k : Nat) : Option (Nat × Grant) := d.grants.find? (fun g => g.2.sess = some k)

def hubEvent (d : Dev) (b : Nat) : Dev := d.sticky 0x143 11 23 b R.DBG_HUB_EVENTS

/-- An access port's operation completes: done and status. -/
def apEnd (d : Dev) (k : Nat) (st : Status) : Dev :=
  let d := { d with apTag := tput d.apTag 0 k 0 }
  (d.setFld 0x143 (apCtl k) 4 1 1).setFld 0x143 (apCtl k) 8 4 st.code

/-- Grants end: each open session closes, and an operation outstanding on its path ends ABORTED. -/
def grantsDrop (d : Dev) (p : Nat × Grant → Bool) : Dev :=
  let closing := (d.grants.filter p).filterMap (fun g => g.2.sess)
  closing.foldl (fun (d : Dev) k => hubEvent (if d.flag 0x143 (apCtl k) 4 then d else apEnd d k .aborted) 2)
    { d with grants := d.grants.filter (fun g => !p g) }

/-- Registers that show them. -/
def apSessView (d : Dev) (k : Nat) : Word :=
  match pathGrant d k with
  | some (g, x) => BitVec.ofNat 32 (1 + x.prin * 2 + x.rights % 64 * 32 + g * 2048)
  | none => 0
def hubStatusView (d : Dev) : Word := BitVec.ofNat 32 (((List.range 18).filter (fun k => (pathGrant d k).isSome)).map (2 ^ ·)).sum
def grantView0 (d : Dev) (g : Nat) : Word :=
  match d.grants.find? (fun x => x.1 = g) with
  | some (_, x) => BitVec.ofNat 32 (x.prin + x.paths % 4 * 16 + x.rights % 64 * 64 + (if x.sess.isSome then 65536 else 0) + 2 ^ 31)
  | none => 0
/-- DESIGN CHOICE: log entry 11. -/
def grantView1 (d : Dev) (g : Nat) : Word :=
  match d.grants.find? (fun x => x.1 = g) with
  | some (_, x) => BitVec.ofNat 32 ((x.until_ - d.dtime).toNat / 1000000000)
  | none => 0

end Sys2Proof.Machine
end

