-- ==== Sys2Proof/Machine/Configuration.lean ====
section
/-! DEFINITION. The configuration controller (R489 to R523): loads section by section, their checks and aborts, the configuration cache,
boot sources, boot flash; and the scrub units (R518 to R521). The words a source delivers come with the section commands; ENCRYPTED
carries its words as transmitted, and its children follow as the Cox decrypts them. -/

namespace Sys2Proof.Machine

/-! ### Events, status and sources -/

def cfgEvent (d : Dev) (b : Nat) : Dev := d.sticky 0x142 1 18 b R.CFG_EVENTS
def setPhase (d : Dev) (p : Nat) : Dev := d.setFld 0x142 R.CFG_STATUS 0 3 p

/-- The status of an abort reason (R507). -/
def reasonStatus (r : Nat) : Status :=
  if r = 5 then .authFail else if r = 6 then .denied else if r = 7 ∨ r = 9 then .badState else if r = 10 ∨ r = 11 then .aborted else .malformed

/-- A load cannot start: one is in progress, or the Cox serves none (R508, R527). -/
def loadRefused (d : Dev) : Bool := d.load.isSome || !coxReady d

/-- A load begins to receive its stream. DESIGN CHOICE: log entry 10. -/
def loadStart (d : Dev) (l : LoadSt) : Dev :=
  ((setPhase { d with load := some l } 1).setFld 0x142 R.CFG_STATUS 3 3 l.source).setReg64 0x142 R.CFG_WORDS 0

/-- A channel's CFG_LOAD or PR_LOAD. The first CFG_LOAD for which a boot load waits is that boot load (R489). -/
def channelLoad (d : Dev) (o : Origin) (vf : Option Nat) (pr : Bool) (words : Nat) : Dev :=
  let boot := d.awaitHost && !pr
  loadStart { d with awaitHost := if boot then false else d.awaitHost }
    { source := 0, boot := boot, origin := some o, vf := vf, partialLoad := pr, limit := some words }

/-! ### Boot (R489, R514, R515) -/

/-- CFG_DONE is released: the boot load has completed or finally failed (R517). -/
def bootOver (d : Dev) : Dev := { d with cfgDone := true }.emit (.pin 1 true)

/-- No source is left: wait for the host where MODE says so, else the boot has failed. DESIGN CHOICE: log entry 72. -/
def bootFallback (d : Dev) : Dev :=
  let mode := d.fld 0x142 R.CFG_STATUS 6 3
  if (mode = 5 || mode = 6) && !d.flag 0x142 R.CFG_STATUS 10 then
    let d := cfgEvent (d.setFld 0x142 R.CFG_STATUS 10 1 1) 5
    if d.flag 0x141 R.FUS_POLICY 0 then bootOver d else { d with awaitHost := true }
  else bootOver d

/-- The flash's next entry, or the fallback. -/
def bootNext (d : Dev) : Dev :=
  match d.bootTries with
  | e :: r => loadStart ({ d with bootTries := r }.setFld 0x142 R.CFG_STATUS 11 1 e.1) { source := 1, boot := true, limit := some e.2 }
  | [] => bootFallback d

/-- A flash directory entry that is live: its serial and length in words. -/
def flashEntry (e : BitVec 512) : Option (Nat × Nat) :=
  if bitsOf e.toNat 0 16 = 0x5A5A ∧ bitsOf e.toNat 16 16 = 0xFFFF then some (bitsOf e.toNat 32 32, bitsOf e.toNat 128 64 / 16) else none

/-- The live entries of the directory, highest serial first: entry and length. -/
def flashTries (e0 e1 : BitVec 512) : List (Nat × Nat) :=
  match flashEntry e0, flashEntry e1 with
  | some a, some b => if b.1 ≤ a.1 then [(0, a.2), (1, b.2)] else [(1, b.2), (0, a.2)]
  | some a, none => [(0, a.2)]
  | none, some b => [(1, b.2)]
  | none, none => []

/-- The boot load from the MODE source; `e0` and `e1` are the flash's directory entries as read. DESIGN CHOICE: log entry 72. -/
def bootStart (d : Dev) (e0 e1 : BitVec 512) : Dev :=
  let src := d.fld 0x142 R.CFG_STATUS 6 2
  let d := d.setFld 0x142 R.CFG_STATUS 10 2 0
  if d.flag 0x141 R.FUS_POLICY src then bootFallback { d with bootTries := [], awaitHost := false }
  else if src = 0 then { d with awaitHost := true }
  else if src = 1 then bootNext { d with bootTries := flashTries e0 e1 }
  else loadStart { d with bootTries := [] } { source := src, boot := true }

/-! ### Aborts (R507, R511) -/

/-- A FEATHERED island that a partial reconfiguration had begun to write is blanked: it keeps its owner tag, count and settle count.
DEDUCED: log entry 71. -/
def blankIsland (d : Dev) (i : Nat) : Dev :=
  let d := scrubForget (eraseIsland d i) i (fun _ => true)
  let d := (((d.resetRegs i 0x104C 0x10C0).resetRegs i 0x3000 0x7000).resetRegs i 0x8000 0x9000)
  d.updIsl i (fun x => { x with setup := {}, hash := 0, prBusy := false, touched := false, xi := [], xo := [], wireRegs := [],
                                ps0 := {}, ps1 := {}, fab := {}, probe := [] })

/-- What becomes of an island that an aborted load had taken. -/
def dropTaken (d : Dev) (t : Taken) : Dev :=
  let x := d.isl t.isl
  if x.state = .evicting then d.updIsl t.isl (fun x => { x with prBusy := false })
  else if t.idle then zeroiseIsland d t.isl
  else blankIsland d t.isl

/-- The load in progress aborts. DEDUCED: log entry 68. -/
def loadAbort (d : Dev) (reason off prin : Nat) : Dev :=
  match d.load with
  | none => d
  | some l =>
    let st := reasonStatus reason
    let d := l.taken.foldl dropTaken { d with load := none }
    let d := l.taken.foldl (fun (d : Dev) t => reconfigured d t.isl) d
    let w := BitVec.ofNat 32 (reason + prin % 16 * 16 + st.code * 256 + 2 ^ 31)
    let d := (setPhase (d.setReg 0x142 R.CFG_ABORT w) 3).setReg64 0x142 R.CFG_ABORT_OFF (BitVec.ofNat 64 off)
    let d := d.orReg 0x142 R.CFG_EVENTS (bit 1)
    let d := d.eventP 0x142 0 1 18 1 prin (d.reg 0x142 R.CFG_EVENTS) (BitVec.ofNat 32 off) (BitVec.ofNat 32 (off / 2 ^ 32)) w
    let d := match l.origin with
      | some o => d.finish o st (BitVec.ofNat 64 (16 * l.pos % 2 ^ 32 * 2 ^ 32 + off % 2 ^ 32))
      | none => d
    if l.boot then bootNext (d.emit (.pin 2 false)) else d

/-- A load in progress is stopped from outside: reason 11, at the word it has reached. -/
def loadStop (d : Dev) : Dev :=
  match d.load with
  | some l => loadAbort d 11 l.pos (match l.boxes with | b :: _ => b.prin | [] => 0)
  | none => d

/-! ### Taking islands (R506) -/

/-- A section of an island: the island is taken with the load's first section for it. The reason where it may not be. -/
def takeIsland (d : Dev) (l : LoadSt) (i prin off typ : Nat) (body : List W128) : Except Nat (Dev × LoadSt) :=
  if !entitled d prin i then .error 6
  else if l.taken.any (fun t => t.isl = i) then
    .ok (d, { l with taken := l.taken.map (fun t => if t.isl = i then { t with secs := t.secs ++ [(typ, body)] } else t) })
  else
    let x := d.isl i
    let idle := decide (x.state = .idle)
    if x.prBusy || x.zeroising || !(idle || (l.partialLoad && x.state = .feathered && !x.drainActive)) then .error 7
    else if !idle && d.owner i ≠ prin then .error 6
    else
      let d := if idle then d.setFld i R.ISL_OWNER 0 4 prin else d
      .ok (d.updIsl i (fun x => { x with prBusy := true, touched := true }),
        { l with taken := l.taken ++ [⟨i, idle, prin, off, [(typ, body)]⟩] })

/-! ### Content of the sections (R493 to R505) -/

/-- The hashes of a manifest body. -/
def manifestHashes (b : List W128) : List (BitVec 384) :=
  (List.range (wf (bodyWord b 0) 16 16)).map (fun k => BitVec.ofNat 384 (wordsNum ((b.drop (10 + 3 * k)).take 3)))

def words384 (l : List W128) : BitVec 384 := Config.sha384 (wordsNum l) (16 * l.length)

/-- MANIFEST: the reason it fails; `sigOk` is the outcome of the ECDSA check. DEDUCED: log entry 67. -/
def manifestBad (d : Dev) (prin : Nat) (anchor : List W128) (b : List W128) (len : Nat) (sigOk : Bool) : Option Nat :=
  let keyOk := match keyHashOf d prin with
    | some h => decide (words384 ((b.drop 4).take 6) = h)
    | none => prin = 0
  if wf (bodyWord b 0) 0 4 ≠ prin then some 6
  else if len ≠ 16 + 3 * wf (bodyWord b 0) 16 16 then some 3
  else if !keyOk || !sigOk || BitVec.ofNat 384 (wordsNum ((b.drop 1).take 3)) ≠ words384 anchor then some 5
  else none

/-- Words of preload a set-up body carries. -/
def preloadWords (b : List W128) : Nat := ((preloads b).map (fun e => e.2.length)).sum
def preloadDue (b : List W128) : Nat :=
  (List.range 32).foldl (fun a p => let c := cfgOf (portWords b 43 p).1 (portWords b 43 p).2
    if c.en && !c.free && c.path ≠ 6 then a + c.count * c.lat else a) 0

/-- The islands of a START mask. -/
def startMask (b : List W128) : BitVec 256 := bodyWord b 1 ++ bodyWord b 0
def maskIslands (m : BitVec 256) : List Nat := (List.range 256).filter (fun i => m.getLsbD i)

/-- Entry k of a channel map body: fields by bit. -/
def mapEntries (b : List W128) : List W128 := (b.drop 4).take (wf (bodyWord b 0) 12 10)

/-- A section that holds content, and its effect: the new load, or the reason it aborts. -/
def leaf (d : Dev) (l : LoadSt) (typ off len prin : Nat) (anchor body : List W128) (ok : Bool) : Except Nat (Dev × LoadSt) :=
  let w := bodyWord body 0
  match typ with
  | 1 =>
    if len ≠ 2 then .error 3
    else if wf w 0 16 ≠ 1 || wf w 24 8 ≠ stepLetter d || w.getLsbD 16 ≠ l.partialLoad then .error 9
    else .ok (d, { l with total := wf (bodyWord body 1) 0 64 })
  | 2 =>
    match manifestBad d prin anchor body len ok with
    | some r => .error r
    | none => match l.boxes with
      | b :: r => .ok (d, { l with boxes := { b with hashes := some (manifestHashes body) } :: r })
      | [] => .ok (d, { l with hashes := some (manifestHashes body) })
  | 5 =>
    let m := wf w 21 13
    if m = 0 || 4608 < wf w 8 13 + m || len ≠ 1 + 32 * m then .error 3
    else match takeIsland d l (wf w 0 8) prin off typ body with
      | .ok (d, l) => .ok (applyFrames d (wf w 0 8) body, l)
      | .error r => .error r
  | 6 =>
    let t := memTarget body
    let count := wf w 28 13
    let top := if t < 96 then 512 else 4096
    if 99 < t || top < wf w 16 12 + count || len ≠ 1 + count + (if t < 96 && w.getLsbD 41 then (count + 7) / 8 else 0) then .error 3
    else takeIsland d l (wf w 0 8) prin off typ body
  | 7 =>
    if len ≠ 75 + preloadDue body then .error 3
    else match takeIsland d l (wf w 0 8) prin off typ body with
      | .ok (d', l') =>
        if (l'.taken.any (fun t => t.isl = wf w 0 8 && 1 < (t.secs.filter (fun s => s.1 = 7)).length)) then .error 8 else .ok (d', l')
      | .error r => .error r
  | 8 =>
    if w.getLsbD 0 then
      if len ≠ 4 + wf w 12 10 then .error 3
      else if (mapEntries body).any (fun e => !entitled d prin (wf e 11 8)) then .error 6
      else .ok (d, { l with links := l.links ++ [(prin, off, body)] })
    else if prin ≠ 0 then .error 6
    else if len ≠ 136 then .error 3
    else if wf w 1 6 ≠ d.devId || wf w 7 8 ≠ bodyBits body 4 (264 * wf w 1 6) 8 then .error 8
    else .ok (d, { l with links := l.links ++ [(prin, off, body)] })
  | 9 =>
    if len ≠ 2 then .error 3
    else if (maskIslands (startMask body)).any (fun i => !entitled d prin i) then .error 6
    else .ok (d, { l with starts := l.starts ++ [(prin, off, startMask body)], startSeen := l.boxes.isEmpty })
  | _ =>
    if len ≠ 1 then .error 3
    else if wf w 32 96 ≠ 0 then .error 1
    else if l.total ≠ off + 2 then .error 10
    else if BitVec.ofNat 32 (wf w 0 32) ≠ ~~~ l.crc then .error 4
    else if l.hashes.any (fun h => !h.isEmpty) then .error 5
    else .ok (d, l)

/-! ### Links of a load (R432, R503) -/

/-- A LINK_SETUP takes effect: kind 0 the device's epoch, routes and crew epoch table; kind 1 a link's map entries, unmapped until its
next training. -/
def applyLink (d : Dev) (prin : Nat) (b : List W128) : Dev :=
  let w := bodyWord b 0
  if w.getLsbD 0 then
    let n := wf w 1 5
    let hash : BitVec 384 := BitVec.ofNat 384 (wordsNum ((b.drop 1).take 3))
    let d := { d with linkIds := tput d.linkIds 0 (n * 16 + prin) hash }
    (mapEntries b).foldl (fun (d : Dev) e =>
      let rx := wf e 0 1
      let c := wf e 1 10
      let o := (if rx = 0 then R.LNK_TX_MAP else R.LNK_RX_MAP) + 8 * c
      let v := wf e 11 8 + wf e 19 5 * 2 ^ 8 + wf e 24 5 * 2 ^ 13 + prin * 2 ^ 18 + wf e 35 3 * 2 ^ 22 + wf e 38 1 * 2 ^ 25
      let k := (n * 1024 + c) * 2 + rx
      let d := (d.setReg (lp n) o (BitVec.ofNat 32 v)).setReg (lp n) (o + 4) (BitVec.ofNat 32 (if rx = 0 then wf e 29 6 else 0))
      { d with linkChans := if d.linkChans.contains k then d.linkChans else d.linkChans ++ [k] }) d
  else
    let d := d.setReg 0x142 R.CRW_ID (BitVec.ofNat 32 (d.devId + 64 + wf w 7 8 * 256))
    (List.range 64).foldl (fun (d : Dev) v =>
      let r := bodyBits b 1 (6 * v) 6
      let d := d.setReg 0x142 (R.CRW_ROUTE + 4 * v) (BitVec.ofNat 32 (r % 32 + r / 32 * 2 ^ 31))
      let d := d.setReg 0x142 (R.CRW_DEV_EPOCH + 4 * v) (BitVec.ofNat 32 (bodyBits b 4 (264 * v) 8))
      (List.range 8).foldl (fun (d : Dev) j =>
        d.setReg 0x142 (R.CRW_LP_EPOCH + 32 * v + 4 * j) (BitVec.ofNat 32 (bodyBits b 4 (264 * v + 8 + 32 * j) 32))) d) d

/-- Two transmit entries of one link that share a source island and far XI port, or two receive entries an island and XO port (R432). -/
def linkFlaws (d : Dev) : List Flaw :=
  let key (k : Nat) : Nat × Nat :=
    let w := d.reg (lp (k / 2048)) ((if k % 2 = 0 then R.LNK_TX_MAP else R.LNK_RX_MAP) + 8 * (k / 2 % 1024))
    (mapIsl w, mapFar w)
  d.linkChans.flatMap (fun a => flawIf (d.linkChans.any (fun b => a ≠ b && a / 2048 = b / 2048 && a % 2 = b % 2 && key a = key b))
    (lp (a / 2048)) (a / 2 % 1024))

/-! ### The configuration cache (R512) -/

/-- Whether every channel of the cache granule is ACTIVE. -/
def cacheActive (d : Dev) : Bool :=
  match granPlace d.isets (d.fld 0x142 R.CFG_CACHE_CFG 0 10) with
  | some (m, _) => (maskChannels m).all (fun n => (d.dram n).state = 2)
  | none => false

/-- The entry of an island is written after a load, or a partial reconfiguration appended to it: an ENCRYPTED section under a fresh IV,
and the slot's header word. DEDUCED: log entry 73. -/
def cacheWrite (d : Dev) (i : Nat) (full : Bool) (secs : Sections) : Dev :=
  let l := if full then [] else tget d.cfgCache [] i
  if !d.flag 0x142 R.CFG_CACHE_CFG 31 then d
  else if !full && !(d.isl i).cacheValid then d
  else
  let (iv, d) := d.draw
  let s := cacheSection d (d.owner i) (BitVec.ofNat 96 iv) secs
  let at_ := entryUsed l
  if (at_ + s.length) * 16 ≤ 0x400000 && cacheActive d then
    let d := slotWrite d (slotBase d i + 16 * at_) s
    let d := slotWrite d (slotBase d i) [BitVec.ofNat 128 (packBits [(24, at_ + s.length), (4, d.owner i)])]
    { d with cfgCache := tput d.cfgCache [] i (l ++ [(at_, s.take 1)]) }.updIsl i (fun x => { x with cacheValid := true })
  else cacheLost ({ d with cfgCache := tput d.cfgCache [] i [] }.updIsl i (fun x => { x with cacheValid := false }))

/-- Every entry becomes invalid. -/
def cacheClear (d : Dev) : Dev :=
  let l := (d.islands.filter (fun e => e.2.cacheValid)).map (·.1)
  let d := l.foldl (fun (d : Dev) i => d.updIsl i (fun x => { x with cacheValid := false })) { d with cfgCache := [] }
  if l.isEmpty then d else cacheLost d

def cacheCfgWriter : Writer := fun d _ node off v =>
  if granMapped d (v % 1024) then (d, .badState) else (cacheClear (d.setReg node off (BitVec.ofNat 32 v &&& 0x800003FF)), .ok)

def execCacheCfgWrite (r : Req) (v : Word) (s : State) : Host.Outcome State Fault Refusal :=
  s.run (fun d => d.regCmd r 0x142 R.CFG_CACHE_CFG v cacheCfgWriter)

/-! ### The end of a load (R506, R509) -/

/-- The content of a taken island goes in. -/
def applyTaken (d : Dev) (t : Taken) : Dev :=
  if t.idle then finishFull (applyFull d t.isl t.secs) t.isl else applyPartial d t.isl t.secs

/-- A written island after every check has passed. -/
def commitTaken (full : Bool) (d : Dev) (t : Taken) : Dev :=
  let old := (d.isl t.isl).hash
  let h := hashSections (if full then none else some old) t.secs
  let d := d.updIsl t.isl (fun x => { x with hash := h, prBusy := false, touched := false, inits := if full then t.secs else x.inits ++ t.secs })
  let d := cacheWrite d t.isl t.idle t.secs
  if t.idle then (d.updIsl t.isl (fun x => { x with fEff := fTarget d t.isl })).goState t.isl .loaded else d

/-- The first check that fails once the trailer has been accepted: the flaw, the principal and the offset. DEDUCED: log entries 67 and 70. -/
def loadFlaw (old d : Dev) (l : LoadSt) : Option (Option Flaw × Nat × Nat) :=
  let taken := l.taken.map (·.isl)
  let pres := present d taken
  let given (p : Nat) : List (Nat × Nat) := (l.taken.filter (fun t => t.prin = p)).flatMap (fun t => settingsOf t.secs)
  let a := l.taken.findSome? (fun t => ((islandFlaws old d pres (named d taken) (given t.prin) t.isl t.idle t.secs).head?).map (fun f => (some f, t.prin, t.off)))
  let b := l.starts.findSome? (fun s => if (maskIslands s.2.2).any (fun i => !l.taken.any (fun t => t.isl = i && t.idle)) then
    some ((none : Option Flaw), s.1, s.2.1) else none)
  let c := l.links.findSome? (fun s => (if s.2.2.any (fun w => w.getLsbD 0) then (linkFlaws d).head? else none).map (fun f => (some f, s.1, s.2.1)))
  a.or (b.or c)

/-- The trailer has been accepted: the checks, and LOADED, RUNNING and completion; or an abort with reason 8. -/
def loadFinish (d : Dev) (l : LoadSt) : Dev :=
  let d1 := l.taken.foldl applyTaken { d with load := none }
  let d1 := l.links.foldl (fun (d : Dev) s => applyLink d s.1 s.2.2) d1
  match loadFlaw d d1 l with
  | some (f, prin, off) =>
    let d := loadAbort { d with load := some l } 8 off prin
    match f with
    | some (node, item) => d.eventP node 0 1 18 1 prin (d.reg 0x142 R.CFG_EVENTS) (BitVec.ofNat 32 off) 0 (BitVec.ofNat 32 item)
    | none => d
  | none =>
    let d := l.taken.foldl (commitTaken (!l.partialLoad)) d1
    let d := (l.taken.filter (fun t => !t.idle)).foldl (fun (d : Dev) t => reconfigured d t.isl) d
    let d := l.starts.foldl (fun (d : Dev) s => (maskIslands s.2.2).foldl (fun (d : Dev) i =>
      if (d.isl i).state = .loaded then startTogether d i else d) d) d
    let d := cfgEvent (setPhase d 0) 0
    let d := match l.origin with
      | some o => d.finish o .ok (BitVec.ofNat 64 (16 * l.pos % 2 ^ 32 * 2 ^ 32))
      | none => d
    if l.boot then bootOver (d.setFld 0x142 R.CFG_STATUS 9 1 1) else d

/-! ### Structure (R490 to R497) -/

def boxPrin (l : LoadSt) : Nat := match l.boxes with | b :: _ => b.prin | [] => 0

/-- Whether a section of a type may stand here (R491). -/
def placed (l : LoadSt) (typ : Nat) (isLast : Bool) : Bool :=
  let top := l.boxes.isEmpty
  let parent := match l.boxes with | b :: _ => b.typ | [] => 0
  let fresh := match l.boxes with | b :: _ => b.fresh | [] => false
  if l.pos = 0 then typ = 1
  else if top && l.startSeen then typ = 10
  else if typ = 2 then (top && l.pos = 3) || (parent = 3 && fresh)
  else if typ = 3 then top || (parent = 4 && l.boxes.length = 1)
  else if typ = 4 then top || parent = 3
  else if 5 ≤ typ && typ ≤ 8 then top || parent = 4
  else if typ = 9 then top || (parent = 3 && isLast)
  else typ = 10 && top

/-- Structure, place and issuer of a section: the reason it aborts. `prin` is the container's tenant for a container.
DEDUCED: log entry 65. -/
def headBad (d : Dev) (l : LoadSt) (typ : Nat) (hdr : W128) (body : List W128) (skip : Bool) : Option Nat :=
  let len := wf hdr 32 32
  let depth := l.boxes.length + 1
  let stop := match l.boxes with | b :: _ => some b.stop | [] => none
  let fin := l.pos + 1 + len
  let whole := if typ = 3 && !skip then min 1 len else len
  let isLast := match stop with | some e => decide (fin = e) | none => typ = 10
  let tenant := wf (bodyWord body 0) 0 4
  let covered := match l.boxes with | b :: _ => b.typ ≠ 3 || typ = 2 || b.hashes.isSome | [] => typ ≤ 3 || typ = 10 || l.hashes.isSome
  let bad : List (Bool × Nat) :=
    [(body.length < whole || (match l.limit with | some n => decide (n < l.pos + 1 + whole) | none => false), 10),
     (wf hdr 16 3 ≠ depth || 4 < depth, 2),
     (wf hdr 0 8 ≠ typ || wf hdr 9 7 ≠ 0 || wf hdr 19 13 ≠ 0 || !placed l typ isLast, 1),
     ((match stop with | some e => decide (e < fin) | none => false) || hdr.getLsbD 8 ≠ isLast || (typ = 4 && len < 2) || (typ = 3 && len < 1), 3),
     (depth = 1 && (match l.vf with | some t => !(typ = 1 || typ = 10 || (typ = 3 && tenant = t)) | none => false), 6),
     (!skip && !covered, 5),
     (!skip && typ = 3 && wf (bodyWord body 0) 4 124 ≠ 0, 1),
     (!skip && typ = 3 && (tenant = 0 || (entryOf d tenant).isNone || !rootHeld d tenant), 6),
     (!skip && typ = 4 && wf (bodyWord body 0) 96 32 ≠ 0, 1),
     (!skip && typ = 4 && boxPrin l = 0 && !rootHeld d 0, 6)]
  (bad.find? (fun e => e.1)).map (·.2)

/-- Words as transmitted enter the CRC, and the level 1 container that is open (R493, R505). -/
def transmit (l : LoadSt) (typ : Nat) (ws : List W128) : LoadSt :=
  if l.boxes.any (fun b => b.typ = 4) then l
  else { l with crc := if typ = 10 then l.crc else crc32cUpd l.crc (ws.flatMap unitBytes),
                outer := if l.boxes.isEmpty then (if typ = 3 then ws else []) else l.outer ++ ws }

/-- The next hash of a list is compared with a section's: the rest, or none where it differs or is surplus. DEDUCED: log entry 66. -/
def takeHash (hs : Option (List (BitVec 384))) (ws : List W128) : Option (Option (List (BitVec 384))) :=
  match hs with
  | none => some none
  | some [] => none
  | some (h :: r) => if words384 ws = h then some (some r) else none

/-- A manifest that covers a section ticks it off: none where its hash fails. -/
def coverBy (l : LoadSt) (typ : Nat) (ws : List W128) : Option LoadSt :=
  match l.boxes with
  | [] => if typ = 1 || typ = 2 || typ = 10 then some l else (takeHash l.hashes ws).map (fun h => { l with hashes := h })
  | b :: r => if b.typ ≠ 3 || typ = 2 then some l else (takeHash b.hashes ws).map (fun h => { l with boxes := { b with hashes := h } :: r })

/-- Boxes whose children have ended close, innermost first; the reason and offset where one fails. DEDUCED: log entry 66. -/
def closeBoxes (l : LoadSt) : Nat → LoadSt × Option (Nat × Nat × Nat)
  | 0 => (l, none)
  | n + 1 =>
    match l.boxes with
    | [] => (l, none)
    | b :: r =>
      if l.pos ≠ b.stop then (l, none)
      else if b.typ = 4 then
        if b.tagOk then closeBoxes { l with boxes := r, pos := l.pos + 1 } n else (l, some (5, b.off, b.prin))
      else if b.hashes ≠ some [] then (l, some (5, b.off, b.prin))
      else
        let l' := { l with boxes := r }
        match if r.isEmpty then coverBy l' 3 l.outer else some l' with
        | some l'' => closeBoxes l'' n
        | none => (l, some (5, b.off, b.prin))

/-- The load goes on at a word: boxes close, words are counted; a stream that ends there, before its trailer, is truncated (R498, R507).
DEDUCED: log entry 66. -/
def loadNext (d : Dev) (l : LoadSt) (words : LoadSt → Nat) : Dev :=
  let (l, bad) := closeBoxes l (l.boxes.length + 1)
  let d := { d with load := some l }.setReg64 0x142 R.CFG_WORDS (BitVec.ofNat 64 (words l))
  match bad with
  | some (r, off, prin) => loadAbort d r off prin
  | none => if l.limit.any (fun n => n ≤ l.pos) then loadAbort d 10 l.pos (boxPrin l) else d

/-- The load goes on after a section. DEDUCED: log entry 66. -/
def sectionDone (d : Dev) (l : LoadSt) (fin : Nat) : Dev :=
  loadNext d { l with pos := fin, boxes := match l.boxes with | b :: r => { b with fresh := false } :: r | [] => [] } (·.pos)

/-- The frames of a FRAME_WRITE leave as FRWR, in the name of the section's principal (R39, R351). DESIGN CHOICE: log entry 143. -/
def framesSent (d : Dev) (prin : Nat) (b : List W128) : Dev :=
  (List.range (wf (bodyWord b 0) 21 13)).foldl (fun (d : Dev) k =>
    d.asked 0x142 (wf (bodyWord b 0) 0 8) 0x20 1 prin (regAddr d (wf (bodyWord b 0) 0 8) 0) ((b.drop (1 + 32 * k)).take 32)) d

/-- One section of the stream: `typ` the row's type, `ok` the outcome of the signature check of a manifest or of the tag check of an
encrypted section. With no load in progress nothing receives it. DEDUCED: log entry 65. -/
def sectionIn (d : Dev) (typ : Nat) (hdr : W128) (body : List W128) (ok : Bool) : Dev :=
  match d.load with
  | none => d
  | some l =>
    let len := wf hdr 32 32
    let off := l.pos
    let fin := off + 1 + len
    let prin := boxPrin l
    let skip := !hdr.getLsbD (64 + d.devId)
    match headBad d l typ hdr body skip with
    | some r => loadAbort d r off prin
    | none =>
      let body := body.take (if typ = 3 && !skip then 1 else len)
      let ws := hdr :: body
      let sent := transmit l typ ws
      if skip then
        match coverBy sent typ ws with
        | some l => if typ = 10 then loadFinish { d with load := some l } l else sectionDone d l fin
        | none => loadAbort { d with load := some sent } 5 off prin
      else if typ = 3 then
        let b : Box := { typ := 3, off := off, stop := fin, prin := wf (bodyWord body 0) 0 4, head := ws }
        loadNext d { sent with boxes := b :: sent.boxes, pos := off + 2 } (·.pos)
      else if typ = 4 then
        -- hash and tag are compared as the last word arrives, after the children
        let (l, hashOk) := match coverBy sent typ ws with
          | some l => (l, true)
          | none => (sent, false)
        let l := { l with boxes := match l.boxes with | b :: r => { b with fresh := false } :: r | [] => [] }
        let b : Box := { typ := 4, off := off, stop := off + len, prin := prin, tagOk := ok && hashOk, head := [] }
        loadNext d { l with boxes := b :: l.boxes, pos := off + 2 } (fun _ => fin)
      else
        let anchor := match l.boxes with | b :: _ => b.head | [] => l.hdr
        match leaf d sent typ off len prin anchor body ok with
        | .error r =>
          -- LINK_SETUP naming another device ID than the straps is recorded too (R440)
          let d := if typ = 8 && r = 8 && wf (bodyWord body 0) 1 6 ≠ d.devId then crwEvent d 0 else d
          loadAbort { d with load := some sent } r off prin
        | .ok (d', l') =>
          match coverBy l' typ ws with
          | none => loadAbort { d' with load := some l' } 5 off prin
          | some l' =>
            let d' := if typ = 5 then framesSent d' prin body else d'
            let l' := if typ = 1 then { l' with hdr := ws } else l'
            if typ = 10 then loadFinish (d'.setReg64 0x142 R.CFG_WORDS (BitVec.ofNat 64 fin)) { l' with pos := fin }
            else sectionDone d' l' fin

def execStreamHeader (hdr : W128) (body : List W128) (s : State) : Host.Outcome State Fault Refusal :=
  s.run (fun d => sectionIn d 1 hdr body true)
def execManifest (hdr : W128) (body : List W128) (sigOk : Bool) (s : State) : Host.Outcome State Fault Refusal :=
  s.run (fun d => sectionIn d 2 hdr body sigOk)
def execTenantContainer (hdr : W128) (body : List W128) (s : State) : Host.Outcome State Fault Refusal :=
  s.run (fun d => sectionIn d 3 hdr body true)
def execEncrypted (hdr : W128) (body : List W128) (tagOk : Bool) (s : State) : Host.Outcome State Fault Refusal :=
  s.run (fun d => sectionIn d 4 hdr body tagOk)
def execFrameWrite (hdr : W128) (body : List W128) (s : State) : Host.Outcome State Fault Refusal :=
  s.run (fun d => sectionIn d 5 hdr body true)
def execMemoryInit (hdr : W128) (body : List W128) (s : State) : Host.Outcome State Fault Refusal :=
  s.run (fun d => sectionIn d 6 hdr body true)
def execIslandSetup (hdr : W128) (body : List W128) (s : State) : Host.Outcome State Fault Refusal :=
  s.run (fun d => sectionIn d 7 hdr body true)
def execLinkSetup (hdr : W128) (body : List W128) (s : State) : Host.Outcome State Fault Refusal :=
  s.run (fun d => sectionIn d 8 hdr body true)
def execStart (hdr : W128) (body : List W128) (s : State) : Host.Outcome State Fault Refusal :=
  s.run (fun d => sectionIn d 9 hdr body true)
def execCrcTrailer (hdr : W128) (body : List W128) (s : State) : Host.Outcome State Fault Refusal :=
  s.run (fun d => sectionIn d 10 hdr body true)

/-- One stream word of a source that delivers them singly: kept until its section is whole. Words after the header of an open encrypted
section wait until its children have come. -/
def streamWord (d : Dev) (w : W128) (ok : Bool) : Dev :=
  match d.load with
  | none => d
  | some l =>
    let l := { l with words := l.words ++ [w] }
    let d := { d with load := some l }
    if (match l.boxes with | b :: _ => decide (b.typ = 4) | [] => false) then d
    else
      let hdr := l.words.getD 0 0
      let typ := wf hdr 0 8
      let skip := !hdr.getLsbD (64 + d.devId)
      let need := if typ = 0 || 10 < typ then 1 else if typ = 3 && !skip then 2 else 1 + wf hdr 32 32
      if l.words.length < need then d
      else sectionIn { d with load := some { l with words := l.words.drop need } } typ hdr ((l.words.take need).drop 1) ok

/-! ### CFG_CTL (R523) -/

/-- [0] abort the load in progress, [1] run the boot load again; `e0` and `e1` as bootStart takes them. -/
def cfgCtl (e0 e1 : BitVec 512) : Writer := fun d _ _ _ v =>
  if v % 4 = 3 then (d, .badState)
  else if v % 4 = 1 then (loadStop d, .ok)
  else if v % 4 = 2 then (if loadRefused d then (d, .badState) else (bootStart { d with awaitHost := false } e0 e1, .ok))
  else (d, .ok)
def cfgCtlWriter : Writer := cfgCtl (BitVec.allOnes 512) (BitVec.allOnes 512)

def execCfgAbortCmd (r : Req) (s : State) : Host.Outcome State Fault Refusal :=
  s.run (fun d => d.regCmd r 0x142 R.CFG_CTL 1 cfgCtlWriter)
def execBootRerun (r : Req) (e0 e1 : BitVec 512) (s : State) : Host.Outcome State Fault Refusal :=
  s.run (fun d => d.regCmd r 0x142 R.CFG_CTL 2 (cfgCtl e0 e1))

/-! ### Boot flash (R516) -/

/-- CFG_FLASH_CMD: a command starts with go; refused while one runs or a load reads the flash. DESIGN CHOICE: log entry 72. -/
def flashCmdWriter : Writer := fun d _ node off v =>
  let w : Word := (d.reg node off &&& 0xF200) ||| BitVec.ofNat 32 (v % 16 + v / 65536 % 256 * 65536)
  if v / 256 % 2 = 0 then (d.setReg node off w, .ok)
  else if d.flashCmd.isSome || (match d.load with | some l => decide (l.source = 1) | none => false) || v % 16 = 0 || 5 < v % 16 then (d, .badState)
  else
    let a := (d.reg node R.CFG_FLASH_ADDR).toNat
    ({ (d.setReg node off (w &&& ~~~0xF200#32)) with flashCmd := some (v % 16, a, v / 65536 % 256 + 1) }, .ok)

def flashGo (d : Dev) (r : Req) (op : Nat) (n : Byte) : Dev :=
  d.regCmd r 0x142 R.CFG_FLASH_CMD (BitVec.ofNat 32 (op + 256 + n.toNat * 65536)) flashCmdWriter

def execFlashRead (r : Req) (n : Byte) (s : State) : Host.Outcome State Fault Refusal := s.run (fun d => flashGo d r 1 n)
def execFlashProgram (r : Req) (n : Byte) (s : State) : Host.Outcome State Fault Refusal := s.run (fun d => flashGo d r 2 n)
def execErase4k (r : Req) (s : State) : Host.Outcome State Fault Refusal := s.run (fun d => flashGo d r 3 0)
def execErase64k (r : Req) (s : State) : Host.Outcome State Fault Refusal := s.run (fun d => flashGo d r 4 0)
def execReadId (r : Req) (s : State) : Host.Outcome State Fault Refusal := s.run (fun d => flashGo d r 5 0)

/-- Byte k of CFG_FLASH_BUF. -/
def flashByte (d : Dev) (k : Nat) : Byte := BitVec.ofNat 8 (d.fld 0x142 (R.CFG_FLASH_BUF + k / 4 * 4) (8 * (k % 4)) 8)

/-- A flash command completes: `err` a device error, `data` what the flash read back (the target's bytes before a PROGRAM).
DESIGN CHOICE: log entry 72. -/
def flashDone (d : Dev) (err : Bool) (data : List Byte) : Dev :=
  match d.flashCmd with
  | none => d
  | some (op, a, n) =>
    let fin (d : Dev) (st : Status) : Dev :=
      let d := (({ d with flashCmd := none }).setFld 0x142 R.CFG_FLASH_CMD 9 1 1).setFld 0x142 R.CFG_FLASH_CMD 12 4 st.code
      cfgEvent d (if st = .ok then 3 else 4)
    let buf := (List.range n).map (flashByte d)
    let cs := a / 2 ^ 31
    if err then fin d .aborted
    else if op = 1 then
      fin ((List.range n).foldl (fun (d : Dev) k =>
        d.setFld 0x142 (R.CFG_FLASH_BUF + k / 4 * 4) (8 * (k % 4)) 8 (data.getD k 0xFF).toNat) d) .ok
    else if op = 2 then
      if (List.range n).any (fun k => flashByte d k &&& ~~~(data.getD k 0xFF) ≠ 0) then fin d .notErased
      else fin (d.emit (.flashOp cs 2 (a % 2 ^ 31) buf)) .ok
    else if op = 5 then fin (d.setReg 0x142 R.CFG_FLASH_ID (BitVec.ofNat 32 (ofBytes (data.take 4)))) .ok
    else fin (d.emit (.flashOp cs op (a % 2 ^ 31) [])) .ok

def execFlashCmdDone (err : Bool) (data : List Byte) (s : State) : Host.Outcome State Fault Refusal := s.run (fun d => flashDone d err data)

/-! ### Scrubbing (R518 to R521) -/

/-- The check code of a plane: the XOR of the indices of its set bits, and their parity (R518). -/
def frameCode (f : Frame) : BitVec 13 :=
  (List.range 4096).foldl (fun (c : BitVec 13) k => if f.getLsbD k then c ^^^ (1#1 ++ BitVec.ofNat 12 k) else c) 0

def scrubNode (q : Nat) : Nat := 0x164 + q

/-- What the scrub unit found is recorded: SCB_LAST with its kind, while no earlier report is held (R524). DEDUCED: log entry 74. -/
def scrubLast (d : Dev) (q l f b plane kind : Nat) : Dev :=
  if d.flag (scrubNode q) R.SCB_LAST_INFO 31 then d
  else (d.setReg (scrubNode q) R.SCB_LAST (BitVec.ofNat 32 (l + f * 64 + b * 2 ^ 19 + plane * 2 ^ 31))).setReg (scrubNode q) R.SCB_LAST_INFO
    (BitVec.ofNat 32 (kind + 2 ^ 31))

def scrubEvent (d : Dev) (q b : Nat) : Dev :=
  d.sticky (scrubNode q) (if b = 0 then 3 else if b = 3 then 0 else 4) 19 b R.SCB_EVENTS

/-- Node repairs of a frame: counted per node for the device and the island. -/
def scrubRepair (d : Dev) (q l f n b plane : Nat) : Dev :=
  let d := (d.countFld (scrubNode q) R.SCB_REPAIRS 0 32 n).countFld (scrubNode q) (R.SCB_ISL + 4 * l) 0 16 n
  scrubEvent (scrubLast d q l f b plane 1) q 0

/-- The lowest set bit of a plane's difference. -/
def lowBit (x : Frame) : Nat := ((List.range 4096).find? (fun k => x.getLsbD k)).getD 0
def popFrame (x : Frame) : Nat := (List.range 4096).foldl (fun a k => if x.getLsbD k then a + 1 else a) 0
def pop13 (x : BitVec 13) : Nat := (List.range 13).foldl (fun a k => if x.getLsbD k then a + 1 else a) 0

/-- One frame: the first row of R519 that applies. DEDUCED: log entry 74. -/
def scrubFrame (d : Dev) (q l f : Nat) : Dev :=
  let i := islandAt q l
  let x := d.frame i f
  let a := x.bits ^^^ x.badA
  let b := x.bits ^^^ x.badB
  let good := frameCode x.bits
  let ra := good ^^^ x.refBadA
  let rb := good ^^^ x.refBadB
  let diff := a ^^^ b
  if diff = 0 && ra = rb && frameCode a = ra then d
  else if ra ≠ rb && diff = 0 && (frameCode a = ra || frameCode a = rb) then
    let bad := if ra = frameCode a then x.refBadB else x.refBadA
    scrubRepair (d.setFrame i f { x with refBadA := frameCode a ^^^ good, refBadB := frameCode a ^^^ good }) q l f (pop13 bad) 0 (if ra = frameCode a then 1 else 0)
  else if diff ≠ 0 && ra = rb && (frameCode a = ra) != (frameCode b = ra) then
    let keep := if frameCode a = ra then x.badA else x.badB
    scrubRepair (d.setFrame i f { x with badA := keep, badB := keep }) q l f (popFrame diff) (lowBit diff) (if frameCode a = ra then 1 else 0)
  else if diff = 0 && ra = rb && (frameCode a ^^^ ra).getLsbD 12 then
    let k := ((frameCode a ^^^ ra).extractLsb' 0 12).toNat
    let m : Frame := BitVec.ofNat 4096 (2 ^ k)
    let d := d.setFrame i f { x with badA := x.badA ^^^ m, badB := x.badB ^^^ m }
    let d := (d.countFld (scrubNode q) R.SCB_UPSETS 0 16 1).countFld (scrubNode q) (R.SCB_ISL + 4 * l) 16 16 1
    scrubEvent (scrubLast d q l f k 0 2) q 1
  else
    let d := d.countFld (scrubNode q) R.SCB_UPSETS 16 16 1
    let e := BitVec.ofNat 32 (l + f * 64 + 2 ^ 31)
    let held := (List.range 8).any (fun k => d.reg (scrubNode q) (R.SCB_UE + 4 * k) = e)
    let d := match if held then none else (List.range 8).find? (fun k => !d.flag (scrubNode q) (R.SCB_UE + 4 * k) 31) with
      | some k => d.setReg (scrubNode q) (R.SCB_UE + 4 * k) e
      | none => d
    scrubEvent (scrubLast d q l f 0 0 3) q 2

/-- Whether the scrub unit visits an island: not IDLE, SLEEP or EVICTING, nor pr_busy. -/
def scrubbed (d : Dev) (i : Nat) : Bool :=
  let x := d.isl i
  inIsland x.state && !x.prBusy

/-- One frame slot: the frame at the unit's position, skipping islands in zero time; the pass ends after the last island. -/
def scrubSlot (d : Dev) (q : Nat) : Dev :=
  if !d.flag (scrubNode q) R.SCB_CTL 0 || inStandby d then d
  else
    let l := d.fld (scrubNode q) R.SCB_STATUS 0 6
    let f := d.fld (scrubNode q) R.SCB_STATUS 6 13
    let at' (l f : Nat) (d : Dev) : Dev := d.setReg (scrubNode q) R.SCB_STATUS (BitVec.ofNat 32 (l + f * 64 + 2 ^ 24))
    let pass (d : Dev) : Dev := scrubEvent ((at' 0 0 d).setReg (scrubNode q) R.SCB_PASSES (d.reg (scrubNode q) R.SCB_PASSES + 1)) q 3
    match (List.range 64).find? (fun k => l ≤ k && scrubbed d (islandAt q k)) with
    | none => pass d
    | some k =>
      let f := if k = l then f else 0
      let i := islandAt q k
      let ask (cmd : Nat) (d : Dev) : Dev := d.asked (scrubNode q) i cmd 1 0 (regAddr d i 0) []
      let d' := scrubFrame (ask 0x21 d) q k f
      let d := if d'.frame i f ≠ d.frame i f then ask 0x22 d' else d'
      if f < 4607 then at' k (f + 1) d else if k < 63 then at' (k + 1) 0 d else pass d

def execScrubFrame (q : Fin 4) (s : State) : Host.Outcome State Fault Refusal := s.run (fun d => scrubSlot d q.val)

/-- SCB_PASS: 15,000 µs to 10,000,000 µs. -/
def scbPassWriter : Writer := fun d _ node off v =>
  if 15000 ≤ v % 2 ^ 24 && v % 2 ^ 24 ≤ 10000000 then (d.setReg node off (BitVec.ofNat 32 (v % 2 ^ 24)), .ok) else (d, .badState)

end Sys2Proof.Machine
end

