-- ==== Sys2Proof/Machine/Evict.lean ====
section
/-! DEFINITION. Epochs, eviction, zeroisation and the giving of resources (R49 to R64, R353, R382, R543). -/

namespace Sys2Proof.Machine

/-! ### Epochs (R353, R442) -/

def allNodes : List Nat := (List.range 0x168).filter (fun n => (nodeKind n).isSome)

/-- The epoch that replaces a unit's: the next one, skipping the value its own packets still carry. -/
def nextEpoch (d : Dev) (node : Nat) : Nat :=
  let e := (d.epochOf 0x141 node + 1) % 256
  if e = d.epoch node then (e + 1) % 256 else e

/-- Every node's epoch table takes a value for a source node. -/
def setEpochTab (d : Dev) (node e : Nat) : Dev :=
  allNodes.foldl (fun (d : Dev) n => d.putFld 0x141 0 n (R.NOC_EPOCH_TAB + node / 4 * 4) (8 * (node % 4)) 8 e) d

/-- Devices this one has a route to. -/
def reachable (d : Dev) : List Nat := (List.range 64).filter (fun v => v ≠ d.devId && d.flag 0x142 (R.CRW_ROUTE + 4 * v) 31)

/-- A device, a node and an epoch in the N of a message. -/
def epochArg (v node e : Nat) : W64 := BitVec.ofNat 64 (v + node * 2 ^ 8 + e * 2 ^ 24)

/-- The Cox replaces a unit's epoch: in every node's table, in the own device's row of the crew table for a link port, and crew-wide as
an EPOCH message. -/
def epochReplace (d : Dev) (node : Nat) : Dev :=
  let e := nextEpoch d node
  let d := setEpochTab d node e
  let d := if nodeKind node = some .link then
      d.putFld 0x141 0 0x142 (R.CRW_LP_EPOCH + 32 * d.devId + (node - 0x110) / 4 * 4) (8 * ((node - 0x110) % 4)) 8 e
    else d
  (reachable d).foldl (fun (d : Dev) v =>
    { d.emit (.crew v 10 { src := d.devId, n := epochArg d.devId node e }) with epochWait := d.epochWait ++ [(v, node, e)] }) d

/-- The unit takes its new epoch itself, once readmitted. -/
def epochTake (d : Dev) (node : Nat) : Dev := d.putFld 0x141 0 node R.NOC_EPOCH 0 8 (d.epochOf 0x141 node)

/-! ### Zeroisation of islands -/

/-- An island starts to erase its state. -/
def zeroStart (d : Dev) (i : Nat) : Dev := d.updIsl i (fun x => { x with zeroising := true })

/-- The Cox's ZERO command to an island (R333, R351). -/
def zeroAsk (d : Dev) (i : Nat) : Dev := (zeroStart d i).asked 0x141 i 0x28 0 0 (regAddr d i 0) []

/-! ### Eviction (R61, R64) -/

/-- The set bits of a mask. -/
def bitsIn {w : Nat} (m : BitVec w) : List Nat := (List.range w).filter (fun k => m.getLsbD k)

/-- Whether a resource of a list is still being evicted, erased or given (R61). -/
def wiping (d : Dev) (islands grans : List Nat) : Bool :=
  d.wipes.any (fun w => w.islands.any (islands.contains ·) || w.grans.any (grans.contains ·))

/-- Whether something is in progress for a tenant (R542). -/
def tenantBusy (d : Dev) (t : Nat) : Bool := d.wipes.any (fun w => w.tenant = t && w.kind ≠ .all)

/-- Sessions and grants of a principal end (step 2, R548). DEDUCED: log entry 75. -/
def grantsEnd (d : Dev) (t : Nat) : Dev := grantsDrop d (fun g => g.2.prin = t)

/-- An island is marked EVICTING from any state but IDLE (R196). -/
def markEvicting (d : Dev) (i : Nat) : Dev :=
  if (d.isl i).state = .idle then d else padsClear d (padsFollow d (lanesLeave (d.goState i .evicting) i) i) i

/-- Catches, restores, region commands and a load that use an island stop, ABORTED (steps 1 and 3), but for those catches that `late`
names. -/
def stopUses (d : Dev) (l : List Nat) (late : CatchCmd → Bool := fun _ => false) : Dev :=
  let d := l.foldl regionEvicted d
  let d := (d.catches.filter (fun c => c.islands.any (l.contains ·) && !late c)).foldl (fun (d : Dev) c =>
    if c.restore then restoreFail d c .aborted else catchStop d c .aborted) d
  match d.load with
  | some x => if x.taken.any (fun t => l.contains t.isl) then
      loadStop (l.foldl markEvicting d) else d
  | none => d

/-- A state access queued at an island that is evicted is discarded, ABORTED (R577). DEDUCED: log entry 121. -/
def accessAbort (d : Dev) (i : Nat) : Dev :=
  let d := (d.stateWait.filter (fun e => e.1 = i)).foldl (fun (d : Dev) e => match e.2 with
    | .cmd r off _ => d.answer r i off .aborted 0
    | .pkt p => d.respond i p .aborted []) { d with stateWait := d.stateWait.filter (fun e => e.1 ≠ i) }
  let d := wakeAnswer d i .aborted
  if (d.isl i).stateAccess = 0 then d
  else ((d.updIsl i (fun x => { x with stateAccess := 0 })).setFld i R.DBG_ACC_STATUS 4 1 0).setFld i R.DBG_ACC_STATUS 0 4 Status.aborted.code

/-- An island of an eviction has feathered: it is inside no stroke, or in one that its closed paths keep at step 4 for good (R222), or its
clock stands. DEDUCED: log entry 75. -/
def evictFeathered (d : Dev) (i : Nat) : Bool := !midStroke d i || !islClocked d i || ((d.isl i).phase = 3 && !(xoBlocked d i).isEmpty)

/-- Steps 3 and 4 of every eviction whose islands have feathered: drains in progress stop, and what has not left the islands never
will. DEDUCED: log entry 75. -/
def wipesStop (d : Dev) : Dev :=
  let go (d : Dev) (w : Wipe) : Dev :=
    if w.stopped || w.quiet || !w.islands.all (evictFeathered d) then d
    else
      let d := w.islands.foldl (fun (d : Dev) i => dropInject d i (fun _ => true)) (stopUses d w.islands)
      { d with wipes := d.wipes.map (fun x => if x = w then { w with stopped := true } else x) }
  d.wipes.foldl go d

/-- Steps 1 to 4: the islands are marked and what used them stops; a drain of an island inside a stroke goes on to the stroke's end.
DEDUCED: log entry 75. -/
def wipeBegin (d : Dev) (w : Wipe) : Dev :=
  let late (c : CatchCmd) : Bool := c.copied && !c.restore && w.islands.any (midStroke d)
  let d := stopUses (grantsEnd d w.tenant) w.islands late
  let d := w.islands.foldl (fun (d : Dev) i => accessAbort (markEvicting d i) i) d
  wipesStop { d with wipes := d.wipes ++ [w] }

/-- The command to evict all a tenant holds on this device: refused, or begun. DEDUCED: log entry 75. -/
def evictStart (d : Dev) (issuer t : Nat) (o : Origin) : Dev × Option Status :=
  if issuer ≠ 0 && issuer ≠ t then (d, some .denied)
  else match entryOf d t with
    | none => (d, some .badState)
    | some e =>
      if !coxReady d || tenantBusy d t then (d, some .badState)
      else (wipeBegin d { kind := .evict true, tenant := t, islands := bitsIn e.islands, grans := bitsIn e.granules, vfs := (bitsIn e.vfs).map (· + 1),
                          blocks := bitsIn e.blocks, zeroing := [], filling := [], origin := some o }, none)

/-- The tenant's stroke channels on every link are unmapped (step 8), those of some islands or all. -/
def unmapChannels (d : Dev) (t : Nat) (only : Option (List Nat)) : Dev :=
  d.linkChans.foldl (fun (d : Dev) k =>
    let node := lp (k / 2048)
    let o := (if k % 2 = 0 then R.LNK_TX_MAP else R.LNK_RX_MAP) + 8 * (k / 2 % 1024)
    let v := d.reg node o
    if mapTenant v = t && (match only with | some l => l.contains (mapIsl v) | none => true) then d.setFld node o 31 1 0 else d) d

def setShare (d : Dev) (n t v : Nat) : Dev := d.putFld 0x141 0 (lp n) (R.LNK_SHARE + t / 4 * 4) (8 * (t % 4)) 8 v

/-- Steps 5 to 9 begin once nothing of the evicted islands is outstanding. -/
def wipeQuiet (d : Dev) (w : Wipe) : Dev :=
  let d := w.islands.foldl (fun (d : Dev) i => zeroAsk (epochReplace d i) i) d
  let d := w.blocks.foldl blockEvict (w.vfs.foldl fnEvict d)
  let d := match w.kind with
    | .evict true => (List.range 32).foldl (fun (d : Dev) n => setShare d n w.tenant 0) (unmapChannels d w.tenant none)
    | _ => unmapChannels d w.tenant (some w.islands)
  fillStart d w.grans

/-- A seal key and root key of a principal leave the device (R538). -/
def dropKeys (d : Dev) (p : Nat) : Dev :=
  sealKeyDrop { d with roots := tput d.roots none p none } p

/-- Step 10 of a whole eviction: keys, the entry and what it set. DEDUCED: log entry 76. -/
def tenantRemove (d : Dev) (t : Nat) : Dev :=
  let d := dropKeys { d with tenants := d.tenants.filter (fun e => e.1 ≠ t), battery := { d.battery with keys := tput d.battery.keys none t none } } t
  let d := allNodes.foldl (fun (d : Dev) n => d.putReg 0x141 0 n (R.NOC_BKT_CFG + 8 * t) (regReset n (R.NOC_BKT_CFG + 8 * t))) d
  let d := (List.range 8).foldl (fun (d : Dev) n => d.putReg 0x141 0 (dn n) (R.DDR_SLOT + 4 * t) 0) d
  -- the tenant's debug halt clears (R577)
  let d := { d with xtrgWait := d.xtrgWait.filter (· ≠ t) }.setReg 0x143 (dbgArea R.DBG_HALT_STATUS t) 0
  d.putReg 0x141 0 0x146 (R.PWR_TEN_CAP + 4 * t) 0

/-- Blocks given to no function any more: those that a test picks by block and function (R53, R460). -/
def freeBlocks (d : Dev) (p : Nat → Nat → Bool) : Dev := ((List.range 256).filter (fun b => p b (blockFn d b))).foldl freeBlock d

/-- The functions of an evicted tenant belong to the Owner again; their blocks are given to no function. -/
def freeVfs (d : Dev) (l : List Nat) : Dev :=
  l.foldl (fun (d : Dev) f => d.putReg 0x141 0 0x140 (R.HIF_VF_TENANT + 4 * (f - 1)) 0) (freeBlocks d (fun _ f => l.contains f))

/-- What an entry still holds without some of its resources. -/
def entryWithout (e : TenEntry) (islands grans vfs blocks : List Nat) : TenEntry :=
  { e with blocks := blocks.foldl (fun (m : BitVec 256) b => m &&& ~~~BitVec.ofNat 256 (2 ^ b)) e.blocks,
           islands := islands.foldl (fun (m : BitVec 256) i => m &&& ~~~BitVec.ofNat 256 (2 ^ i)) e.islands,
           granules := grans.foldl (fun (m : BitVec 1024) g => m &&& ~~~BitVec.ofNat 1024 (2 ^ g)) e.granules,
           vfs := vfs.foldl (fun (m : BitVec 16) f => m &&& ~~~BitVec.ofNat 16 (2 ^ (f - 1))) e.vfs }

/-- The resources a new entry adds to what the tenant holds. -/
def addedTo (d : Dev) (t : Nat) (e : TenEntry) : List Nat × List Nat :=
  match entryOf d t with
  | some old => (bitsIn (e.islands &&& ~~~old.islands), bitsIn (e.granules &&& ~~~old.granules))
  | none => (bitsIn e.islands, bitsIn e.granules)

/-- The tags, limits and tables that an entry sets. -/
def entryTables (d : Dev) (t : Nat) (e : TenEntry) : Dev :=
  let d := (bitsIn e.islands).foldl (fun (d : Dev) i => d.putFld 0x141 0 i R.ISL_OWNER 0 4 t) d
  let d := (bitsIn e.granules).foldl (fun (d : Dev) g => setGmap d g true) d
  let d := (bitsIn e.vfs).foldl (fun (d : Dev) v => d.putReg 0x141 0 0x140 (R.HIF_VF_TENANT + 4 * v) (BitVec.ofNat 32 (t + 2 ^ 31))) d
  let d := (List.range 32).foldl (fun (d : Dev) n => setShare d n t (bitsOf e.linkShare.toNat (8 * n) 8)) d
  let d := allNodes.foldl (fun (d : Dev) n => d.putReg 0x141 0 n (R.NOC_BKT_CFG + 8 * t) (e.nocDepth ++ e.nocRate)) d
  let d := (List.range 8).foldl (fun (d : Dev) n => d.putReg 0x141 0 (dn n) (R.DDR_SLOT + 4 * t) (BitVec.ofNat 32 (bitsOf e.dramSlots.toNat (8 * n) 8))) d
  d.putReg 0x141 0 0x146 (R.PWR_TEN_CAP + 4 * t) (e.powerCap.setWidth 32)

/-- Steps 3 to 5 of an entry: tags, limits and tables written, the entry stored (R543). A block that it gives the tenant leaves the function
it belonged to (R53). -/
def entryApply (d : Dev) (t : Nat) (e : TenEntry) : Dev :=
  let strange (b : Nat) : Bool := let f := blockFn d b; f ≤ 16 && (f = 0 || fnTenant d f ≠ t)
  let d := ((bitsIn e.blocks).filter strange).foldl (fun (d : Dev) b => freeBlock (blockEvict d b) b) d
  let d := entryTables d t e
  coxEvent { d with tenants := tput d.tenants {} t e, versions := tput d.versions 0 t e.version } 7

/-- A wipe that has ended leaves the list, and what follows it begins. DEDUCED: log entry 76. -/
def wipeEnd (d : Dev) (w : Wipe) : Dev :=
  let d := { d with wipes := d.wipes.filter (fun x => x ≠ w) }
  let fin (d : Dev) : Dev := match w.origin with | some o => d.finish o .ok 0 | none => d
  let give (d : Dev) (e : TenEntry) : Dev :=
    let (isl, gran) := addedTo d w.tenant e
    let d := fillStart (isl.foldl zeroAsk d) gran
    { d with wipes := d.wipes ++ [{ kind := .assign, tenant := w.tenant, islands := isl, grans := gran, zeroing := isl,
                                    filling := stillFilling d gran, quiet := true, origin := w.origin, next := some e }] }
  match w.kind with
  | .evict whole =>
    let d := freeVfs (w.grans.foldl (fun (d : Dev) g => setGmap d g false) d) w.vfs
    let d := freeBlocks d (fun b _ => w.blocks.contains b)
    let d := if whole then tenantRemove d w.tenant
      else match entryOf d w.tenant with
        | some e => { d with tenants := tput d.tenants {} w.tenant (entryWithout e w.islands w.grans w.vfs w.blocks) }
        | none => d
    (match w.next with
    | some e => give d e
    | none => fin (coxEvent d 6))
  | .assign => fin (match w.next with | some e => entryApply d w.tenant e | none => d)
  | .all => fin (coxEvent (w.grans.foldl (fun (d : Dev) g => setGmap d g false) d) 6)

def wipeOver (w : Wipe) : Bool := w.quiet && w.zeroing.isEmpty && w.filling.isEmpty

/-- Every wipe that has nothing left to erase ends; one that begins another with nothing to erase lets that end too. -/
def wipesAdvance (d : Dev) : Dev :=
  let once (d : Dev) : Dev := (d.wipes.filter wipeOver).foldl wipeEnd d
  once (once (once d))

/-- The Cox finds the evicted islands of a tenant with nothing outstanding: steps 5 to 9. DEDUCED: log entry 76. -/
def evictionQuiet (d : Dev) (t : Nat) : Dev :=
  let d := wipesStop d
  match d.wipes.find? (fun w => w.stopped && !w.quiet && w.tenant = t && w.islands.all (fun i => !unitsBusy d i)) with
  | none => d
  | some w =>
    let d := wipeQuiet d w
    wipesAdvance { d with wipes := d.wipes.map (fun x => if x = w then
      { w with quiet := true, zeroing := w.islands, filling := stillFilling d w.grans } else x) }

def execEvictionQuiet (t : Fin 16) (s : State) : Host.Outcome State Fault Refusal := s.run (fun d => evictionQuiet d t.val)

/-- An island's zeroisation completes: owner tag 0, IDLE, hash clear, its new epoch written. -/
def islandZeroised (d : Dev) (i : Nat) : Dev :=
  if !(d.isl i).zeroising then d
  else
    let d := epochTake (if (d.isl i).state = .idle then zeroiseIsland d i else zeroiseToIdle d i) i
    wipesAdvance { d with wipes := d.wipes.map (fun w => { w with zeroing := w.zeroing.filter (· ≠ i) }) }

def execIslandZeroised (i : Isl) (s : State) : Host.Outcome State Fault Refusal := s.run (fun d => islandZeroised d i.val)

/-- A channel's part of a granule is filled; with its last part the granule is unblocked. -/
def zeroFillDone (d : Dev) (n : Nat) : Dev :=
  match zfDone d n with
  | none => d
  | some (d, g) =>
    let d := { d with fills := d.fills.filter (· ≠ (n, g)) }
    let d := if (stillFilling d [g]).isEmpty then
        (granChannels d g).foldl (fun (d : Dev) c => zfMask d c g false) { d with unfilled := d.unfilled.filter (· ≠ g) }
      else d
    let d := zfPump { d with wipes := d.wipes.map (fun w => { w with filling := stillFilling d w.filling }) }
    wipesAdvance d

def execZfDone (n : DramIx) (s : State) : Host.Outcome State Fault Refusal := s.run (fun d => zeroFillDone d n.val)

end Sys2Proof.Machine
end

