-- ==== Sys2Proof/Machine/Crew.lean ====
section
/-! DEFINITION. Crew-wide commands (R441, R442, R445 to R447): at the device that issues one, its phases; at every device of its mask, what
each message does. Messages arrive as commands whose accessor is the node that forwarded them and whose tenant is the issuer. -/

namespace Sys2Proof.Machine

/-! ### At the issuer -/

def crewCmd (d : Dev) (t : Nat) : Option CrewCmd := tget d.crewCmds none t
def setCrewCmd (d : Dev) (t : Nat) (c : Option CrewCmd) : Dev := { d with crewCmds := tput d.crewCmds none t c }
def crewReg (base t : Nat) : Nat := base + 0x40 * t

/-- A bitmap of devices. -/
def devMap (l : List Nat) : W64 := l.foldl (fun (m : W64) v => m ||| BitVec.ofNat 64 (2 ^ (v % 64))) 0

/-- A message to every device still in a command. -/
def crewTell (d : Dev) (t : Nat) (c : CrewCmd) (kind : Nat) (m : CrewMsg) : Dev :=
  c.ents.foldl (fun (d : Dev) e => d.emit (.crew e.dev kind { m with
    src := d.devId, slot := t, id := c.id, op := c.op, mask := e.mask, base := e.base, limit := e.limit, stay := c.stay, replay := c.replay, devs := c.devs })) d

/-- The outcome stands in the slot: refused, OK where every bit is 1, else PARTIAL (R447). DEDUCED: log entry 81. -/
def crewEnd (d : Dev) (t : Nat) (c : CrewCmd) (refused : Option Status) : Dev :=
  let good := if refused.isSome then [] else c.good
  let st := match refused with
    | some st => st
    | none => if c.devs.all (good.contains ·) then .ok else match good, c.refusals with | [], s :: _ => s | _, _ => .partly
  let d := (setCrewCmd d t none).setReg64 0x142 (crewReg R.CRW_CMD_RESULT t) (devMap good)
  let d := d.setReg64 0x142 (crewReg R.CRW_CMD_N t) c.n
  let o := crewReg R.CRW_CMD_CTL t
  let d := (d.setFld 0x142 o 5 1 0).setFld 0x142 o 8 4 st.code
  match c.origin with
  | some w => d.finish w st ((devMap good).extractLsb' 0 32 ++ (devMap good).extractLsb' 32 32)
  | none => d

/-- A refused command: the devices that hold bounds for it let them go (R239). -/
def crewRefuse (d : Dev) (t : Nat) (c : CrewCmd) (st : Status) : Dev := crewEnd (crewTell d t c 7 { src := 0 }) t c (some st)

/-- N from the counts of the devices that answered (R238, R447). DEDUCED: log entry 80. -/
def crewDecide (c : CrewCmd) : Option W64 :=
  let m := c.counts.foldl (fun (a : W64) e => if a < e.2 then e.2 else a) 0
  if c.op = 3 then (if c.arg < m then none else some c.arg)
  else if c.op = 4 then (if c.counts.all (fun e => e.2 = m) then some (m + c.arg) else none)
  else some m

/-- The next phase, once every device still in the command has answered this one. -/
def crewNext (d : Dev) (t : Nat) : Dev :=
  match crewCmd d t with
  | none => d
  | some c =>
    let all (l : List Nat) : Bool := c.ents.all (fun e => l.contains e.dev)
    let go (d : Dev) (p : Nat) : Dev := setCrewCmd d t (some { c with phase := p, answered := [] })
    if c.ents.isEmpty then crewEnd d t c none
    else if c.phase = 1 && all c.answered then
      match crewDecide { c with counts := c.counts.filter (fun e => c.ents.any (fun x => x.dev = e.1)) } with
      | none => crewRefuse d t c .badState
      | some n => setCrewCmd (crewTell d t c 3 { src := 0, n := n }) t (some { c with phase := 2, answered := [], n := n })
    else if c.phase = 2 && all c.answered then
      (if c.op = 5 then go (crewTell d t c 5 { src := 0 }) 3 else crewEnd d t { c with good := c.ents.map (·.dev) } none)
    else if c.phase = 3 && all c.answered then go (crewTell d t c 7 { src := 0 }) 4
    else if c.phase = 5 && all c.answered then
      (if c.op = 8 then crewEnd d t { c with good := c.ents.map (·.dev) } none else go d 4)
    else if c.phase = 4 && all c.finished then crewEnd d t c none
    else d

/-- The phases advance; the last one may already have been answered. -/
def crewAdvance (d : Dev) (t : Nat) : Dev := crewNext (crewNext d t) t

/-- A command starts (R445): refused as its op, its issuer and its table say, or its first message goes out. `tab` is what the region
table holds for the devices of the mask. DESIGN CHOICE: log entry 79; DEDUCED: log entry 80. -/
def crewStart (d : Dev) (t op : Nat) (mask : W64) (tab : List CrewEnt) (arg : W64) (stay replay : Bool) (origin : Option Origin) : Dev :=
  let devs := bitsIn mask
  let ent (v : Nat) : CrewEnt := (tab.find? (fun e => e.dev = v)).getD { dev := v }
  let id := (d.crewId + 1) % 2 ^ 16
  let c : CrewCmd := { op := op, id := id, devs := devs, ents := devs.map ent, arg := arg, stay := stay, replay := replay, phase := 0, origin := origin }
  let d := { d with crewId := id }
  let begin (kind p : Nat) (n : W64) : Dev := crewAdvance (setCrewCmd ((crewTell d t c kind { src := 0, n := n }).setFld 0x142 (crewReg R.CRW_CMD_CTL t) 5 1 1) t
    (some { c with phase := p })) t
  if op = 0 || 8 < op then crewEnd d t c (some .badState)
  else if (op = 8 && t ≠ 0) || (op = 7 && t ≠ 0 && bitsOf arg.toNat 0 4 ≠ t) then crewEnd d t c (some .denied)
  else if op ≤ 5 && c.ents.any (fun e => e.mask = 0) then crewEnd d t c (some .badState)
  else if op = 2 then begin 1 4 arg
  else if op ≤ 5 then begin 1 1 arg
  else begin 9 5 arg

/-- The address of device v's entry in a slot's region table. DESIGN CHOICE: log entry 79. -/
def crewEntAt (d : Dev) (t v : Nat) : Nat := (d.reg64 0x142 (crewReg R.CRW_CMD_TABLE t)).toNat % 2 ^ 52 + 64 * v

/-- An entry of the table lies in memory of this device that the issuer may not read (R445, R57). DEDUCED: log entry 80. -/
def tableHidden (d : Dev) (t : Nat) : Bool :=
  (bitsIn (d.reg64 0x142 (crewReg R.CRW_CMD_DEVS t))).any (fun v =>
    let a := crewEntAt d t v
    deviceOf a = d.devId && inDram a && granOwner d (localAddr a / 2 ^ 30) ≠ t)

/-- A command whose table is hidden from its issuer ends DENIED. -/
def crewHidden (d : Dev) (t op : Nat) (origin : Option Origin) : Dev :=
  let c : CrewCmd := { op := op, id := d.crewId, devs := [], ents := [], arg := 0, stay := false, replay := false, phase := 0, origin := origin }
  crewEnd d t c (some .denied)

/-- CRW_CMD_CTL: op and flags stored; with go, the command starts, or BAD_STATE while one is busy. -/
def crewCtlWriter (tab : List CrewEnt) : Writer := fun d r node off v =>
  let t := (off - R.CRW_CMD_CTL) / 0x40
  if !v.testBit 4 then storeWriter d r node off v
  else if d.flag node off 5 then (d, .badState)
  else if 1 ≤ bitsOf v 0 4 && bitsOf v 0 4 ≤ 7 && tableHidden d t then
    (crewHidden (storeWriter d r node off v).1 t (bitsOf v 0 4) none, .ok)
  else
    let d := (storeWriter d r node off v).1
    (crewStart d t (bitsOf v 0 4) (d.reg64 node (crewReg R.CRW_CMD_DEVS t)) tab (d.reg64 node (crewReg R.CRW_CMD_ARG t)) (v.testBit 12) (v.testBit 13)
      none, .ok)

def crewGo (r : Req) (t op flags : Nat) (tab : List CrewEnt) (s : State) : Host.Outcome State Fault Refusal :=
  s.run (fun d => d.regCmd r 0x142 (crewReg R.CRW_CMD_CTL t) (BitVec.ofNat 32 (op + 16 + flags)) (crewCtlWriter tab))

def execCrwFeather (r : Req) (t : Fin 16) (tab : List CrewEnt) (s : State) : Host.Outcome State Fault Refusal := crewGo r t.val 1 0 tab s
def execCrwResume (r : Req) (t : Fin 16) (tab : List CrewEnt) (s : State) : Host.Outcome State Fault Refusal := crewGo r t.val 2 0 tab s
def execCrwLimit (r : Req) (t : Fin 16) (tab : List CrewEnt) (s : State) : Host.Outcome State Fault Refusal := crewGo r t.val 3 0 tab s
def execCrwStep (r : Req) (t : Fin 16) (tab : List CrewEnt) (s : State) : Host.Outcome State Fault Refusal := crewGo r t.val 4 0 tab s
def execCrwCatch (r : Req) (t : Fin 16) (tab : List CrewEnt) (stay : Bool) (s : State) : Host.Outcome State Fault Refusal :=
  crewGo r t.val 5 (if stay then 4096 else 0) tab s
def execCrwRestore (r : Req) (t : Fin 16) (tab : List CrewEnt) (replay : Bool) (s : State) : Host.Outcome State Fault Refusal :=
  crewGo r t.val 6 (if replay then 8192 else 0) tab s
def execCrwEvict (r : Req) (t : Fin 16) (tab : List CrewEnt) (s : State) : Host.Outcome State Fault Refusal := crewGo r t.val 7 0 tab s
def execCrwSetEpoch (r : Req) (t : Fin 16) (s : State) : Host.Outcome State Fault Refusal := crewGo r t.val 8 0 [] s

/-! ### Messages (R446) -/

/-- A message is accepted only from the local configuration controller and from link ports. DESIGN CHOICE: log entries 10 and 78. -/
def crewMessage (d : Dev) (r : Req) (f : Dev → Dev) : Dev :=
  if r.node = 0x142 || nodeKind r.node = some .link then (f d).answer r 0x142 R.CRW_MSG .ok 0
  else (crwEvent (deniedHere d r 0x142 R.CRW_MSG) 4).answer r 0x142 R.CRW_MSG .denied 0

/-- An answer from a device still in the command of a slot. -/
def crewAnswer (d : Dev) (m : CrewMsg) (phase : Nat) (f : CrewCmd → CrewCmd) : Dev :=
  match crewCmd d m.slot with
  | some c =>
    if c.id = m.id && c.phase = phase && c.ents.any (fun e => e.dev = m.src) && !c.answered.contains m.src then
      crewAdvance (setCrewCmd d m.slot (some (f { c with answered := c.answered ++ [m.src] }))) m.slot
    else d
  | none => d

def crewOrigin (m : CrewMsg) : Origin := .message m.src m.slot m.id

/-- The region op of a command code. -/
def regionOpOf (op : Nat) : RegionOp := if op = 2 then .resume else if op = 3 then .limit else if op = 4 then .step else .feather

/-- Whether two commands come from one device's command slot. -/
def sameSlot (a b : Origin) : Bool :=
  match a, b with
  | .message v t _, .message v' t' _ => v = v' && t = t'
  | _, _ => false

/-- COLLECT: a region command begins on this device, or a catch; refused, DONE says so at once. DEDUCED: log entry 80. -/
def crewCollect (d : Dev) (t : Nat) (m : CrewMsg) : Dev :=
  let l := bitsIn m.mask
  let o := crewOrigin m
  if m.op = 5 then
    match catchStart d t l m.base m.limit m.stay o (some m.devs) with
    | (d, some st) => d.finish o st 0
    | (d, none) => d
  else match regionRefused d t l with
    | some st => d.finish o st 0
    | none =>
      -- a resume keeps the bounds of before until another device of its crew can no longer refuse it (R239)
      let d := { d with regions := d.regions.filter (fun c => !(c.op = .resume && sameSlot c.origin o)) }
      let d := regionStart d (regionOpOf m.op) t l m.n o true
      if m.op = 2 then d.finish o .ok 0 else d

def execCollect (r : Req) (m : CrewMsg) (s : State) : Host.Outcome State Fault Refusal :=
  s.run (fun d => crewMessage d r (fun d => crewCollect d r.tenant m))

def execCount (r : Req) (m : CrewMsg) (s : State) : Host.Outcome State Fault Refusal :=
  s.run (fun d => crewMessage d r (fun d => crewAnswer d m 1 (fun c => { c with counts := c.counts ++ [(m.src, m.n)] })))

/-- SET: the issuer's N for the region's islands here. -/
def crewSet (d : Dev) (m : CrewMsg) : Dev :=
  let go (acc : Dev × List RegionCmd) (c : RegionCmd) : Dev × List RegionCmd :=
    if c.origin = crewOrigin m && c.n.isNone && c.ended.isNone then
      let (d', c') := regionDecide acc.1 { c with op := .limit, arg := m.n }
      (d', acc.2 ++ [{ c' with op := c.op, arg := c.arg }])
    else (acc.1, acc.2 ++ [c])
  let (d', l) := d.regions.foldl go (d, [])
  { d' with regions := l }

def execSet (r : Req) (m : CrewMsg) (s : State) : Host.Outcome State Fault Refusal := s.run (fun d => crewMessage d r (fun d => crewSet d m))

def execAtN (r : Req) (m : CrewMsg) (s : State) : Host.Outcome State Fault Refusal :=
  s.run (fun d => crewMessage d r (fun d => crewAnswer d m 2 id))

/-- The catch of a message's command on this device. -/
def crewCatch (d : Dev) (m : CrewMsg) : Option (Nat × CatchCmd) :=
  match d.catches.findIdx? (fun c => !c.restore && c.origin = crewOrigin m) with
  | some k => (d.catches[k]?).map (fun c => (k, c))
  | none => none

/-- COPY: the shadow copy of every island of the region here. DEDUCED: log entry 83. -/
def crewCopy (d : Dev) (m : CrewMsg) : Dev :=
  match crewCatch d m with
  | some (k, c) =>
    if readyToCopy d c then
      let (d, c) := catchCopy d c
      (setCatch d k c).emit (.crew m.src 6 { src := d.devId, slot := m.slot, id := m.id })
    else d
  | none => d

def execCopy (r : Req) (m : CrewMsg) (s : State) : Host.Outcome State Fault Refusal := s.run (fun d => crewMessage d r (fun d => crewCopy d m))

def execCopied (r : Req) (m : CrewMsg) (s : State) : Host.Outcome State Fault Refusal :=
  s.run (fun d => crewMessage d r (fun d => crewAnswer d m 3 id))

/-- A command's region and catch leave this device; `restore` says whether its bounds return. -/
def crewDrop (d : Dev) (o : Origin) (restore : Bool) : Dev :=
  let mine := d.regions.filter (fun c => c.origin = o)
  let d := { d with regions := d.regions.filter (fun c => c.origin ≠ o), catches := d.catches.filter (fun c => c.origin ≠ o || c.restore || c.copied) }
  if restore then (mine.filter (fun c => c.ended.isNone || c.op = .resume)).foldl restoreBounds d else d

/-- RELEASE: a catch whose copy is taken resumes; a command that was refused lets its bounds go. -/
def crewRelease (d : Dev) (m : CrewMsg) : Dev :=
  match crewCatch d m with
  | some (k, c) => if c.copied then (if c.resumed then d else catchResume d k c) else crewDrop d (crewOrigin m) true
  | none => crewDrop d (crewOrigin m) true

def execMsgRelease (r : Req) (m : CrewMsg) (s : State) : Host.Outcome State Fault Refusal :=
  s.run (fun d => crewMessage d r (fun d => crewRelease d m))

/-- DONE at the issuer: the device's bit, or its refusal; in a collect phase a refusal is the whole command's (R239). -/
def crewDone (d : Dev) (m : CrewMsg) : Dev :=
  match crewCmd d m.slot with
  | some c =>
    if c.id ≠ m.id || !c.ents.any (fun e => e.dev = m.src) || c.finished.contains m.src then d
    else if m.st = .ok then
      crewAdvance (setCrewCmd d m.slot (some { c with finished := c.finished ++ [m.src], good := c.good ++ [m.src], answered := c.answered ++ [m.src] })) m.slot
    else
      let c := { c with ents := c.ents.filter (fun e => e.dev ≠ m.src), refusals := c.refusals ++ [m.st] }
      if c.op ≤ 5 && m.st ≠ .aborted && (c.phase = 1 || c.op = 2) then crewRefuse d m.slot c m.st
      else crewAdvance (setCrewCmd d m.slot (some c)) m.slot
  | none => d

def execDone (r : Req) (m : CrewMsg) (s : State) : Host.Outcome State Fault Refusal := s.run (fun d => crewMessage d r (fun d => crewDone d m))

/-- An acknowledgement of a message of type 9 (op below 9) or 10 (op 10). -/
def crewAck (d : Dev) (m : CrewMsg) (kind : Nat) : Dev :=
  d.emit (.crew m.src 11 { src := d.devId, slot := m.slot, id := m.id, op := if kind = 10 then 10 else m.op, n := m.n })

/-- RESTORE: this device restores `img`, the image at the message's base. -/
def crewRestore (d : Dev) (t : Nat) (m : CrewMsg) (img : CatchImage) : Dev :=
  match restoreStart d t img m.base [] m.replay (if m.n = allOnes64 then none else some m.n) (crewOrigin m) true with
  | (d, some st) => d.finish (crewOrigin m) st 0
  | (d, none) => crewAck d m 9

def execMsgRestore (r : Req) (m : CrewMsg) (img : CatchImage) (s : State) : Host.Outcome State Fault Refusal :=
  s.run (fun d => crewMessage d r (fun d => crewRestore d r.tenant m img))

/-- EVICT: this device evicts the tenant that the argument names. -/
def crewEvict (d : Dev) (t : Nat) (m : CrewMsg) : Dev :=
  match evictStart d t (bitsOf m.n.toNat 0 4) (crewOrigin m) with
  | (d, some st) => d.finish (crewOrigin m) st 0
  | (d, none) => crewAck d m 9

def execMsgEvict (r : Req) (m : CrewMsg) (s : State) : Host.Outcome State Fault Refusal :=
  s.run (fun d => crewMessage d r (fun d => crewEvict d r.tenant m))

/-- Links whose partner a test picks train anew. -/
def retrainLinks (d : Dev) (p : Word → Bool) : Dev :=
  (List.range 32).foldl (fun (d : Dev) n =>
    let i := d.reg (lp n) R.LNK_PEER_INFO
    if i.getLsbD 31 && p i && linkState d n ≠ 0 && mayTrain d n then trainStart d n else d) d

/-- SET_EPOCH (R441): argument [5:0] device, [15:8] epoch. A Cox that does not run does not answer. DEDUCED: log entry 82. -/
def crewSetEpoch (d : Dev) (t : Nat) (m : CrewMsg) : Dev :=
  if t ≠ 0 || !coxReady d then d
  else
    let v := bitsOf m.n.toNat 0 6
    let d := d.setFld 0x142 (R.CRW_DEV_EPOCH + 4 * v) 0 8 (bitsOf m.n.toNat 8 8)
    crewAck (retrainLinks d (fun i => bitsOf i.toNat 0 6 = v)) m 9

def execMsgSetEpoch (r : Req) (m : CrewMsg) (s : State) : Host.Outcome State Fault Refusal :=
  s.run (fun d => crewMessage d r (fun d => crewSetEpoch d r.tenant m))

/-- EPOCH (R442): for a link port node the crew epoch table changes, and links to that port train anew. -/
def crewEpoch (d : Dev) (m : CrewMsg) : Dev :=
  let v := bitsOf m.n.toNat 0 6
  let node := bitsOf m.n.toNat 8 16
  let d := if nodeKind node = some .link then
      let k := node - 0x110
      retrainLinks (d.setFld 0x142 (R.CRW_LP_EPOCH + 32 * v + k / 4 * 4) (8 * (k % 4)) 8 (bitsOf m.n.toNat 24 8))
        (fun i => bitsOf i.toNat 0 6 = v && bitsOf i.toNat 14 5 = k)
    else d
  crewAck d m 10

def execEpoch (r : Req) (m : CrewMsg) (s : State) : Host.Outcome State Fault Refusal := s.run (fun d => crewMessage d r (fun d => crewEpoch d m))

/-- ACK: of an epoch this device sent, or of its command. -/
def crewAcked (d : Dev) (m : CrewMsg) : Dev :=
  if m.op = 10 then { d with epochWait := d.epochWait.filter (fun e => e ≠ (m.src, bitsOf m.n.toNat 8 16, bitsOf m.n.toNat 24 8)) }
  else crewAnswer d m 5 id

def execAck (r : Req) (m : CrewMsg) (s : State) : Host.Outcome State Fault Refusal := s.run (fun d => crewMessage d r (fun d => crewAcked d m))

/-! ### Timeouts (R447) -/

/-- Devices that have not answered the phase leave the command. -/
def crewTimeout (d : Dev) (t : Nat) : Dev :=
  match crewCmd d t with
  | none => d
  | some c =>
    let got := if c.phase = 4 then c.finished else c.answered
    let rest := c.ents.filter (fun e => got.contains e.dev)
    if rest.length = c.ents.length then d
    else crewAdvance (setCrewCmd (crwEvent d 1) t (some { c with ents := rest })) t

/-- A phase of the command in slot `t` times out: at this device as issuer, or, where `part` names another issuer and command id, of the
part this device has in it, whose islands keep their bounds (R448). DEDUCED: log entry 81. -/
def crewPhaseTimeout (d : Dev) (t : Nat) (part : Option (Nat × Nat)) : Dev :=
  match part with
  | none => crewTimeout d t
  | some (v, id) =>
    if d.regions.any (fun c => c.origin = .message v t id) then
      let d := crwEvent d 1
      match crewCatch d { src := v, slot := t, id := id } with
      | some (k, c) => if c.copied then catchResume d k { c with stay := true } else crewDrop d (.message v t id) false
      | none => crewDrop d (.message v t id) false
    else d

def execCrewPhaseTimeout (t : Fin 16) (part : Option (Fin 64 × BitVec 16)) (s : State) : Host.Outcome State Fault Refusal :=
  s.run (fun d => crewPhaseTimeout d t.val (part.map (fun p => (p.1.val, p.2.toNat))))

end Sys2Proof.Machine
end

