-- ==== Sys2Proof/Machine/Cox.lean ====
section
/-! DEFINITION. The Cox: mailbox commands (R534, R541 to R552, R554), fuses (R530, R531), tampering and lockstep loss (R526, R553),
system engine sparing and readmission (R318, R319), and the service map (R614 to R617). The layouts of the inputs that the spec names
without offsets are the model's own (notes/assumptions). -/

namespace Sys2Proof.Machine

/-! ### The mailbox's buffer (R558) -/

/-- The data buffer of a slot as one number, byte 0 lowest. -/
def mbxBuf (d : Dev) (s : Nat) : Nat :=
  (List.range 256).foldr (fun k a => (d.reg 0x141 (mbxOff s + 0x400 + 4 * k)).toNat + a * 2 ^ 32) 0

/-- Bytes [k + n - 1 : k] of a buffer. -/
def bytesAt (buf k n : Nat) : Nat := bitsOf buf (8 * k) (8 * n)

/-- A result of n bytes is put into a slot's buffer. -/
def putResult (d : Dev) (s v n : Nat) : Dev :=
  (List.range ((n + 3) / 4)).foldl (fun (d : Dev) k => d.setReg 0x141 (mbxOff s + 0x400 + 4 * k) (BitVec.ofNat 32 (v / 2 ^ (32 * k)))) d

def mbxAddr (d : Dev) (s : Nat) : Nat := (d.reg64 0x141 (mbxOff s + 8)).toNat % 2 ^ 52
def mbxXlen (d : Dev) (s : Nat) : Nat := d.fld 0x141 (mbxOff s + 0x10) 0 24
def mbxBusy (d : Dev) (s : Nat) : Bool := !d.flag 0x141 (mbxOff s) 6

/-! ### What is read of the Cox -/

def policy (d : Dev) (b : Nat) : Bool := d.flag 0x141 R.FUS_POLICY b
/-- Set bits of the Cox counter's fuses (R529). -/
def coxCount (d : Dev) : Nat := ((List.range 64).filter (fun k => (d.reg64 0x141 R.FUS_COX_ARC).getLsbD k)).length
def ownerHashNum (d : Dev) : Nat := match ownerHash d with | some h => h.toNat | none => 0
def coxIdView (d : Dev) : Word := BitVec.ofNat 32 (d.fld 0x141 R.COX_ID 0 18 + coxCount d * 2 ^ 24)
def coxStatusView (d : Dev) : Word :=
  BitVec.ofNat 32 (coxState d + (match ownerSlot d with | some s => 8 + 16 * s | none => 240) + (if rootHeld d 0 then 256 else 0)
    + d.fld 0x141 R.COX_STATUS 9 2 * 512)
def coxTenView0 (d : Dev) (t : Nat) : Word :=
  let f (c : Bool) (k : Nat) : Nat := if c then 2 ^ k else 0
  BitVec.ofNat 32 (f (entryOf d t).isSome 0 + f (rootHeld d t) 1 + f (d.flag 0x160 R.CAT_SEAL_KEYS t) 2
    + f (d.wipes.any (fun w => w.tenant = t && decide (w.kind = .evict true ∨ w.kind = .evict false))) 3)
def coxTenView1 (d : Dev) (t : Nat) : Word := match entryOf d t with | some e => BitVec.ofNat 32 e.version | none => 0
def devicePubWord (which k : Nat) : Word := (devicePub which).extractLsb' (32 * k) 32

/-- The identity block (R534). -/
def identityBlock (d : Dev) : Nat :=
  coxNum d R.FUS_DIE 10 + d.fld 0x141 R.FUS_DEV 0 3 * 2 ^ 320 + d.fld 0x141 R.COX_ID 0 16 * 2 ^ 336 + coxCount d * 2 ^ 352
    + (d.reg 0x141 R.FUS_POLICY).toNat * 2 ^ 384 + (devHash d).toNat * 2 ^ 416
    + (devicePub 0).toNat * 2 ^ 800 + (devicePub 1).toNat * 2 ^ 1568
    + ownerHashNum d * 2 ^ 2336

/-! ### Signed objects (R539, R540) -/

def counterOff (p : Nat) : Nat := if p = 0 then R.COX_ARC else R.COX_TCNT + 8 * (p - 1)
def wrapLen (buf : Nat) : Nat := bytesAt buf 6 2
def wrapCounter (buf : Nat) : W64 := BitVec.ofNat 64 (bytesAt buf 8 8)
def wrapKey (buf : Nat) : BitVec 768 := BitVec.ofNat 768 (bytesAt buf (64 + wrapLen buf) 96)
def wrapKeyHash (buf : Nat) : BitVec 384 := Config.sha384 (wrapKey buf).toNat 96
/-- Bytes of the payload. DESIGN CHOICE: log entry 93. -/
def payload (buf k n : Nat) : Nat := bytesAt buf (64 + k) n

def authFail (d : Dev) : Dev × Option Status := (coxEvent d 5, some .authFail)

/-- A wrapper is checked; accepted, the signer's counter moves to its own. `hash`: the key hash its public key must have; `anyCounter`
for BB_INIT. Answers why it is refused. DESIGN CHOICE: log entry 93. -/
def wrapperIn (d : Dev) (s op signer : Nat) (hash : Option (BitVec 384)) (anyCounter : Bool) : Dev × Option Status :=
  let buf := mbxBuf d s
  let l := wrapLen buf
  if d.fld 0x141 (mbxOff s + 4) 0 11 ≠ 256 + l || bytesAt buf 0 4 ≠ 0x7C095A01 || BitVec.ofNat 384 (bytesAt buf 16 48) ≠ devHash d ||
      bytesAt buf 4 1 ≠ op || bytesAt buf 5 1 ≠ signer then (d, some .badState)
  else if hash ≠ some (wrapKeyHash buf) ||
      !Config.ecdsaOk (wrapKey buf) (Config.sha384 (bytesAt buf 0 (64 + l)) (64 + l)) (BitVec.ofNat 768 (bytesAt buf (160 + l) 96)) then authFail d
  else if !anyCounter && (wrapCounter buf).ule (d.reg64 0x141 (counterOff signer)) then (d, some .badState)
  else (d.setReg64 0x141 (counterOff signer) (wrapCounter buf), none)

/-- How a command answers: its status, once it has completed, and the bytes of its result; no status while it waits. -/
abbrev MbxOut := Dev × Option Status × Nat

def refuse (d : Dev) (st : Status) : MbxOut := (d, some st, 0)

/-- A signed command: what it does once its wrapper is accepted. -/
def signed (d : Dev) (s op signer : Nat) (hash : Option (BitVec 384)) (f : Dev → MbxOut) : MbxOut :=
  if d.flag 0x141 R.COX_STATUS 10 && op ≠ 14 then refuse d .badState
  else match wrapperIn d s op signer hash (op = 14) with
    | (d, some st) => refuse d st
    | (d, none) => f d

/-! ### Tenant entries (R543, R49 to R53) -/

def entryIn (buf : Nat) : TenEntry :=
  { version := payload buf 4 4, keyHash := BitVec.ofNat 384 (payload buf 8 48), crew := BitVec.ofNat 64 (payload buf 56 8),
    islands := BitVec.ofNat 256 (payload buf 64 32), granules := BitVec.ofNat 1024 (payload buf 96 128),
    blocks := BitVec.ofNat 256 (payload buf 224 32), vfs := BitVec.ofNat 16 (payload buf 256 2),
    powerCap := BitVec.ofNat 16 (payload buf 258 2), linkShare := BitVec.ofNat 256 (payload buf 260 32),
    nocRate := BitVec.ofNat 16 (payload buf 292 2), nocDepth := BitVec.ofNat 16 (payload buf 294 2),
    dramSlots := BitVec.ofNat 64 (payload buf 296 8), signed := BitVec.ofNat 4608 buf }

def byteOf {w : Nat} (v : BitVec w) (k : Nat) : Nat := bitsOf v.toNat (8 * k) 8

/-- Whether a tenant holds anything, by its entry. -/
def holdsAny (e : TenEntry) : Bool := e.islands ≠ 0 || e.granules ≠ 0 || e.blocks ≠ 0 || e.vfs ≠ 0

/-- Resources of an entry that another tenant holds, or that are on their way to or from one (R51, R61). -/
def entryClash (d : Dev) (t : Nat) (e : TenEntry) : Bool :=
  d.tenants.any (fun o => o.1 ≠ t && ((o.2.islands &&& e.islands) ≠ 0 || (o.2.granules &&& e.granules) ≠ 0 || (o.2.blocks &&& e.blocks) ≠ 0
    || (o.2.vfs &&& e.vfs) ≠ 0)) || wiping d (bitsIn e.islands) (bitsIn e.granules)
    || d.wipes.any (fun w => match w.next with
        | some n => (n.blocks &&& e.blocks) ≠ 0 || (n.vfs &&& e.vfs) ≠ 0
        | none => w.vfs.any (fun f => e.vfs.getLsbD (f - 1)) || w.blocks.any (fun b => e.blocks.getLsbD b))

/-- Shares of every link and slots of every channel, all tenants together, stay within 256 and within a frame (R51, R385). -/
def sharesFit (d : Dev) (t : Nat) (e : TenEntry) : Bool :=
  let others := d.tenants.filter (fun o => o.1 ≠ t)
  (List.range 32).all (fun n => byteOf e.linkShare n + (others.map (fun o => byteOf o.2.linkShare n)).sum ≤ 256) &&
  (List.range 8).all (fun n => byteOf e.dramSlots n % 8 = 0 &&
    byteOf e.dramSlots n + (others.map (fun o => byteOf o.2.dramSlots n)).sum + d.fld (dn n) R.DDR_SLOT 0 8 ≤ 64)

/-- Added granules lie on no channel in dedicated mode that another principal's granules use (R383). -/
def dedicatedOk (d : Dev) (t : Nat) (grans : List Nat) : Bool :=
  (grans.flatMap (granChannels d)).eraseDups.all (fun n => d.flag (dn n) R.DDR_PART 0 ||
    (granulesOn d n).all (fun g => grans.contains g || granOwner d g = t))

def entryRefused (d : Dev) (t : Nat) (e : TenEntry) : Bool :=
  let (isl, gran) := addedTo d t e
  t = 0 || e.version ≤ tget d.versions 0 t || !e.crew.getLsbD d.devId ||
  (match entryOf d t with | some o => holdsAny o && o.keyHash ≠ e.keyHash | none => false) ||
  entryClash d t e || isl.any (fun i => (d.isl i).state ≠ .idle || (d.isl i).prBusy) || !sharesFit d t e || !dedicatedOk d t gran

/-- TENANT_ENTRY: what it removes is evicted first, then what it adds is erased, then it is applied (R543). -/
def tenantEntry (d : Dev) (s : Nat) : MbxOut :=
  let buf := mbxBuf d s
  let t := payload buf 0 1 % 16
  if (ownerHash d).isNone || tenantBusy d t then refuse d .badState
  else signed d s 2 0 (ownerHash d) (fun d =>
    let e := entryIn buf
    if entryRefused d t e then refuse d .badState
    else
      let old := (entryOf d t).getD {}
      let gone := bitsIn (old.islands &&& ~~~e.islands)
      let goneG := bitsIn (old.granules &&& ~~~e.granules)
      let goneV := (bitsIn (old.vfs &&& ~~~e.vfs)).map (· + 1)
      let goneB := bitsIn (old.blocks &&& ~~~e.blocks)
      let w : Wipe := { kind := .evict (!holdsAny e && (entryOf d t).isSome), tenant := t, islands := gone, grans := goneG, vfs := goneV,
                        blocks := goneB, zeroing := [],
                        filling := [], origin := some (.mailbox s), next := some e }
      if gone.isEmpty && goneG.isEmpty && goneV.isEmpty && goneB.isEmpty then
        (wipesAdvance { d with wipes := d.wipes ++ [{ w with quiet := true }] }, none, 0)
      else (wipeBegin d w, none, 0))

/-! ### Keys (R538, R544, R545) -/

/-- A root key is held: its sealing key is derived and goes to the seal units. -/
def setRoot (d : Dev) (p : Nat) (k : BitVec 256) : Dev := sealKeyLoad { d with roots := tput d.roots none p (some k) } p k

/-- The root key of a slot's wrapped-key payload that begins at its byte `k`; none where the tag fails (R544): the wrapping key is
HKDF-SHA-384 of the x-coordinate of d_KK × Q_e, with the device identity hash as salt and t and v as info. -/
def unwrapIn (d : Dev) (buf k : Nat) : Option (BitVec 256) :=
  let f (o n : Nat) : Nat := payload buf (k + o) n
  let key := Config.hkdfSha384 (Config.p384Mul scalarKK (BitVec.ofNat 768 (f 8 96))) (devHash d) (f 0 1 + f 4 4 * 256) 5
  let iv := BitVec.ofNat 96 (f 104 12)
  let ct := unitsOfNum 2 (f 116 32)
  if gcmTagOf key iv (unitsOfNum 4 (f 0 8 + bytesAt buf 8 56 * 2 ^ 64)) ct = BitVec.ofNat 128 (f 148 16) then
    some (BitVec.ofNat 256 (unitsNum (gcmApply key iv ct)))
  else none

def tenantKey (d : Dev) (s : Nat) : MbxOut :=
  let buf := mbxBuf d s
  let t := payload buf 0 1
  if (ownerHash d).isNone || tenantBusy d t then refuse d .badState
  else if t = 0 || 15 < t || (entryOf d t).isNone then refuse d .badState
  else signed d s 3 t (keyHashOf d t) (fun d =>
    let running := (List.range 256).any (fun i => d.owner i = t && (d.isl i).state ≠ .idle)
    if payload buf 4 4 ≠ ((entryOf d t).getD {}).version then refuse d .badState
    else match unwrapIn d buf 0 with
      | none => let (d, st) := authFail d; (d, st, 0)
      | some k =>
        if running && rootHeld d t && tget d.roots none t ≠ some k then refuse d .badState
        else (coxEvent (setRoot { d with battery := { d.battery with keys := tput d.battery.keys none t (some k) } } t k) 8, some .ok, 0))

/-- Whether every island of the Owner is IDLE. -/
def ownerIdle (d : Dev) : Bool := (List.range 256).all (fun i => d.owner i ≠ 0 || (d.isl i).state = .idle)

/-- DEDUCED: log entry 97. -/
def ownerKey (d : Dev) (s : Nat) : MbxOut :=
  let buf := mbxBuf d s
  if (ownerHash d).isNone then refuse d .badState
  else signed d s 4 0 (ownerHash d) (fun d =>
    if payload buf 0 1 ≠ 0 || payload buf 4 4 ≠ 0 || !policy d 7 || !ownerIdle d then refuse d .badState
    else match unwrapIn d buf 0 with
      | none => let (d, st) := authFail d; (d, st, 0)
      | some k => (coxEvent (setRoot { d with battery := { d.battery with keys := tput d.battery.keys none 0 (some k) } } 0 k) 8, some .ok, 0))

/-! ### Grants and sessions (R546 to R548) -/

/-- DESIGN CHOICE: log entry 93. -/
def grantCmd (d : Dev) (s : Nat) : MbxOut :=
  let buf := mbxBuf d s
  let p := payload buf 0 1
  if policy d 4 then refuse d .denied
  else if 15 < p then refuse d .badState
  else signed d s 5 p (keyHashOf d p) (fun d =>
    match (List.range 32).find? (fun g => !d.grants.any (fun x => x.1 = g)) with
    | none => refuse d .badState
    | some g =>
      if (payload buf 1 1 % 2 = 1 && policy d 5) || payload buf 4 4 = 0 then refuse d .badState
      else
        let x : Grant := { prin := p, paths := payload buf 1 1 % 4, rights := payload buf 2 2 % 64, islands := BitVec.ofNat 256 (payload buf 8 32),
                           granules := BitVec.ofNat 1024 (payload buf 40 128), key := BitVec.ofNat 768 (payload buf 168 96), counter := wrapCounter buf,
                           until_ := d.dtime + BitVec.ofNat 64 (payload buf 4 4 * 1000000000) }
        (putResult { d with grants := (g, x) :: d.grants } s g 1, some .ok, 1))

def grantAt (d : Dev) (g : Nat) : Option Grant := (d.grants.find? (fun x => x.1 = g)).map (·.2)
def setGrant (d : Dev) (g : Nat) (x : Grant) : Dev := { d with grants := d.grants.map (fun e => if e.1 = g then (g, x) else e) }

/-- Whether a grant's session may be opened on a path from a mailbox slot. -/
def pathOk (d : Dev) (s k : Nat) (x : Grant) : Bool :=
  k ≤ 17 && (s = x.prin || (s = 16 && k = 0)) && x.paths.testBit (if k = 0 then 0 else 1) && !(k = 0 && policy d 5)

/-- fn 0: a nonce for a grant and a path. -/
def sessionOpen (d : Dev) (s : Nat) : MbxOut :=
  let buf := mbxBuf d s
  let g := bytesAt buf 0 1
  let k := bytesAt buf 1 1
  match grantAt d g with
  | none => refuse d .badState
  | some x =>
    if !pathOk d s k x then refuse d .badState
    else
      let n := Config.nonce d.free
      let d := setGrant { d with free := d.free + 1 } g { x with nonce := some (k, n, d.dtime) }
      (putResult d s n.toNat 48, some .ok, 48)

/-- fn 1: the debugger's signature opens the session. The nonce is used up whatever comes of it.
DESIGN CHOICE: log entry 93; DEDUCED: log entry 96. -/
def sessionResponse (d : Dev) (s : Nat) : MbxOut :=
  let buf := mbxBuf d s
  let g := bytesAt buf 0 1
  let k := bytesAt buf 1 1
  match grantAt d g with
  | none => refuse d .badState
  | some x =>
    match x.nonce with
    | none => refuse d .badState
    | some (path, n, _) =>
      let d := setGrant d g { x with nonce := none }
      if path ≠ k || !pathOk d s k x || x.sess.isSome || (pathGrant d k).isSome then refuse d .badState
      else if !Config.ecdsaOk x.key (Config.sha384 (n.toNat + x.counter.toNat * 2 ^ 384 + k * 2 ^ 448) 57) (BitVec.ofNat 768 (bytesAt buf 2 96)) then
        let (d, st) := authFail d; (d, st, 0)
      else (hubEvent (setGrant d g { x with nonce := none, sess := some k }) 1, some .ok, 0)

/-- DESIGN CHOICE: log entry 93. -/
def revoke (d : Dev) (s : Nat) : MbxOut :=
  let g := bytesAt (mbxBuf d s) 0 1
  match grantAt d g with
  | none => refuse d .badState
  | some x => if x.prin ≠ s then refuse d .badState else (grantsDrop d (fun e => e.1 = g), some .ok, 0)

/-! ### What the Cox reads and writes at a slot's address (R549, R551, R552) -/

/-- Why `n` bytes at an address are refused to the Cox's requests with a tenant field: each endpoint makes its check of R57, and a
controller those of R367 and R377. Answers the node and the status. DESIGN CHOICE: log entry 149. -/
def coxRefused (d : Dev) (t a n : Nat) : Option (Nat × Status) :=
  if a % 16 ≠ 0 then some (0x141, .malformed)
  else (List.range ((a % 4096 + n + 4095) / 4096)).findSome? (fun k =>
    let a := a / 4096 * 4096 + 4096 * k
    match destOf d a with
    | none => some (0x141, .noTarget)
    | some node =>
      if deviceOf a ≠ d.devId then none
      else if inControl a then some (node, .malformed)
      else if inDram a then (dramRefused d (node - 0x100) ⟨mkHdr node 0x141 1 0 0 0 t (d.epoch 0x141) 1 0 true a, [], false⟩).map (fun st => (node, st))
      else if fnTenant d (d.fld 0x140 (R.HIF_HWIN_FN + 0x10 * ((localAddr a - 0x200000000000) / 2 ^ 36)) 0 5) = t then none
      else some (node, .denied))

/-- A refusal of a request of the Cox, noted by the node that refuses. -/
def coxRefusal (d : Dev) (t : Nat) (e : Nat × Status) : Dev :=
  if e.2 = .denied then deniedHere d ⟨0x141, 0, t⟩ e.1 0 else if e.2 = .noTarget then d.nocEvent 0x141 4 0 0 else d

/-- Units written to an address with a tenant field; those of this device's DRAM are stored. DESIGN CHOICE: log entry 149. -/
def coxPut (d : Dev) (t a : Nat) (l : List W128) : Dev × Status :=
  match coxRefused d t a (16 * l.length) with
  | some e => (coxRefusal d t e, e.2)
  | none =>
    ((cutUnits 128 l.length a l).foldl (fun (d : Dev) e =>
      (if deviceOf e.1 = d.devId && inDram e.1 then dramPut d e.1 e.2 else d).asked 0x141 ((destOf d e.1).getD 0x141) 8 e.2.length t e.1 e.2) d, .ok)

/-- The words of an image at a slot's address: those that this device's DRAM holds, elsewhere those that the command carries.
DESIGN CHOICE: log entry 149. -/
def imageWords (d : Dev) (s : Nat) (l : List W128) : List W128 :=
  let a := mbxAddr d s
  if deviceOf a = d.devId && inDram a then (List.range ((mbxXlen d s + 15) / 16)).map (fun k => dramUnit d (a + 16 * k)) else l

/-- The Cox's reads of an image: tenant field 0 (R39). -/
def imageRead (d : Dev) (s : Nat) : Option (Nat × Status) := coxRefused d 0 (mbxAddr d s) (mbxXlen d s)

/-! ### Attestation (R549, R550) -/

/-- Islands that a requester's report lists. DEDUCED: log entry 102. -/
def reported (d : Dev) (s : Nat) : List Nat :=
  if s = 16 then [] else if s = 0 then (List.range 256).filter (fun i => d.owner i = 0 && (d.isl i).state ≠ .idle)
  else (List.range 256).filter (fun i => d.owner i = s)

def islandBits (l : List Nat) : Nat := (l.map (2 ^ ·)).sum

/-- The report without its signature, and its length. DEDUCED: log entry 102. -/
def reportBody (d : Dev) (s : Nat) (nonce : Nat) : Nat × Nat :=
  let l := reported d s
  let f (c : Bool) (k : Nat) : Nat := if c then 2 ^ k else 0
  let e := if s = 0 || s = 16 then none else entryOf d s
  let head := 0x7C095A02 + 2 ^ 32 + (if s = 16 then 255 else s) * 2 ^ 48 + l.length % 256 * 2 ^ 56 + nonce * 2 ^ 64 + d.dtime.toNat * 2 ^ 448
    + (devHash d).toNat * 2 ^ 512 + d.fld 0x141 R.COX_ID 0 16 * 2 ^ 896 + coxCount d * 2 ^ 912
    + (f (d.flag 0x141 R.COX_ID 16) 0 + f (d.flag 0x141 R.COX_SYS_FW 31) 1 + f (d.flag 0x141 R.COX_STATUS 9) 2) * 2 ^ 920
    + (d.reg 0x141 R.FUS_POLICY).toNat * 2 ^ 928 + ownerHashNum d * 2 ^ 960
    + (match e with | some x => (Config.sha384 (payload x.signed.toNat 0 320) 320).toNat * 2 ^ 1344 + x.version * 2 ^ 1728 | none => 0)
    + (d.reg 0x141 R.COX_SYS_FW).toNat * 2 ^ 1760 + islandBits l * 2 ^ 1792
  let recs := (l.zipIdx.map (fun (i, k) =>
    (i + (d.isl i).state.code * 2 ^ 8 + d.epochOf 0x141 i * 2 ^ 16 + (d.isl i).hash.toNat * 2 ^ 128) * 2 ^ (2048 + 512 * k))).sum
  (head + recs, 256 + 64 * l.length)

/-- The report signed with AK over the digest of all that precedes (R535, R549). DESIGN CHOICE: log entry 93. -/
def attest (d : Dev) (s : Nat) : MbxOut :=
  let (b, n) := reportBody d s (bytesAt (mbxBuf d s) 0 48)
  let r := b + (Config.ecdsaSign scalarAK (Config.sha384 b n) d.free).toNat * 2 ^ (8 * n)
  let d := { d with free := d.free + 1 }
  if n + 96 ≤ 1024 then (putResult d s r (n + 96), some .ok, n + 96)
  else if mbxXlen d s < n + 96 then refuse d .badState
  else let (d, st) := coxPut d (if s = 16 then 0 else s) (mbxAddr d s) (unitsOfNum ((n + 96) / 16) r); (d, some st, 0)

/-! ### Firmware (R317, R318, R551, R552) -/

def wordsBytes (l : List W128) : List Byte := l.flatMap (fun w => toBytes w.toNat 16)

def coxFw (d : Dev) (s : Nat) (x : CoxImage) : MbxOut :=
  match imageRead d s with
  | some e => refuse (coxRefusal d 0 e) e.2
  | none =>
  if !x.sigOk then let (d, st) := authFail d; (d, st, 0)
  else if x.epoch < coxCount d then refuse d .badState
  else (d.emit (.flashOp 0 2 0x100000 ((wordsBytes (imageWords d s x.words)).take (mbxXlen d s))), some .ok, 0)

def sysOff (s off : Nat) : Nat := ctlOff (0x150 + s) off
/-- The system engine that serves a role (R317). -/
def roleEngine (d : Dev) (r : Nat) : Option Nat :=
  if d.flag 0x150 (R.SCL_SYS_ROLEDIR + 4 * r) 31 then some (d.fld 0x150 (R.SCL_SYS_ROLEDIR + 4 * r) 0 4) else none
def setRoledir (d : Dev) (r v : Nat) : Dev :=
  (List.range 16).foldl (fun (d : Dev) s => d.setReg (0x150 + s) (R.SCL_SYS_ROLEDIR + 4 * r) (BitVec.ofNat 32 v)) d

/-- SRAM contents from an image: its 32-bit words in order fill the instruction SRAM, then the data SRAM. DEDUCED: log entry 36. -/
def imageSram (l : List W128) (first : Nat) : Tab Word :=
  (l.zipIdx.flatMap (fun (w, k) => (List.range 4).map (fun j => (4 * k + j, w.extractLsb' (32 * j) 32)))).filterMap
    (fun (k, v) => if first ≤ k ∧ k < first + 16384 ∧ v ≠ 0 then some (k - first, v) else none)

/-- Steps 3 and 5: an engine is reset, takes a role's image and is released at its entry. DEDUCED: log entry 36. -/
def roleLoad (d : Dev) (s r : Nat) : Dev :=
  let e := 512 + s
  let img := tget d.roleImg (0, []) r
  let d := engResetRegs d e 0
  let d := d.setEng e { (d.eng e) with imem := imageSram img.2 0, dmem := imageSram img.2 16384, ierr := [], derr := [] }
  engResetRegs (d.setReg (0x150 + s) (sclOff e R.SCL_START) (img.1 &&& 0xFFFFFFFC#32)) e 1

/-- DESIGN CHOICE: log entry 93. -/
def sysFw (d : Dev) (s : Nat) (x : CoxImage) : MbxOut :=
  let buf := mbxBuf d s
  let roles := payload buf 0 4
  if policy d 8 || (ownerHash d).isNone then refuse d .badState
  else signed d s 10 0 (ownerHash d) (fun d =>
    if bitsOf roles 14 17 ≠ 0 then refuse d .badState
    else match imageRead d s with
    | some e => refuse (coxRefusal d 0 e) e.2
    | none =>
      let ws := imageWords d s x.words
      let img := (wordsBytes ws).take (mbxXlen d s)
      if Config.sha384 (ofBytes img) img.length ≠ BitVec.ofNat 384 (payload buf 8 48) then let (d, st) := authFail d; (d, st, 0)
      else
        let fw := BitVec.ofNat 32 (payload buf 4 4 % 2 ^ 24 + 2 ^ 31)
        let d := (List.range 14).foldl (fun (d : Dev) r =>
          if roles.testBit r then
            let d := { d with roleImg := tput d.roleImg (0, []) r (x.entry, ws) }
            match roleEngine d r with
            | some k => (setRoledir (roleLoad d k r) r (k + 2 ^ 31)).setReg (0x150 + k) R.SCL_SYS_FW fw
            | none => d
          else d) d
        let d := d.setReg 0x141 R.COX_SYS_FW fw
        (if roles.testBit 31 then d.emit (.flashOp 0 2 0x200000 img) else d, some .ok, 0))

/-! ### Fuses (R529 to R531) -/

def fuseLock (d : Dev) (k : Nat) : Bool := d.flag 0x141 R.FUS_LOCK k

/-- An OR field: the stored value takes the value's bits. -/
def fuseOr (d : Dev) (off words v : Nat) : MbxOut := (setCoxNum d off words (coxNum d off words ||| v), some .ok, 0)

/-- A key hash slot is programmed; on a claimed device one above the active slot is a transfer.
DEDUCED: log entry 97; DESIGN CHOICE: log entry 150. -/
def fuseOwner (d : Dev) (k v : Nat) (ok : Bool) : MbxOut :=
  let off := R.FUS_OWNER_HASH + 0x30 * k
  if coxNum d off 12 ≠ 0 || d.flag 0x141 R.FUS_VALID k then refuse d .fieldLocked
  else
    let transfer := match ownerSlot d with | some a => decide (a < k) | none => false
    if transfer && (!d.tenants.isEmpty || (List.range 256).any (fun i => (d.isl i).state ≠ .idle)) then refuse d .badState
    else
      let d := setCoxNum d off 12 v
      if !ok then (d, some .ok, 0)
      else
        let d := d.orReg 0x141 R.FUS_VALID (bit k)
        if transfer then
          let d := d.orReg 0x141 R.FUS_POLICY (bit 7)
          (dropKeys { d with battery := { d.battery with keys := tput d.battery.keys none 0 none } } 0, some .ok, 0)
        else (d, some .ok, 0)

def fuseField (d : Dev) (buf : Nat) (ok : Bool) : MbxOut :=
  let code := payload buf 0 1
  let v := payload buf 4 (wrapLen buf - 4)
  let lock (w : Nat) (f : Dev → MbxOut) : MbxOut := if v < 2 ^ w then f d else refuse d .fieldLocked
  match code with
  | 1 => lock 64 (fun d => fuseOr d R.FUS_COX_ARC 2 v)
  | 2 =>
    if policy d 7 then refuse d .badState
    else if d.fuseKey.isSome || payload buf 4 1 ≠ 0 then refuse d .fieldLocked
    else match unwrapIn d buf 4 with
      | none => let (d, st) := authFail d; (d, st, 0)
      | some k =>
        let d := { d with fuseKey := some k, fuseKeyOk := ok }
        let d := d.orReg 0x141 R.FUS_VALID (if ok then 0x30 else 0x10)
        (if ok then coxEvent (setRoot d 0 k) 8 else d, some .ok, 0)
  | 7 => if fuseLock d 0 then refuse d .fieldLocked else lock 9 (fun d => fuseOr d R.FUS_POLICY 1 v)
  | 8 => if fuseLock d 1 then refuse d .fieldLocked else lock 256 (fun d => fuseOr d R.FUS_OWNER_GP 8 v)
  | 9 => if v &&& 0x7FFC ≠ 0 then refuse d .fieldLocked else lock 16 (fun d => fuseOr d R.FUS_LOCK 1 v)
  | c => if 3 ≤ c ∧ c ≤ 6 then lock 384 (fun d => fuseOwner d (c - 3) v ok) else refuse d .fieldLocked

/-- DESIGN CHOICE: log entry 93. -/
def fuseProg (d : Dev) (s : Nat) (x : CoxImage) : MbxOut :=
  let buf := mbxBuf d s
  let claim := (ownerHash d).isNone && payload buf 0 1 = 3
  signed d s 11 0 (if claim then some (BitVec.ofNat 384 (payload buf 4 48)) else ownerHash d) (fun d => fuseField d buf x.fuseOk)

/-! ### Zeroisation (R554) -/

/-- Every catch and restore in progress stops, their keys gone (R555). -/
def stopSealing (d : Dev) : Dev :=
  d.catches.foldl (fun (d : Dev) c => if c.restore then restoreFail d c .aborted else catchStop d c .aborted) d

/-- Commands of other slots, and evictions, complete ABORTED; what they were erasing is still erased, and nothing is given (R542).
DEDUCED: log entry 98. -/
def abortWipes (d : Dev) : Dev :=
  let os := d.wipes.filterMap (·.origin)
  os.foldl (fun (d : Dev) o => d.finish o .aborted 0) { d with wipes := d.wipes.map (fun w => { w with origin := none, next := none }) }

/-- Scope K. -/
def zeroiseK (d : Dev) : Dev :=
  let d := abortWipes (stopSealing (grantsDrop d (fun _ => true)))
  let d := sealKeysClear { d with roots := [] }
  coxEvent d 6

/-- Scope B. DEDUCED: log entry 98. -/
def zeroiseB (d : Dev) : Dev :=
  let d := zeroiseK d
  let d := d.tenants.foldl (fun (d : Dev) e =>
    let d := (List.range 32).foldl (fun (d : Dev) n => setShare d n e.1 0) (unmapChannels d e.1 none)
    freeVfs (tenantRemove d e.1) ((bitsIn e.2.vfs).map (· + 1))) d
  let d := (List.range 32).foldl (fun (d : Dev) k => d.setReg 0x141 (R.COX_GMAP + 4 * k) 0) d
  { d with battery := { d.battery with keys := [] }, versions := [] }.clrReg 0x141 R.COX_STATUS (bit 9)

/-- Granules that the committed interleave sets place on a channel. DEDUCED: log entry 100. -/
def installed (d : Dev) : List Nat := (List.range 1024).filter (fun g => !(granChannels d g).isEmpty)

/-- Scope D: every island and granule is erased. -/
def zeroiseD (d : Dev) (o : Option Origin) : Dev :=
  let d := loadStop (zeroiseB d)
  let all := List.range 256
  let d := stopUses (cacheClear d) all
  let d := all.foldl (fun (d : Dev) i => zeroAsk (dropInject (accessAbort (markEvicting d i) i) i (fun _ => true)) i) d
  let grans := installed d
  let d := fillStart d grans
  wipesAdvance { d with wipes := d.wipes ++ [{ kind := .all, tenant := 0, islands := all, grans := grans, zeroing := all,
                                               filling := stillFilling d grans, quiet := true, origin := o }] }

/-- DESIGN CHOICE: log entry 93; DEDUCED: log entry 98. -/
def zeroiseCmd (d : Dev) (s fn : Nat) : MbxOut :=
  signed d s 12 0 (ownerHash d) (fun d =>
    if payload (mbxBuf d s) 0 1 ≠ fn then refuse d .badState
    else if fn = 1 then (zeroiseK d, some .ok, 0)
    else if fn = 2 then (zeroiseB d, some .ok, 0)
    else if fn = 3 then (zeroiseD d (some (.mailbox s)), none, 0)
    else refuse d .badState)

/-! ### Readmission and battery memory (R319, R533) -/

/-- A unit is given a new epoch and takes it; a fenced system engine becomes a spare. DESIGN CHOICE: log entry 93; DEDUCED: log entry 100. -/
def readmit (d : Dev) (s : Nat) : MbxOut :=
  let node := bytesAt (mbxBuf d s) 0 2
  match nodeKind node with
  | some .sys =>
    if !d.flag node R.SCL_SYS_ROLE 6 then refuse d .badState
    else
      let d := epochTake (epochReplace d node) node
      let d := d.updEng (512 + (node - 0x150)) (fun x => { x with outOfService := false })
      (d.setReg node R.SCL_SYS_ROLE 0x10, some .ok, 0)
  | some .link => (epochTake (epochReplace d node) node, some .ok, 0)
  | _ => refuse d .badState

/-- DESIGN CHOICE: log entry 93. -/
def bbInit (d : Dev) (s : Nat) : MbxOut :=
  let buf := mbxBuf d s
  signed d s 14 0 (ownerHash d) (fun d =>
    let d := (List.range 16).foldl (fun (d : Dev) p => d.setReg64 0x141 (counterOff p) (BitVec.ofNat 64 (payload buf (8 * p) 8))) d
    let d := { d with battery := { d.battery with low := false } }
    ((d.orReg 0x141 R.COX_STATUS (bit 9)).clrReg 0x141 R.COX_STATUS (bit 10), some .ok, 0))

/-! ### The command register (R541, R542) -/

/-- Slots that may give a command. DEDUCED: log entry 94. -/
def slotServes (op s : Nat) : Bool :=
  if op = 1 || op = 3 || op = 5 || op = 6 || op = 7 || op = 8 then true
  else if op = 9 || op = 13 then s = 0
  else (2 ≤ op && op ≤ 14) && (s = 0 || s = 16)

/-- DEDUCED: log entry 94. -/
def mbxCommand (d : Dev) (s op fn : Nat) (x : CoxImage) : MbxOut :=
  if !slotServes op s || (coxState d = 2 && op ≠ 1 && op ≠ 9) then refuse d .badState
  else match op with
    | 1 => (putResult d s (identityBlock d) 340, some .ok, 340)
    | 2 => tenantEntry d s
    | 3 => tenantKey d s
    | 4 => ownerKey d s
    | 5 => grantCmd d s
    | 6 => if fn = 0 then sessionOpen d s else if fn = 1 then sessionResponse d s else refuse d .badState
    | 7 => revoke d s
    | 8 => attest d s
    | 9 => coxFw d s x
    | 10 => sysFw d s x
    | 11 => fuseProg d s x
    | 12 => zeroiseCmd d s fn
    | 13 => readmit d s
    | _ => bbInit d s

/-- A write of COX_MBX_CTL; go starts the command. DEDUCED: log entry 94. -/
def mbxCtlWriter (x : CoxImage) : Writer := fun d _ _ off v =>
  let s := (off - R.COX_MBX_CTL) / 0x800
  let go := v.testBit 5
  if go && (mbxBusy d s || !(coxState d = 1 || coxState d = 2)) then (d, .badState)
  else
    let op := bitsOf v 0 5
    let fn := bitsOf v 12 4
    let d := (d.setFld 0x141 (mbxOff s) 0 5 op).setFld 0x141 (mbxOff s) 12 4 fn
    if !go then (d, .ok)
    else
      let d := (d.setFld 0x141 (mbxOff s) 6 1 0).setFld 0x141 (mbxOff s + 4) 16 11 0
      match mbxCommand d s op fn x with
      | (d, some st, n) => (d.mbxEnd s st n, .ok)
      | (d, none, _) => (d, .ok)

/-- What the Cox would read for a slot's command where the command does not carry it: words at the slot's address, and outcomes nobody
states. DESIGN CHOICE: log entry 95. -/
def freeImage (d : Dev) (s : Nat) : CoxImage × Dev :=
  ({ words := (List.range ((mbxXlen d s + 15) / 16)).map (Config.freeWord d.free), sigOk := Config.freeBit d.free 0,
     version := Config.freeNat d.free % 65536, epoch := Config.freeNat (d.free + 1) % 65, entry := BitVec.ofNat 32 (Config.freeNat (d.free + 2)),
     fuseOk := Config.freeBit d.free 1 }, { d with free := d.free + 3 })

/-- The go of a command that reads nothing outside the Cox. DESIGN CHOICE: log entry 95. -/
def mbxGo (r : Req) (s : Fin 17) (op fn : Nat) (x : CoxImage) (st : State) : Host.Outcome State Fault Refusal :=
  st.run (fun d => d.regCmd r 0x141 (mbxOff s.val) (BitVec.ofNat 32 (op + 32 + fn * 4096)) (mbxCtlWriter x))

def execIdentity (r : Req) (s : Fin 17) (st : State) : Host.Outcome State Fault Refusal := mbxGo r s 1 0 {} st
def execTenantEntry (r : Req) (s : Fin 17) (st : State) : Host.Outcome State Fault Refusal := mbxGo r s 2 0 {} st
def execTenantKey (r : Req) (s : Fin 17) (st : State) : Host.Outcome State Fault Refusal := mbxGo r s 3 0 {} st
def execOwnerKey (r : Req) (s : Fin 17) (st : State) : Host.Outcome State Fault Refusal := mbxGo r s 4 0 {} st
def execGrant (r : Req) (s : Fin 17) (st : State) : Host.Outcome State Fault Refusal := mbxGo r s 5 0 {} st
def execSessionOpen (r : Req) (s : Fin 17) (st : State) : Host.Outcome State Fault Refusal := mbxGo r s 6 0 {} st
def execSessionResponse (r : Req) (s : Fin 17) (st : State) : Host.Outcome State Fault Refusal := mbxGo r s 6 1 {} st
def execRevoke (r : Req) (s : Fin 17) (st : State) : Host.Outcome State Fault Refusal := mbxGo r s 7 0 {} st
def execAttest (r : Req) (s : Fin 17) (st : State) : Host.Outcome State Fault Refusal := mbxGo r s 8 0 {} st
/-- COX_FW, with the image at the slot's address. -/
def execCoxFw (r : Req) (s : Fin 17) (x : CoxImage) (st : State) : Host.Outcome State Fault Refusal := mbxGo r s 9 0 x st
def execSysFw (r : Req) (s : Fin 17) (x : CoxImage) (st : State) : Host.Outcome State Fault Refusal := mbxGo r s 10 0 x st
/-- FUSE_PROG, with whether the programmed field verifies. -/
def execFuseProg (r : Req) (s : Fin 17) (ok : Bool) (st : State) : Host.Outcome State Fault Refusal := mbxGo r s 11 0 { fuseOk := ok } st
def execZeroiseK (r : Req) (s : Fin 17) (st : State) : Host.Outcome State Fault Refusal := mbxGo r s 12 1 {} st
def execZeroiseB (r : Req) (s : Fin 17) (st : State) : Host.Outcome State Fault Refusal := mbxGo r s 12 2 {} st
def execZeroiseD (r : Req) (s : Fin 17) (st : State) : Host.Outcome State Fault Refusal := mbxGo r s 12 3 {} st
def execReadmit (r : Req) (s : Fin 17) (st : State) : Host.Outcome State Fault Refusal := mbxGo r s 13 0 {} st
def execBbInit (r : Req) (s : Fin 17) (st : State) : Host.Outcome State Fault Refusal := mbxGo r s 14 0 {} st

/-! ### Sensors, lockstep and expiry (R526, R533, R547, R548, R553) -/

/-- Wake reloads cannot be completed without the Cox. -/
def wakesFail (d : Dev) : Dev := d.wakeQueue.foldl (fun (d : Dev) i => wakeReloadDone d i false) d

/-- A record of fatal severity from the Cox (R594). -/
def coxFatal (d : Dev) (b : Nat) : Dev :=
  let d := d.orReg 0x141 R.COX_EVENTS (bit b)
  d.emit (.ev ⟨0x141, 0, 2 * 4096 + 21 * 64 + b, 5, d.reg 0x141 R.COX_EVENTS, 0, 0, 0, 0, d.dtime⟩)

/-- LOCKSTEP_MISMATCH: HALTED; key memory is cleared, with the grants that have no open session; nothing more is assigned.
DEDUCED: log entry 99. -/
def lockstep (d : Dev) : Dev :=
  let d := coxFatal (d.setFld 0x141 R.COX_STATUS 0 3 3) 0
  let d := { d with roots := [], wipes := [] }
  wakesFail (loadStop (grantsDrop d (fun g => g.2.sess.isNone)))

def execLockstepMismatch (s : State) : Host.Outcome State Fault Refusal := s.run lockstep

/-- TAMPER by a sensor: 0 voltage, 1 clock, 2 temperature. -/
def tamper (d : Dev) (k : Nat) : Dev :=
  let d := if policy d 6 then zeroiseD d none else zeroiseK d
  wakesFail (loadStop (coxFatal (d.setFld 0x141 R.COX_STATUS 0 3 4) (1 + k)))

def execTamper (k : Fin 3) (s : State) : Host.Outcome State Fault Refusal := s.run (fun d => tamper d k.val)

def execGrantExpiry (g : Fin 32) (s : State) : Host.Outcome State Fault Refusal := s.run (fun d => grantsDrop d (fun e => e.1 = g.val))

def execNonceExpiry (g : Fin 32) (s : State) : Host.Outcome State Fault Refusal :=
  s.run (fun d => match grantAt d g.val with | some x => setGrant d g.val { x with nonce := none } | none => d)

def execVbattLow (s : State) : Host.Outcome State Fault Refusal :=
  s.run (fun d => { d with battery := { d.battery with low := true } })

/-! ### Sparing (R318) -/

/-- The lower-numbered free spare. -/
def freeSpare (d : Dev) : Option Nat := (List.range 16).find? (fun s => d.flag (0x150 + s) R.SCL_SYS_ROLE 4)

/-- A role's signal memberships and directed sources move from one engine to another (R584). -/
def sigMove (d : Dev) (a b : Nat) : Dev :=
  let o (s k : Nat) : Nat := R.SIG_TGT_GRP + 8 * (512 + s) + 4 * k
  let d := [0, 1].foldl (fun (d : Dev) k => (d.setReg 0x144 (o b k) (d.reg 0x144 (o a k))).setReg 0x144 (o a k) 0) d
  (d.regs.filter (fun e => ctlOff 0x144 0x2000 ≤ e.1 && e.1 < ctlOff 0x144 0x6000)).foldl (fun (d : Dev) e =>
    if bitsOf e.2.toNat 6 10 = 512 + a then d.setFld 0x144 (e.1 - ctlOff 0x144 0) 6 10 (512 + b) else d) d

/-- The record of a sparing: role, old engine, new engine; of fatal severity where the role stays unserved. DEDUCED: log entry 101. -/
def spareEvent (d : Dev) (r a : Nat) (b : Option Nat) : Dev :=
  let w := BitVec.ofNat 32
  match b with
  | some b => d.eventP 0x141 0 4 63 0 0 0 (w r) (w a) (w b)
  | none => d.emit (.ev ⟨0x141, 0, 4 * 4096 + 63 * 64 + 1, 5, 0, w r, w a, 0, 0, d.dtime⟩)

def sparing (d : Dev) (s : Nat) : Dev :=
  let node := 0x150 + s
  let r := d.fld node R.SCL_SYS_ROLE 0 4
  if !coxReady d || (d.eng (512 + s)).run ≠ 5 || (d.eng (512 + s)).outOfService || roleEngine d r ≠ some s then d
  else
    let d := (engResetRegs d (512 + s) 0).updEng (512 + s) (fun x => { x with outOfService := true })
    let d := epochReplace (d.orReg node R.SCL_SYS_ROLE 0x60) node
    match freeSpare d with
    | none => spareEvent (setRoledir d r 0) r s none
    | some b =>
      let d := (d.setReg (0x150 + b) R.SCL_SYS_ROLE (BitVec.ofNat 32 (r + 128))).setReg (0x150 + b) R.SCL_SYS_FW (d.reg node R.SCL_SYS_FW)
      let d := setRoledir (sigMove d s b) r (b + 2 ^ 31)
      sigSettle (spareEvent (roleLoad d b r) r s (some b))

def execEngineSparing (s : Fin 16) (st : State) : Host.Outcome State Fault Refusal := st.run (fun d => sparing d s.val)

/-! ### The service map (R614 to R617, R623) -/

/-- The unit that COX_SVC_SEL names, where there is one. -/
def svcUnit (d : Dev) : Option (Nat × Nat) :=
  let k := d.fld 0x141 R.COX_SVC_SEL 0 3
  let i := d.fld 0x141 R.COX_SVC_SEL 3 15
  let n := match k with | 0 => 24576 | 1 => 12288 | 2 => 512 | 3 => 16 | 4 => 8 | _ => 0
  if i < n then some (k, i) else none

def svcOut (d : Dev) (u : Nat × Nat) : Bool :=
  match u.1 with
  | 0 => (d.bram u.2).outOfService
  | 1 => (d.slice u.2).outOfService
  | 2 => (d.eng u.2).outOfService
  | 3 => (d.eng (512 + u.2)).outOfService
  | 4 => (d.dram u.2).oos
  | _ => false

def svcSet (d : Dev) (u : Nat × Nat) (on : Bool) : Dev :=
  let d := { d with svcPass := tput d.svcPass none (u.1 * 2 ^ 15 + u.2) none }
  match u.1 with
  | 0 => d.setBram u.2 { (d.bram u.2) with outOfService := on }
  | 1 => d.setSlice u.2 { (d.slice u.2) with outOfService := on }
  | 2 => (if on then engResetRegs d u.2 0 else d).updEng u.2 (fun x => { x with outOfService := on })
  | 3 => (engResetRegs d (512 + u.2) 0).updEng (512 + u.2) (fun x => { x with outOfService := on })
  | 4 => d.updDram u.2 (fun x => { x with oos := on })
  | _ => d

/-- The island of a block memory, slice or engine. -/
def svcIsland (u : Nat × Nat) : Nat := if u.1 = 0 then u.2 / 96 else if u.1 = 1 then u.2 / 48 else u.2 / 2

/-- Whether a mark is accepted. -/
def svcMarks (d : Dev) (u : Nat × Nat) : Bool :=
  match u.1 with
  | 3 => d.flag (0x150 + u.2) R.SCL_SYS_ROLE 4
  | 4 => (d.dram u.2).state ≠ 0 && (d.dram u.2).zf.isNone
  | _ => (d.isl (svcIsland u)).state = .idle

/-- The three commands, once the unit is there. -/
def svcCommand (d : Dev) (u : Nat × Nat) (c : Nat) : Dev × Status :=
  if c = 1 then
    if !svcMarks d u then (d, .badState)
    else (if u.1 = 3 then (svcSet d u true).setReg (0x150 + u.2) R.SCL_SYS_ROLE 0x20 else svcSet d u true, .ok)
  else if c = 2 then
    if u.1 = 3 || (u.1 < 3 && (d.isl (svcIsland u)).state ≠ .idle) then (d, .badState) else (svcSet d u false, .ok)
  else if u.1 = 4 || !svcOut d u then (d, .badState)
  else ({ d with svcTest := some u }, .ok)

/-- A write of COX_SVC_CTL. DEDUCED: log entry 101. -/
def svcCtlWriter : Writer := fun d _ _ _ v =>
  let c := v % 8
  if d.svcTest.isSome then (d, .badState)
  else if c = 0 then (d, .ok)
  else
    let (d, st) := if c = 1 || c = 2 || c = 4 then (match svcUnit d with | some u => svcCommand d u c | none => (d, .badState)) else (d, .badState)
    (d.setFld 0x141 R.COX_SVC_CTL 4 4 st.code, st)

def svcCtl (r : Req) (v : Word) (s : State) : Host.Outcome State Fault Refusal :=
  s.run (fun d => d.regCmd r 0x141 R.COX_SVC_CTL v svcCtlWriter)

def execSvcMark (r : Req) (s : State) : Host.Outcome State Fault Refusal := svcCtl r 1 s
def execSvcUnmark (r : Req) (s : State) : Host.Outcome State Fault Refusal := svcCtl r 2 s
def execSvcTest (r : Req) (s : State) : Host.Outcome State Fault Refusal := svcCtl r 4 s

/-- Contents after a test: zero. -/
def svcBlank (d : Dev) (u : Nat × Nat) : Dev :=
  let sram (e : Nat) : Dev := d.updEng e (fun x => { x with imem := [], dmem := [], ierr := [], derr := [] })
  match u.1 with
  | 0 => { d with rows := tdrop d.rows (fun k => k / 512 = u.2) }
  | 1 => d.setSlice u.2 (d.slice u.2).cleared
  | 2 => sram u.2
  | _ => sram (512 + u.2)

/-- SVC_TEST_DONE: passed or not, and where it failed first as COX_SVC_INFO codes it in [22:0]. DEDUCED: log entry 101. -/
def svcTestDone (d : Dev) (pass : Bool) (info : BitVec 23) : Dev :=
  match d.svcTest with
  | none => d
  | some u =>
    let d := svcBlank { d with svcTest := none, svcPass := tput d.svcPass none (u.1 * 2 ^ 15 + u.2) (some pass) } u
    let d := d.setReg 0x141 R.COX_SVC_INFO (if pass then 0 else info.setWidth 32 ||| bit 31)
    d.eventP 0x141 0 (if pass then 3 else 4) 63 2 0 (d.reg 0x141 R.COX_SVC_INFO) (BitVec.ofNat 32 u.1) (BitVec.ofNat 32 u.2) 0

def execSvcTestDone (pass : Bool) (info : BitVec 23) (s : State) : Host.Outcome State Fault Refusal := s.run (fun d => svcTestDone d pass info)

def svcCtlView (d : Dev) : Word := d.reg 0x141 R.COX_SVC_CTL ||| (if d.svcTest.isSome then 8 else 0)
def svcStatusView (d : Dev) : Word :=
  let f (c : Bool) (k : Nat) : Nat := if c then 2 ^ k else 0
  match svcUnit d with
  | none => 0
  | some u =>
    let t := tget d.svcPass none (u.1 * 2 ^ 15 + u.2)
    BitVec.ofNat 32 (f (svcOut d u) 0 + f (u.1 = 4 && svcOut d u && !(d.dram u.2).queue.isEmpty) 1 + f t.isSome 2 + f (t = some true) 3)
def svcCountView (d : Dev) (k : Nat) : Word :=
  BitVec.ofNat 32 (match k with
  | 0 => (d.brams.filter (fun e => e.2.outOfService)).length
  | 1 => (d.slices.filter (fun e => e.2.outOfService)).length
  | 2 => (d.engines.filter (fun e => e.1 < 512 && e.2.outOfService)).length
  | 3 => (d.engines.filter (fun e => 512 ≤ e.1 && e.2.outOfService)).length
  | _ => (d.drams.filter (fun e => e.2.oos)).length)

end Sys2Proof.Machine
end

