-- ==== Sys2Proof/Machine/Debug.lean ====
section
/-! DEFINITION. Run control: the access ports of the debug hub (R565, R566), cycle-stealing access to design state (R567, R568), the
trigger unit's controls (R578) and debug halts (R574). -/

namespace Sys2Proof.Machine

/-! ### Access ports -/

/-- The right a register of this device needs, of the grant's six: 2 triggers and stroke control, 3 engine debug, 4 configuration
read-back, 0 other reads, 1 other writes. `p`: the session's principal. -/
def rightFor (p node off : Nat) (write : Bool) : Nat :=
  let other := if write then 1 else 0
  match nodeKind node with
  | some .isl =>
    if off = R.STK_CTL || off = R.STK_LIMIT || off = R.STK_LIMIT + 4 || off = R.STK_HOLD || off = R.STK_HOLD + 4 || (0x7000 ≤ off ∧ off < 0x7400) then 2
    else if 0x3000 ≤ off ∧ off < 0x4000 then 3
    else if off = R.DBG_FRAME_SEL || (R.DBG_FRAME_DATA ≤ off ∧ off < R.DBG_FRAME_DATA + 16) then 4
    else other
  | some .sys => if off < 0x800 then 3 else other
  | some .dbgh => if 0x100 ≤ off ∧ off < 0x600 then 2 else other
  | some .cfg => if R.CRW_CMD_CTL + 0x40 * p ≤ off ∧ off < R.CRW_CMD_CTL + 0x40 * (p + 1) then 2 else other
  | _ => other

/-- Whether the grant of a session lets an operation through: 32 or 128 bits at a device address, on what its signer holds at that moment
(R43, R546). DEDUCED: log entry 103. -/
def apAllowed (d : Dev) (x : Grant) (wide write : Bool) (addr : Nat) : Bool :=
  let a := localAddr addr
  if deviceOf addr ≠ d.devId then false
  else if inControl addr then
    let off := controlOff addr
    let node := off / 0x10000
    match nodeKind node with
    | none => false
    | some k => (k ≠ .isl || (x.islands.getLsbD node && d.owner node = x.prin)) && x.rights.testBit (rightFor x.prin node (off % 0x10000) write)
  else if inDram addr then wide && x.granules.getLsbD (a / 2 ^ 30 % 1024) && granOwner d (a / 2 ^ 30) = x.prin && x.rights.testBit 5
  else false

/-- An operation ends: read data, status, and the address moves on with autoinc. DEDUCED: log entry 103. -/
def apDone (d : Dev) (k : Nat) (st : Status) (data : List W128) : Dev :=
  let wide := d.flag 0x143 (apCtl k) 0
  let addr := (d.reg64 0x143 (apCtl k + 8)).toNat % 2 ^ 52
  let d := if d.flag 0x143 (apCtl k) 1 then d
    else match data with
      | u :: _ => d.setReg128 0x143 (apCtl k + 16) (if wide then u else u.extractLsb' (8 * (addr % 16)) 32 |>.setWidth 128)
      | [] => d
  let d := if d.flag 0x143 (apCtl k) 2 then d.setReg64 0x143 (apCtl k + 8) (BitVec.ofNat 64 ((addr + if wide then 16 else 4) % 2 ^ 52)) else d
  apEnd d k st

/-- The response of an operation's request arrives. -/
def apResponse (d : Dev) (unit tag : Nat) (st : Status) (data : List W128) : Dev :=
  if tget d.apTag 0 unit = tag + 1 then apDone d unit st data else d

/-- go in DBG_AP_CTL (R566). -/
def apGo (d : Dev) (k : Nat) : Dev :=
  let d := d.setFld 0x143 (apCtl k) 4 1 0
  let wide := d.flag 0x143 (apCtl k) 0
  let write := d.flag 0x143 (apCtl k) 1
  let addr := (d.reg64 0x143 (apCtl k + 8)).toNat % 2 ^ 52
  match pathGrant d k with
  | none => apDone (hubEvent d 0) k .denied []
  | some (_, x) =>
    if !apAllowed d x wide write addr then apDone (hubEvent d 0) k .denied []
    else
      let tag := freeTag d 0x143 k
      let v := d.reg128 0x143 (apCtl k + 16)
      let data := if !write then [] else if wide then [v] else [BitVec.ofNat 128 ((v.toNat % 2 ^ 32) * 2 ^ (8 * (addr % 16)))]
      let cmd := if write then (if wide then 8 else 0xB) else if wide then 1 else 4
      let (d, r) := d.request 0x143 k cmd tag (if cmd = 4 then 0 else 1) 0 1 0 true x.prin addr data
      match r with
      | some st => apDone d k st []
      | none => { d with apTag := tput d.apTag 0 k (tag + 1) }

/-- DEDUCED: log entry 96. -/
def apCtlWriter : Writer := fun d _ node off v =>
  let k := (off - R.DBG_AP_CTL) / 0x80
  if v.testBit 3 && !d.flag node off 4 then (d, .badState)
  else
    let d := d.setFld node off 0 3 (v % 8)
    (if v.testBit 3 then apGo d k else d, .ok)

/-- AP_GO on the access port of a path, with size, write and autoinc as given. -/
def execApGo (r : Req) (k : Fin 18) (c : BitVec 3) (s : State) : Host.Outcome State Fault Refusal :=
  s.run (fun d => d.regCmd r 0x143 (apCtl k.val) (c.setWidth 32 ||| 8) apCtlWriter)

/-! ### Flip-flops and frames (R567, R568) -/

/-- Whether an island serves accesses to flip-flops and slices: not RESTORING, asleep or EVICTING; in joined mode only with its clocks
gated. An emulated sleep serves as FEATHERED. -/
def stateServed (d : Dev) (i : Nat) : Bool :=
  let x := d.isl i
  x.state ≠ .restoring && x.state ≠ .evicting && (x.state ≠ .sleep || x.sleepEmulated) && (strokeMode d i || !isRunning x.state)

def accBusy (d : Dev) (i : Nat) : Bool := d.flag i R.DBG_ACC_STATUS 4
def accEnd (d : Dev) (i : Nat) (st : Status) : Dev :=
  ((d.updIsl i (fun x => { x with stateAccess := 0 })).setFld i R.DBG_ACC_STATUS 4 1 0).setFld i R.DBG_ACC_STATUS 0 4 st.code

/-- The access that an island has pending takes place: 1 flip-flop read, 2 flip-flop write, 3 frame read-back. -/
def accServe (d : Dev) (i : Nat) : Dev :=
  let clu := d.fld i R.DBG_FF_SEL 0 13
  match (d.isl i).stateAccess with
  | 1 => if stateServed d i then accEnd (d.setReg64 i R.DBG_FF_DATA (d.ff i clu)) i .ok else accEnd d i .badState
  | 2 => if stateServed d i then accEnd (d.setFf i clu (d.reg64 i R.DBG_FF_DATA)) i .ok else accEnd d i .badState
  | 3 =>
    let x := d.isl i
    if x.state = .idle || x.state = .evicting || (x.state = .sleep && !x.sleepEmulated) then accEnd d i .badState
    else
      let f := d.frame i (d.fld i R.DBG_FRAME_SEL 0 13)
      accEnd (d.setReg128 i R.DBG_FRAME_DATA (f.value.extractLsb' (128 * d.fld i R.DBG_FRAME_SEL 13 5) 128)) i .ok
  | _ => d

/-- A state access starts: served at once where the island is not inside a stroke; a frame is read through the configuration port. -/
def accStart (d : Dev) (i k : Nat) : Dev :=
  let d := (d.updIsl i (fun x => { x with stateAccess := k })).setFld i R.DBG_ACC_STATUS 4 1 1
  if k ≠ 3 && midStroke d i then d else accServe d i

def ffSelWriter : Writer := fun d _ node off v =>
  if accBusy d node || 4799 < v % 8192 then (d, .badState) else (accStart (d.setReg node off (BitVec.ofNat 32 (v % 8192))) node 1, .ok)
def ffDataWriter : Writer := fun d _ node off v =>
  if accBusy d node then (d, .badState) else (accStart (d.setReg64 node off (BitVec.ofNat 64 v)) node 2, .ok)
/-- DEDUCED: log entry 103. -/
def frameSelWriter : Writer := fun d _ node off v =>
  if accBusy d node || 4607 < v % 8192 then (d, .badState) else (accStart (d.setReg node off (BitVec.ofNat 32 (v % 2 ^ 18))) node 3, .ok)

def execFfRead (r : Req) (i : Isl) (v : Word) (s : State) : Host.Outcome State Fault Refusal :=
  s.run (fun d => d.regCmd r i.val R.DBG_FF_SEL v ffSelWriter)
def execFfWrite (r : Req) (i : Isl) (v : Word) (s : State) : Host.Outcome State Fault Refusal :=
  s.run (fun d => d.regCmd r i.val R.DBG_FF_DATA v ffDataWriter)
def execFrameReadback (r : Req) (i : Isl) (v : Word) (s : State) : Host.Outcome State Fault Refusal :=
  s.run (fun d => d.regCmd r i.val R.DBG_FRAME_SEL v frameSelWriter)

/-! ### Trigger unit and debug halt -/

def trgWriter : Writer := fun d _ node _ v => trgCtlWriter d node v

def execTriggerArm (r : Req) (i : Isl) (s : State) : Host.Outcome State Fault Refusal :=
  s.run (fun d => d.regCmd r i.val R.DBG_TRG_CTL 1 trgWriter)
def execTriggerDisarm (r : Req) (i : Isl) (s : State) : Host.Outcome State Fault Refusal :=
  s.run (fun d => d.regCmd r i.val R.DBG_TRG_CTL 2 trgWriter)

/-- A comparator's configuration: op 6 and 7 are refused (R570). -/
def cmpCfgWriter : Writer := fun d r node off v => if 6 ≤ bitsOf v 3 3 then (d, .badState) else storeWriter d r node off v

/-- The principal whose area of the debug hub holds an offset. -/
def hubArea (off : Nat) : Nat := (off - 0x100) / 0x20

def haltCtlWriter : Writer := fun d _ _ off v =>
  match v % 4 with
  | 0 => (d, .ok)
  | 1 => (debugHalt d (hubArea off) 1, .ok)
  | 2 => (debugResume d (hubArea off), .ok)
  | _ => (d, .badState)

def execDebugHalt (r : Req) (t : Fin 16) (s : State) : Host.Outcome State Fault Refusal :=
  s.run (fun d => d.regCmd r 0x143 (dbgArea R.DBG_HALT_CTL t.val) 1 haltCtlWriter)
def execDebugResume (r : Req) (t : Fin 16) (s : State) : Host.Outcome State Fault Refusal :=
  s.run (fun d => d.regCmd r 0x143 (dbgArea R.DBG_HALT_CTL t.val) 2 haltCtlWriter)

/-- The last sample of the port DBG_PROBE_SEL names (R569). -/
def probeView (d : Dev) (i : Nat) : W128 := tget (d.isl i).probe 0 (d.fld i R.DBG_PROBE_SEL 0 3)

end Sys2Proof.Machine
end

