-- ==== Sys2Proof/Machine/EventLog.lean ====
section
/-! DEFINITION. The event log (R593 to R603). -/

namespace Sys2Proof.Machine

/-! ### Storing (R597, R599) -/

def Dev.withLog (d : Dev) (f : EvLog → EvLog) : Dev := { d with evlog := f d.evlog }

/-- A sticky LOG_EVENTS bit with its record, where the bit is not already set. -/
def logEvent (d : Dev) (b : Nat) : Dev := if d.flag 0x145 R.LOG_EVENTS b then d else d.sticky 0x145 0 25 b R.LOG_EVENTS

/-- Put a record into its slot: the first-kept area, then the circulating area, whose oldest record it replaces; during a flash
copy that area is not overwritten (R597, R602). -/
def logStore (d : Dev) (e : Ev) : Dev :=
  let l := d.evlog
  let s : LogSlot := ⟨l.next, e⟩
  if l.first.length < 256 then
    let d := d.withLog (fun l => { l with first := l.first ++ [s], next := l.next + 1 })
    if l.first.length = 255 then logEvent d 0 else d
  else if l.circ.length < 1792 then d.withLog (fun l => { l with circ := l.circ ++ [s], next := l.next + 1 })
  else if l.copying.isSome then d.withLog (fun l => { l with copyLost := l.copyLost + 1 })
  else logEvent (d.withLog (fun l => { l with circ := l.circ.drop 1 ++ [s], next := l.next + 1 })) 1

/-- The budget a record is charged to: its key and its limit; entries of LOG_RATE as in force for the window. Codes of classes 12 to
15 are budgeted for each principal tag. DEDUCED: log entries 47 and 52. -/
def budgetOf (d : Dev) (e : Ev) : Nat × Nat :=
  let c := e.code / 4096 % 16
  let tag := if 12 ≤ c then e.tag % 16 else 0
  match (List.range 512).find? (fun k =>
      let w := tget d.evlog.rates (regReset 0x145 R.LOG_RATE) k
      w.getLsbD 31 && w.toNat % 65536 = e.code % 65536) with
  | some k => (k * 16 + tag, bitsOf (tget d.evlog.rates 0 k).toNat 16 8)
  | none => ((512 + c) * 16 + tag, d.fld 0x145 (R.LOG_CLASS_BUDGET + 4 * c) 0 8)

/-- A fatal record was stored with this seq: the Cox copies the log to flash, or will after the next reset (R602). -/
def logFatal (d : Dev) (q : Word) : Dev :=
  if !d.flag 0x145 R.LOG_CFG 0 then d
  else if coxState d = 3 || coxState d = 4 then d.withLog (fun l => { l with copyPending := some q })
  else if d.evlog.copying.isSome then d.withLog (fun l => { l with copyNext := some q })
  else d.withLog (fun l => { l with copying := some q })

/-- A record reaches the log: charged to its budget, stored with the next seq, or suppressed and counted. Fatal records and the
log's own are never charged. -/
def logArrive (d : Dev) (e : Ev) : Dev :=
  if e.sev = 5 then
    let q := d.evlog.next
    let d := logStore d e
    if d.evlog.next = q then d else logFatal d q
  else if e.node = 0x145 then logStore d e
  else
    let (k, n) := budgetOf d e
    if n ≠ 255 && n ≤ tget d.evlog.used 0 k then
      logEvent (d.withLog (fun l => { l with suppressed := tput l.suppressed 0 k (tget l.suppressed 0 k + 1) })) 2
    else logStore (d.withLog (fun l => { l with used := tput l.used 0 k (tget l.used 0 k + 1) })) e

def execEventRecord (e : Ev) (s : State) : Host.Outcome State Fault Refusal := s.run (fun d => logArrive d e)

/-- A record the log writes itself. DEDUCED: log entry 52. -/
def ownRecord (d : Dev) (code sev : Nat) (p0 p1 p2 : Nat) (tag : Nat) : Ev :=
  ⟨0x145, 0, code, sev, BitVec.ofNat 32 p0, BitVec.ofNat 32 p1, BitVec.ofNat 32 p2, 0, tag, d.dtime⟩

/-! ### Flash copy (R602) -/

/-- The copy ends: its outcome bits, the records lost meanwhile, and the next copy. DEDUCED: log entry 52. -/
def flashCopyDone (d : Dev) (ok : Bool) : Dev :=
  match d.evlog.copying with
  | none => d
  | some q =>
    let lost := d.evlog.copyLost
    let d := d.withLog (fun l => { l with copying := l.copyNext, copyNext := none, copyLost := 0 })
    let d := d.setReg 0x145 R.LOG_FLASH_SEQ q
    let d := d.emit (.flashLog ok ((d.evlog.first ++ d.evlog.circ).map (fun s =>
      if s.ev.tag = 0 then s else { s with ev := { s.ev with p0 := 0, p1 := 0, p2 := 0, p3 := 0 } })))
    let d := d.sticky 0x145 0 25 (if ok then 3 else 4) R.LOG_EVENTS
    if lost = 0 then d else logStore d (ownRecord d 2 0 0 lost 0 0)

/-- Whether a load reads the boot flash, for which a copy waits (R516, R602). -/
def flashLoading (d : Dev) : Bool := d.load.any (fun l => l.source = 1)

def execFlashCopyDone (ok : Bool) (s : State) : Host.Outcome State Fault Refusal :=
  s.run (fun d => if flashLoading d then d else flashCopyDone d ok)

/-! ### Engine-written records (R598) -/

/-- The commit write of LOG_WR_0 with the staged words: bytes 0 to 31 of the record as a number. -/
def logWrWriter : Writer := fun d r _ _ v =>
  let code := bitsOf v 0 16
  let sev := bitsOf v 16 4
  if code / 4096 < 12 || 5 < sev then (logEvent d 5, .ok)
  else
    let p (k : Nat) : Word := BitVec.ofNat 32 (bitsOf v (128 + 32 * k) 32)
    (logArrive d ⟨r.node % 1024, if r.node < 256 then r.unit % 4 else 0, code, sev, p 0, p 1, p 2, p 3, r.tenant % 16, d.dtime⟩, .ok)

def execLogWr (r : Req) (v : Word) (s : State) : Host.Outcome State Fault Refusal :=
  s.run (fun d => d.regCmd r 0x145 R.LOG_WR v logWrWriter)

/-! ### Windows (R599, R600) -/

/-- The code a budget's summary names. -/
def budgetCode (d : Dev) (k : Nat) : Nat :=
  if k / 16 < 512 then (tget d.evlog.rates 0 (k / 16)).toNat % 65536 else (k / 16 - 512) * 4096 + 0xFFF

/-- A window ends: one summary for each budget that suppressed records, at most 32, and an overflow record for the rest; budgets
start afresh with the LOG_RATE entries as they stand. DEDUCED: log entry 52. -/
def logWindowEnd (d : Dev) : Dev :=
  let sup := d.evlog.suppressed
  let rest := sup.drop 32
  let d := (sup.take 32).foldl (fun (d : Dev) (e : Nat × Nat) =>
    logStore d (ownRecord d 1 1 (budgetCode d e.1) e.2 (e.1 % 16) (e.1 % 16))) d
  let d := if rest.isEmpty then d else logStore d (ownRecord d 2 0 rest.length (rest.foldl (fun a e => a + e.2) 0) 0 0)
  let rates := (List.range 512).foldl (fun (t : Tab Word) k =>
    tput t (regReset 0x145 R.LOG_RATE) k (d.reg 0x145 (R.LOG_RATE + 4 * k))) []
  d.withLog (fun l => { l with used := [], suppressed := [], rates := rates })

def execLogWindowEnd (s : State) : Host.Outcome State Fault Refusal := s.run logWindowEnd

/-! ### Clear and read (R597, R601, R603) -/

def logCtlClearWriter : Writer := fun d _ _ _ v =>
  if v % 2 = 0 then (d, .ok)
  else if d.evlog.copying.isSome then (d, .badState)
  else
    let d := d.withLog (fun l => { l with first := [], circ := [] })
    (logStore d (ownRecord d 3 0 d.evlog.next.toNat 0 0 0), .ok)

def execLogClear (r : Req) (s : State) : Host.Outcome State Fault Refusal :=
  s.run (fun d => d.regCmd r 0x145 R.LOG_CTL 1 logCtlClearWriter)

/-- The accessor a selection belongs to: the node, and at the host interface the function. -/
def logReader (r : Req) : Nat := r.node * 32 + (if r.node = 0x140 then r.unit else 0)

def logSelWriter : Writer := fun d r _ _ v =>
  (d.withLog (fun l => { l with sel := tput l.sel 0 (logReader r) (BitVec.ofNat 32 v) }), .ok)

def execLogRdSeq (r : Req) (v : Word) (s : State) : Host.Outcome State Fault Refusal :=
  s.run (fun d => d.regCmd r 0x145 R.LOG_RD_SEQ v logSelWriter)

/-- A record as a principal sees it (R46). -/
def logFilter (t : Nat) (s : LogSlot) : LogSlot :=
  if s.ev.tag = 0 || s.ev.tag = t then s
  else { s with ev := { s.ev with
      code := if 12 ≤ s.ev.code / 4096 then s.ev.code / 4096 * 4096 else s.ev.code, p0 := 0, p1 := 0, p2 := 0, p3 := 0 } }

def logHeld (d : Dev) : List LogSlot := d.evlog.first ++ d.evlog.circ

/-- The 32 bytes of a record (R593) as a number. -/
def recNum (s : LogSlot) : Nat :=
  let e := s.ev
  let src := e.node % 1024 + e.sub % 4 * 1024
  e.code % 65536 + e.sev % 16 * 2 ^ 16 + src * 2 ^ 20 + s.seq.toNat * 2 ^ 32 + e.time.toNat * 2 ^ 64
    + e.p0.toNat * 2 ^ 128 + e.p1.toNat * 2 ^ 160 + e.p2.toNat * 2 ^ 192 + e.p3.toNat * 2 ^ 224

/-- The record a reader has selected, as it sees it. -/
def logSelected (d : Dev) (r : Req) : Option LogSlot :=
  ((logHeld d).find? (fun s => s.seq = tget d.evlog.sel 0 (logReader r))).map (logFilter r.tenant)

def logDataView (d : Dev) (r : Req) (k : Nat) : Word :=
  match logSelected d r with
  | some s => BitVec.ofNat 32 (recNum s / 2 ^ (32 * k))
  | none => 0

def logInfoView (d : Dev) (r : Req) : Word :=
  match logSelected d r with
  | some s => BitVec.ofNat 32 (1 + (if s.ev.tag = 0 || s.ev.tag = r.tenant then 0 else 2) + s.ev.tag % 16 * 4)
  | none => 0

def logStatusView (d : Dev) : Word :=
  BitVec.ofNat 32 (d.evlog.first.length + d.evlog.circ.length * 512 + (if d.evlog.copyPending.isSome then 2 ^ 31 else 0))

/-- The seq of an area's oldest record, or of the next record while the area is empty. -/
def logOldest (d : Dev) (l : List LogSlot) : Word := match l with | s :: _ => s.seq | [] => d.evlog.next

end Sys2Proof.Machine
end

