-- ==== Sys2Proof/Machine/Standby.lean ====
section
/-! DEFINITION. Standby (R204, R205, R576): entry, which feathers what runs and waits for what is in progress, and exit. -/

namespace Sys2Proof.Machine

/-- Entry feathers an island at its next stroke boundary, or stops its joined group's clocks. -/
def standbyFeatherIsland (d : Dev) (i : Nat) : Dev :=
  let x := d.isl i
  if !isRunning x.state then d
  else
    let d := d.setIsl i { x with featheredByStandby := true }
    if !strokeMode d i then d.goState i .feathered
    else if x.phase = 1 then featherNow d i
    else d

/-- Steps 1 and 3 of entry, which a load delays (R522): what runs is feathered; channels are paused once drains and restores are complete. -/
def standbyFeather (d : Dev) : Dev :=
  if d.load.isSome then d else pauseAll (regionAdvance ((d.islands.map (·.1)).foldl standbyFeatherIsland d))

/-- DEDUCED: log entry 115. -/
def standbyStart (d : Dev) : Dev :=
  if inStandby d || d.standbyEntering then d
  else standbyFeather { d with standbyLinks := [], standbyEntering := true, standbyEmulated := d.flag 0x143 R.DBG_ATTACHED 0 }

/-- Nothing that entry waits for is in progress: no island runs, drains, restores, is erased, wakes or reconfigures; no load; no request
outstanding; every link's replay buffer empty, unless the links stay trained (R205, R448, R576). -/
def standbyQuiet (d : Dev) : Bool :=
  d.load.isNone && d.noc.outst.isEmpty && d.noc.inject.isEmpty &&
    d.islands.all (fun e => let x := e.2
      !isRunning x.state && !x.drainActive && x.state ≠ .restoring && x.state ≠ .evicting && !x.waking && !x.prBusy) &&
    (d.standbyEmulated || d.links.all (fun e => linkState d e.1 ≠ 2 || e.2.replay.isEmpty))

def drams8 : List Nat := List.range 8
def links32 : List Nat := List.range 32

/-- Steps 4 to 6: DRAM to self-refresh, links off; dev_state reads Standby. An emulated Standby leaves DRAM and links as they are. -/
def standbyEnter (d : Dev) : Dev :=
  let d := if d.standbyEmulated then d else
    let d := drams8.foldl (fun (d : Dev) n =>
      let s := (d.dram n).state
      if s = 2 ∨ s = 3 then d.updDram n (fun x => { x with state := 4, before := s }) else d) d
    links32.foldl (fun (d : Dev) n => if linkState d n = 0 then d else linkDiscard (leaveUp d n 0) n) d
  pauseAll ({ d with standbyEntering := false }.setFld 0x146 R.PWR_DEV_STATE 0 2 1)

/-- The event that entry's steps are complete; until then what runs is feathered, once no load delays that. -/
def standbyEntered (d : Dev) : Dev :=
  if !d.standbyEntering then d
  else
    let d := standbyFeather d
    if standbyQuiet d then standbyEnter d else d

/-- Exit, also of an entry in progress: DRAM returns to the state it left, the scrub units start a new pass, and links retrain; once none of
them trains any more, what entry feathered resumes (R205, R521). DEDUCED: log entry 115. -/
def standbyExit (d : Dev) : Dev :=
  let was := inStandby d
  if !was && !d.standbyEntering then d
  else
    let real := was && !d.standbyEmulated
    let d := ({ d with standbyEntering := false, standbyEmulated := false } : Dev).setFld 0x146 R.PWR_DEV_STATE 0 2 0
    let d := if real then
        let d := drams8.foldl (fun (d : Dev) n => d.updDram n (fun x => if x.state = 4 then { x with state := x.before } else x)) d
        let l := links32.filter (mayTrain d)
        let d := { l.foldl trainStart d with standbyLinks := l }
        (List.range 4).foldl (fun (d : Dev) q => d.setReg (0x164 + q) R.SCB_STATUS 0) d
      else d
    pauseAll (if d.standbyLinks.isEmpty then standbyResume d else d)

/-- A write of PWR_DEV_CTL: standby_req starts entry, or exit where it is written 0. -/
def devCtlWriter : Writer := fun d r node off v =>
  let (d, st) := storeWriter d r node off v
  (if v % 2 = 1 then standbyStart d else standbyExit d, st)

/-- The physical function entered D3hot with auto_standby set, or returned to D0. -/
def standbyPower (d : Dev) (wasD0 : Bool) : Dev :=
  if wasD0 && !fnD0 d 0 && d.flag 0x146 R.PWR_DEV_CTL 1 then standbyStart d
  else if !wasD0 && fnD0 d 0 then standbyExit d
  else d

/-- Standby entry starts: a write of PWR_DEV_CTL, or the physical function in D3hot with auto_standby. -/
def execStandbyRequest (r : Option Req) (v : Word) (s : State) : Host.Outcome State Fault Refusal :=
  s.run (fun d => match r with
    | some r => d.regCmd r 0x146 R.PWR_DEV_CTL (v ||| 1) devCtlWriter
    | none => d.when (!fnD0 d 0 && d.flag 0x146 R.PWR_DEV_CTL 1) standbyStart)

def execStandbyEntered (s : State) : Host.Outcome State Fault Refusal := s.run standbyEntered

/-- Standby exit: a write of PWR_DEV_CTL with standby_req 0, or the physical function's return to D0. -/
def execStandbyExit (r : Option Req) (v : Word) (s : State) : Host.Outcome State Fault Refusal :=
  s.run (fun d => match r with
    | some r => d.regCmd r 0x146 R.PWR_DEV_CTL (v &&& ~~~1#32) devCtlWriter
    | none => d.when (fnD0 d 0) standbyExit)

end Sys2Proof.Machine
end

