-- ==== Sys2Proof/Machine/Host.lean ====
section
/-! DEFINITION. The host interface (R453 to R488): channels, their descriptors, transfers and streams, control commands, accesses to host
memory, completions, vectors, and the resets of functions. -/

namespace Sys2Proof.Machine

/-! ### Descriptors (R465 to R467) -/

def jobFlag (j : Job) (b : Nat) : Bool := j.raw.getLsbD (8 + b)
def jobFld (j : Job) (lo w : Nat) : Nat := bitsOf j.raw.toNat lo w
def jobLen (j : Job) : Nat := jobFld j 32 32
def jobA (j : Job) : Nat := jobFld j 64 64
def jobB (j : Job) : Nat := jobFld j 128 64
def jobP (j : Job) : Nat := jobFld j 192 64
def jobSub (j : Job) : Nat := jobFld j 24 8
def jobFence (j : Job) : Bool := jobFlag j 1
def jobCrew (j : Job) : Bool := jobFlag j 2

/-- The fields A, B, P, length and sub-op that an opcode uses, with crew = 1 or 0; none for a reserved opcode. DEDUCED: log entry 86. -/
def opUses (op : Nat) (crew : Bool) (sub : Nat) : Option (Bool × Bool × Bool × Bool × Bool) :=
  if op = 0 then some (false, false, false, false, false)
  else if op ≤ 4 then some (true, true, false, true, false)
  else if op = 0x10 ∨ op = 0x11 then some (true, false, false, true, false)
  else if op = 0x12 then some (true, sub = 3 || sub = 4, crew, false, true)
  else if op = 0x13 then some (true, false, crew, false, false)
  else if op = 0x14 then some (true, true, true, false, false)
  else if op = 0x15 then some (crew, true, crew, false, false)
  else if op = 0x16 then some (true, false, false, true, false)
  else if op = 0x17 then some (false, true, true, true, false)
  else none

/-- A descriptor that completes MALFORMED. DEDUCED: log entry 86. -/
def jobMalformed (j : Job) : Bool :=
  let op := jobOp j
  let n := jobLen j
  match opUses op (jobCrew j) (jobSub j) with
  | none => true
  | some (a, b, p, l, sub) =>
    let dev := if op = 2 then jobA j else jobB j
    (!a && jobA j ≠ 0) || (!b && jobB j ≠ 0) || (!p && jobP j ≠ 0) || (!l && n ≠ 0) || (!sub && jobSub j ≠ 0)
      || jobFld j 14 2 ≠ 0 || jobFld j 21 3 ≠ 0
      || (jobCrew j && !(0x12 ≤ op && op ≤ 0x15)) || (jobFlag j 3 && op ≠ 4) || (jobFlag j 4 && op ≠ 0x14) || (jobFlag j 5 && op ≠ 0x13)
      || (sub && (jobSub j = 0 || 5 < jobSub j)) || (op = 0x15 && 15 < jobB j)
      || (1 ≤ op && op ≤ 4 && (n = 0 || n % 16 ≠ 0 || (if op = 4 then jobA j else dev) % 16 ≠ 0))
      || ((op = 1 || op = 2) && !(inDram dev && localAddr dev + n ≤ 2 ^ 40 && dev < 2 ^ 52))
      || (op = 0x16 && (n = 0 || n % 16 ≠ 0 || 65536 < n)) || (op = 0x17 && n % 32 ≠ 0)

/-- What a descriptor completes with before it does anything: MALFORMED, or DENIED for an issuer its opcode does not admit. -/
def jobCheck (d : Dev) (f : Nat) (j : Job) : Option (Status × Status × Nat × Nat) :=
  if jobMalformed j then some (.malformed, .ok, 0, 0)
  else if jobOp j = 0x15 && f ≠ 0 && jobB j ≠ fnTenant d f then some (.denied, .ok, 0, 0)
  else none

/-! ### Jobs -/

/-- The opened job of a channel with a submission index. -/
def jobAt (d : Dev) (c idx : Nat) : Option Job := (d.chan c).jobs.find? (fun j => j.idx = idx)
def updJob (d : Dev) (c idx : Nat) (f : Job → Job) : Dev :=
  d.updChan c (fun x => { x with jobs := x.jobs.map (fun j => if j.idx = idx then f j else j) })
def setResult (d : Dev) (c idx : Nat) (r : Status × Status × Nat × Nat) : Dev := updJob d c idx (fun j => { j with result := some r })

/-- A channel that moves its descriptors on: ACTIVE or DRAINING with its function able to reach the host. DEDUCED: log entry 87. -/
def chanRuns (d : Dev) (c : Nat) : Bool :=
  let s := (d.chan c).state
  (s = 1 || s = 3) && (match chanFn d c with | some f => chansRun d f | none => false)

/-- A fence or a control command starts only as the oldest descriptor held (R468). -/
def mayBegin (x : Chan) (j : Job) : Bool :=
  j.result.isNone && (!(jobFence j || 0x10 ≤ jobOp j) || (x.jobs.head?.map (·.idx)) = some j.idx)

/-- How a transfer whose parts have all been answered ends (R470). DEDUCED: log entry 85. -/
def transferResult (j : Job) : Status × Status × Nat × Nat :=
  match j.fails with
  | [] => (.ok, .ok, j.moved, 0)
  | e :: r =>
    let low := r.foldl (fun (a : Nat × Status) x => if x.1 < a.1 then x else a) e
    if j.okParts = 0 then (low.2, .ok, 0, 0) else (.partly, low.2, j.moved, low.1)

/-- A part at an offset has been answered: its bytes count, or its failure. A stream stops at its first failed part. -/
def partDone (d : Dev) (c idx off len : Nat) (st : Status) : Dev :=
  updJob d c idx (fun j =>
    let j := { j with parts := j.parts.filter (fun e => e.1 ≠ off) }
    let j := if st = .ok then { j with okParts := j.okParts + 1, moved := j.moved + len } else { j with fails := j.fails ++ [(off, st)] }
    let stream := jobOp j = 3 || jobOp j = 4
    if j.parts.isEmpty && (jobLen j ≤ j.next || (stream && st ≠ .ok)) && j.result.isNone then { j with result := some (transferResult j) } else j)

/-! ### Host memory (R458, R459, R485) -/

/-- A wait on host memory ended without success: host_abort. DEDUCED: log entry 84. -/
def hostAbort (d : Dev) : Dev := d.sticky 0x140 9 15 3 R.HIF_EVENTS

/-- What can be sent now is sent, in order: reads take a tag, writes are posted and done. DESIGN CHOICE: log entry 148. -/
def hostPump (d : Dev) : Dev :=
  (d.hostAccs.filter (fun a => !a.sent)).foldl (fun (d : Dev) a =>
    if !hostReady d a.fn then d
    else if a.write then
      let d := { d with hostAccs := d.hostAccs.filter (fun (x : HostAcc) => x.tag ≠ a.tag) }
      let d := d.emit (.hostWrite a.fn a.addr a.data)
      match a.use with
      | .noc p => d.respond 0x140 p .ok []
      | .part c idx off => partDone d c idx off a.len .ok
      | _ => d
    else if mayTag d a.fn then
      let d := { d with hostAccs := d.hostAccs.map (fun (x : HostAcc) => if x.tag = a.tag then { x with sent := true } else x) }
      d.emit (.hostRead a.fn a.addr a.len a.tag)
    else d) d

/-- The device issues an access to host memory. DESIGN CHOICE: log entry 148. -/
def hostIssue (d : Dev) (f : Nat) (write : Bool) (addr len : Nat) (data : List Byte) (u : HostUse) : Dev :=
  hostPump { d with hostAccs := d.hostAccs ++ [⟨freeAcc d, f, write, addr % 2 ^ 64, len, data, u, false⟩] }

/-- Bytes a NoC write carries. -/
def writeBytes (p : Pkt) : List Byte :=
  if p.cmd = 8 then p.data.flatMap (fun u => toBytes u.toNat 16)
  else ((toBytes (p.data.headD 0).toNat 16).drop (p.addr % 16)).take (cmdBytes p)

/-- Data units of a NoC read from the bytes read. -/
def unitsOf : Nat → List Byte → List W128
  | 0, _ => []
  | n + 1, l => BitVec.ofNat 128 (ofBytes (l.take 16)) :: unitsOf n (l.drop 16)
def readUnits (p : Pkt) (l : List Byte) : List W128 :=
  if p.cmd = 1 then unitsOf p.len l else [BitVec.ofNat 128 (ofBytes (l.take (cmdBytes p)) * 2 ^ (8 * (p.addr % 16)))]

/-- Whether the window of a host-memory address is assigned and its base valid (R458). -/
def hostWindow (d : Dev) (a : Nat) : Bool :=
  let w := (a - 0x200000000000) / 2 ^ 36
  let fn := d.reg 0x140 (R.HIF_HWIN_FN + 0x10 * w)
  fn.getLsbD 31 && bitsOf fn.toNat 0 5 < 17 && (d.reg64 0x140 (R.HIF_HWIN_BASE + 0x10 * w)).getLsbD 0

/-- A request reaches node 0x140 in the host-memory range, a read or write through a valid window (R458, R459; the checks before are those
of R349). DESIGN CHOICE: log entry 10. -/
def hostArrive (d : Dev) (p : Pkt) : Dev :=
  let a := localAddr p.addr - 0x200000000000
  let w := a / 2 ^ 36
  let fn := d.reg 0x140 (R.HIF_HWIN_FN + 0x10 * w)
  let f := bitsOf fn.toNat 0 5
  let base := d.reg64 0x140 (R.HIF_HWIN_BASE + 0x10 * w)
  if p.tenant ≠ fnTenant d f then (deniedHere d ⟨p.src, 0, p.tenant⟩ 0x140 0).respond 0x140 p .denied []
  else
    let addr := base.toNat / 4096 * 4096 + a % 2 ^ 36
    hostIssue d f (!isRead p) addr (cmdBytes p) (if isRead p then [] else writeBytes p) (.noc p)

/-! ### Requests of the host interface on the network -/

/-- Room for another access whose answers may need a tag each. -/
def hifRoom (d : Dev) : Bool := d.hifUses.length + d.hostAccs.length + d.noc.quarantine.length < 1024

def hifTag (d : Dev) : Nat :=
  ((List.range 1024).find? (fun t =>
    !(d.hifUses.any (fun e => e.1 = t) || d.noc.outst.any (fun o => o.node = 0x140 && o.tag = t)
      || d.noc.quarantine.any (fun e => e.1 = 0x140 && e.2.2 = t)))).getD 0

/-- A request of a function under its tenant; the status where the node completes it itself. DEDUCED: log entry 92. -/
def hifRequest (d : Dev) (f cmd len prio route page addr : Nat) (data : List W128) (u : HifUse) : Dev × Option Status :=
  let t := hifTag d
  match d.request 0x140 f cmd t len prio route page true (fnTenant d f) (addr % 2 ^ 52) data with
  | (d, none) => ({ d with hifUses := d.hifUses ++ [(t, u)] }, none)
  | (d, some st) => (d, some st)

/-- A descriptor's request, with its priority and page hint. -/
def jobRequest (d : Dev) (f : Nat) (j : Job) (cmd len route addr : Nat) (data : List W128) (u : HifUse) : Dev × Option Status :=
  hifRequest d f cmd len (jobFld j 16 3) route (jobFld j 19 2) addr data u

/-! ### Turns (R485) -/

/-- The next part of a copy: every 2 KiB boundary of its device address splits it (R469). -/
def copyPart (j : Job) : Nat :=
  let a := (if jobOp j = 2 then jobA j else jobB j) + j.next
  min (jobLen j - j.next) (2048 - a % 2048)

/-- Whether a job has a part to issue in a direction: 0 from the host, 1 to it. -/
def partReady (x : Chan) (j : Job) (dir : Nat) : Bool :=
  let idle := j.parts.isEmpty && j.words.isEmpty && !j.waiting && !j.polling && j.fails.isEmpty
  mayBegin x j && j.next < jobLen j &&
    ((jobOp j = 1 && dir = 0) || (jobOp j = 2 && dir = 1) || (jobOp j = 3 && dir = 0 && idle && 0 < j.est) || (jobOp j = 4 && dir = 1 && idle))

/-- The channel has descriptors to fetch, and no debug halt of its tenant stops fetching (R575). -/
def fetchReady (d : Dev) (f : Nat) (x : Chan) : Bool :=
  x.state = 1 && !x.fetching && x.sqHead ≠ x.sqTail && !debugFrozen d (fnTenant d f) 5

/-- Channels of a function with work waiting in a direction, ascending. -/
def waitingChans (d : Dev) (f dir : Nat) : List Nat :=
  (fnChans d f).filter (fun c => let x := d.chan c; chanRuns d c && ((dir = 0 && fetchReady d f x) || x.jobs.any (fun j => partReady x j dir)))

def weight (d : Dev) (f : Nat) : Nat := max 1 (d.fld 0x140 (R.HIF_FN_ARB + 0x10 * f) 0 8)

/-- A channel takes a turn in a direction, where one is due to it: its function has turns left in the round, and it is the function's
next channel. A round ends when every function with work waiting has had its turns. -/
def takeTurn (d : Dev) (dir f c : Nat) : Option Dev :=
  let key (g : Nat) : Nat := dir * 32 + g
  let fs := (List.range 17).filter (fun g => !(waitingChans d g dir).isEmpty)
  let turns := if fs.all (fun g => weight d g ≤ tget d.hostTurns 0 (key g)) then tdrop d.hostTurns (fun k => k / 32 = dir) else d.hostTurns
  let l := waitingChans d f dir
  let next := match l.find? (fun x => tget d.hostLast 0 (key f) ≤ x) with | some x => some x | none => l.head?
  if tget turns 0 (key f) < weight d f && next = some c then
    some { d with hostTurns := tput turns 0 (key f) (tget turns 0 (key f) + 1), hostLast := tput d.hostLast 0 (key f) (c + 1) }
  else none

/-! ### Fetching (R464) -/

/-- Up to 8 contiguous pending descriptors of an ACTIVE channel are read. -/
def fetch (d : Dev) (c : Nat) : Dev :=
  let x := d.chan c
  match chanFn d c with
  | none => d
  | some f =>
    if !chanRuns d c || !fetchReady d f x || !mayTag d f || !hifRoom d then d
    else match takeTurn d 0 f c with
      | none => d
      | some d =>
        let avail := (x.sqTail + x.sqSize - x.sqHead) % x.sqSize
        let n := min (min 8 avail) (x.sqSize - x.sqHead)
        let d := d.setChan c { x with fetching := true, sqHead := (x.sqHead + n) % x.sqSize }
        hostIssue d f false (x.sqBase.toNat + 32 * x.sqHead) (32 * n) [] (.fetch c x.sqHead n)

def execDescriptorFetch (c : ChanIx) (s : State) : Host.Outcome State Fault Refusal := s.run (fun d => fetch d c.val)

/-- A disabled channel whose descriptors have all completed is DISABLED. -/
def drainCheck (d : Dev) (c : Nat) : Dev :=
  let x := d.chan c
  if x.state = 3 && x.jobs.isEmpty && !x.fetching then d.setChan c { x with state := 0 } else d

/-- Descriptors arrive. -/
def fetched (d : Dev) (c first n : Nat) (l : List Byte) : Dev :=
  let f := (chanFn d c).getD 0
  let mk (k : Nat) : Job :=
    let j : Job := { idx := first + k, raw := BitVec.ofNat 256 (ofBytes ((l.drop (32 * k)).take 32)) }
    { j with result := jobCheck d f j }
  d.updChan c (fun x => { x with fetching := false, jobs := x.jobs ++ (List.range n).map mk })

/-! ### Copies (R469, R470) and streams (R471, R472) -/

/-- NOP completes with no action. -/
def execNopDesc (c : ChanIx) (idx : BitVec 16) (s : State) : Host.Outcome State Fault Refusal :=
  s.run (fun d =>
    match jobAt d c.val idx.toNat with
    | some j => if chanRuns d c.val && jobOp j = 0 && mayBegin (d.chan c.val) j then setResult d c.val idx.toNat (.ok, .ok, 0, 0) else d
    | none => d)

/-- The job of an opcode whose part in a direction is due: its function and the turn taken. DEDUCED: log entry 85. -/
def nextPart (d : Dev) (c idx op dir : Nat) : Option (Nat × Job × Dev) :=
  match chanFn d c, jobAt d c idx with
  | some f, some j =>
    if chanRuns d c && jobOp j = op && partReady (d.chan c) j dir && hifRoom d && (dir = 1 || mayTag d f) then
      (takeTurn d dir f c).map (fun d => (f, j, d))
    else none
  | _, _ => none

def issuePart (d : Dev) (c idx off len : Nat) : Dev :=
  updJob d c idx (fun j => { j with started := true, next := off + len, parts := j.parts ++ [(off, len)] })

/-- A part of a copy to the device: its bytes are read from the host. -/
def copyH2D (d : Dev) (c idx : Nat) : Dev :=
  match nextPart d c idx 1 0 with
  | none => d
  | some (f, j, d) =>
    let n := copyPart j
    hostIssue (issuePart d c idx j.next n) f false (jobA j + j.next) n [] (.part c idx j.next)

def execCopyH2d (c : ChanIx) (idx : BitVec 16) (s : State) : Host.Outcome State Fault Refusal := s.run (fun d => copyH2D d c.val idx.toNat)

/-- A part of a copy to the host: its units are read from the device. -/
def copyD2H (d : Dev) (c idx : Nat) : Dev :=
  match nextPart d c idx 2 1 with
  | none => d
  | some (f, j, d) =>
    let n := copyPart j
    match jobRequest (issuePart d c idx j.next n) f j 1 (n / 16) 0 (jobA j + j.next) [] (.copyOut c idx j.next n) with
    | (d, none) => d
    | (d, some st) => partDone d c idx j.next n st

def execCopyD2h (c : ChanIx) (idx : BitVec 16) (s : State) : Host.Outcome State Fault Refusal := s.run (fun d => copyD2H d c.val idx.toNat)

/-- The address of a job's ring record. -/
def jobRing (j : Job) : Nat := if jobOp j = 3 then jobB j else jobA j

/-- A stream reads QCT_SNAP_W0 of its ring. -/
def snapRead (d : Dev) (c idx : Nat) : Dev :=
  match chanFn d c, jobAt d c idx with
  | some f, some j =>
    if j.polling || !hifRoom d then d
    else match jobRequest (updJob d c idx (fun j => { j with started := true, polling := true })) f j 4 0 1 (jobRing j + 0x30) [] (.snap c idx) with
      | (d, none) => d
      | (d, some st) => partDone (updJob d c idx (fun j => { j with polling := false })) c idx j.next 0 st
  | _, _ => d

/-- Whether a stream has yet to learn its ring's space. -/
def needsSnap (x : Chan) (j : Job) : Bool :=
  mayBegin x j && jobOp j = 3 && !j.started && !j.polling

/-- The words held are pushed. -/
def pushWords (d : Dev) (f c idx : Nat) (j : Job) (off : Nat) : Dev :=
  let n := j.words.length
  match jobRequest d f j 0x10 n 1 (jobB j) j.words (.push c idx off (16 * n)) with
  | (d, none) => d
  | (d, some st) => partDone (updJob d c idx (fun j => { j with words := [] })) c idx off (16 * n) st

/-- A push of a stream into a ring to fabric: first its space, then up to 128 entries read from the host; words that a refusal left are
pushed again once there is space. -/
def streamIn (d : Dev) (c idx : Nat) : Dev :=
  match chanFn d c, jobAt d c idx with
  | some f, some j =>
    if !chanRuns d c || jobOp j ≠ 3 then d
    else if needsSnap (d.chan c) j then snapRead d c idx
    else if !j.words.isEmpty && j.result.isNone && !j.waiting && !j.polling && j.words.length ≤ j.est && hifRoom d
        && !d.hifUses.any (fun e => match e.2 with | .push c' i' _ _ => c' = c && i' = idx | _ => false) then
      pushWords (updJob d c idx (fun j => { j with est := j.est - j.words.length })) f c idx j (j.next - 16 * j.words.length)
    else match nextPart d c idx 3 0 with
      | none => d
      | some (f, j, d) =>
        let n := min (min 128 j.est) ((jobLen j - j.next) / 16)
        hostIssue (issuePart d c idx j.next (16 * n)) f false (jobA j + j.next) (16 * n) [] (.part c idx j.next)
  | _, _ => d

def execStreamIn (c : ChanIx) (idx : BitVec 16) (s : State) : Host.Outcome State Fault Refusal := s.run (fun d => streamIn d c.val idx.toNat)

/-- A pop of a stream from a ring from fabric. -/
def streamOut (d : Dev) (c idx : Nat) : Dev :=
  match nextPart d c idx 4 1 with
  | none => d
  | some (f, j, d) =>
    let n := min 128 ((jobLen j - j.next) / 16)
    match jobRequest (updJob d c idx (fun j => { j with started := true, parts := j.parts ++ [(j.next, 16 * n)] })) f j 0x11 n 1 (jobA j) [] (.pop c idx j.next) with
    | (d, none) => d
    | (d, some st) => partDone d c idx j.next 0 st

def execStreamOut (c : ChanIx) (idx : BitVec 16) (s : State) : Host.Outcome State Fault Refusal := s.run (fun d => streamOut d c.val idx.toNat)

/-- A waiting stream reads its ring's levels again. -/
def streamPoll (d : Dev) (c idx : Nat) : Dev :=
  match jobAt d c idx with
  | some j => if chanRuns d c && j.waiting && j.result.isNone then snapRead d c idx else d
  | none => d

def execStreamPoll (c : ChanIx) (idx : BitVec 16) (s : State) : Host.Outcome State Fault Refusal := s.run (fun d => streamPoll d c.val idx.toNat)

/-- A NOTIFY at node 0x140 (R472). -/
def notifyHost (d : Dev) (p : Pkt) : Dev :=
  let hit (c : Nat) : List Nat :=
    match chanFn d c with
    | some f => if fnTenant d f ≠ p.tenant then [] else
        ((d.chan c).jobs.filter (fun j => (jobOp j = 3 || jobOp j = 4) && j.waiting && j.result.isNone && jobRing j % 2 ^ 52 = p.addr)).map (·.idx)
    | none => []
  let l := (d.chans.map (·.1)).flatMap (fun c => (hit c).map (fun i => (c, i)))
  if l.isEmpty then d.countFld 0x140 R.HIF_NOTIFY_DROPS 0 32 1 else l.foldl (fun (d : Dev) e => snapRead d e.1 e.2) d

/-! ### Register batches and log reads (R474, R475) -/

/-- How a batch ends. -/
def batchResult (j : Job) : Status × Status × Nat × Nat :=
  let r := transferResult j
  (r.1, r.2.1, 16 * j.batch.length, r.2.2.2)

/-- An entry has been answered: its value and status are written back. -/
def batchNote (d : Dev) (f c idx k : Nat) (e : Nat × Word × Nat) (j : Job) (st : Status) (v : Word) : Dev :=
  let a := jobA j + 16 * k
  let d := if e.2.2 = 0 then hostIssue d f true (a + 8) 6 (toBytes v.toNat 4 ++ [0, BitVec.ofNat 8 st.code]) (.back c idx)
    else hostIssue d f true (a + 13) 1 [BitVec.ofNat 8 st.code] (.back c idx)
  updJob d c idx (fun j => if st = .ok then { j with okParts := j.okParts + 1, moved := j.moved + 16 } else { j with fails := j.fails ++ [(16 * k, st)] })

/-- Entries from the k-th on run until one is on the network. DEDUCED: log entry 86. -/
def batchRun (d : Dev) (f c idx : Nat) (j : Job) : Nat → Nat → Dev
  | 0, _ => updJob d c idx (fun j => { j with result := some (batchResult j) })
  | n + 1, k =>
    match j.batch[k]? with
    | none => updJob d c idx (fun j => { j with result := some (batchResult j) })
    | some e =>
      if !inControl e.1 || e.1 % 4 ≠ 0 || 2 ^ 52 ≤ e.1 || 1 < e.2.2 then batchRun (batchNote d f c idx k e j .malformed 0) f c idx j n (k + 1)
      else
        let data : List W128 := if e.2.2 = 1 then [e.2.1.setWidth 128 <<< (8 * (e.1 % 16))] else []
        match jobRequest d f j (if e.2.2 = 1 then 0xB else 4) data.length 1 e.1 data (.batch c idx k) with
        | (d, none) => d
        | (d, some st) => batchRun (batchNote d f c idx k e j st 0) f c idx j n (k + 1)

/-! ### Control commands (R473 to R476) -/

/-- The head descriptor of a channel, where it is a control command of this opcode that has not started. -/
def headCtl (d : Dev) (c op : Nat) : Option (Nat × Job) :=
  match chanFn d c, (d.chan c).jobs with
  | some f, j :: _ => if chanRuns d c && jobOp j = op && j.result.isNone && !j.started then some (f, j) else none
  | _, _ => none

/-- The command is handed on under a number of its own. -/
def handOn (d : Dev) (c : Nat) (j : Job) : Dev × Origin :=
  let k := (d.chan c).cmds
  (d.updChan c (fun x => { x with cmds := k + 1, jobs := x.jobs.map (fun y => if y.idx = j.idx then { y with started := true, cmd := some k } else y) }),
    .channel (k * 65536 + c))

/-- A control command runs: `act` hands it to the unit that performs it, or ends it at once with a status. -/
def runCtl (d : Dev) (c op : Nat) (act : Dev → Nat → Job → Origin → Dev × Option Status) : Dev :=
  match headCtl d c op with
  | none => d
  | some (f, j) =>
    let (d, o) := handOn d c j
    match act d f j o with
    | (d, none) => d
    | (d, some st) => setResult d c j.idx (st, .ok, 0, 0)

def loadDesc (c op : Nat) (s : State) : Host.Outcome State Fault Refusal :=
  s.run (fun d => runCtl d c op (fun d f j o =>
    if loadRefused d then (d, some .badState)
    else (channelLoad d o (if f = 0 then none else some (fnTenant d f)) (op = 0x11) (jobLen j / 16), none)))

def execCfgLoad (c : ChanIx) (s : State) : Host.Outcome State Fault Refusal := loadDesc c.val 0x10 s
def execPrLoad (c : ChanIx) (s : State) : Host.Outcome State Fault Refusal := loadDesc c.val 0x11 s

/-- A crew descriptor fills its principal's CRW slot and starts it (R473). -/
def crewDesc (d : Dev) (f op : Nat) (j : Job) (tab : List CrewEnt) (o : Origin) : Dev × Option Status :=
  let t := fnTenant d f
  let ctl := crewReg R.CRW_CMD_CTL t
  if d.flag 0x142 ctl 5 then (d, some .badState)
  else
    let d := (d.setReg64 0x142 (crewReg R.CRW_CMD_TABLE t) (BitVec.ofNat 64 (jobA j))).setReg64 0x142 (crewReg R.CRW_CMD_DEVS t) (BitVec.ofNat 64 (jobP j))
    let d := d.setReg64 0x142 (crewReg R.CRW_CMD_ARG t) (BitVec.ofNat 64 (jobB j))
    let d := d.setReg 0x142 ctl (BitVec.ofNat 32 (op + (if jobFlag j 5 then 4096 else 0) + (if jobFlag j 4 then 8192 else 0)))
    if tableHidden d t then (crewHidden d t op (some o), none)
    else (crewStart d t op (BitVec.ofNat 64 (jobP j)) tab (BitVec.ofNat 64 (jobB j)) (jobFlag j 5) (jobFlag j 4) (some o), none)

/-- The one region entry of a local command: `tab` holds what was read. -/
def localEnt (tab : List CrewEnt) : CrewEnt := tab.headD { dev := 0 }

/-- A region descriptor; `st` is how the read of its region entry ended. -/
def strokeDesc (c sub : Nat) (st : Status) (tab : List CrewEnt) (s : State) : Host.Outcome State Fault Refusal :=
  s.run (fun d =>
    match headCtl d c 0x12 with
    | none => d
    | some (_, j) =>
      if jobSub j ≠ sub then d
      else runCtl d c 0x12 (fun d f j o =>
        if jobCrew j then crewDesc d f sub j tab o
        else if st ≠ .ok then (d, some st)
        else
          let l := bitsIn (localEnt tab).mask
          match regionRefused d (fnTenant d f) l with
          | some st => (d, some st)
          | none => (regionStart d (regionOpOf sub) (fnTenant d f) l (BitVec.ofNat 64 (jobB j)) o false, none)))

def execStrokeFeather (c : ChanIx) (st : Status) (tab : List CrewEnt) (s : State) : Host.Outcome State Fault Refusal := strokeDesc c.val 1 st tab s
def execStrokeResume (c : ChanIx) (st : Status) (tab : List CrewEnt) (s : State) : Host.Outcome State Fault Refusal := strokeDesc c.val 2 st tab s
def execStrokeLimit (c : ChanIx) (st : Status) (tab : List CrewEnt) (s : State) : Host.Outcome State Fault Refusal := strokeDesc c.val 3 st tab s
def execStrokeStep (c : ChanIx) (st : Status) (tab : List CrewEnt) (s : State) : Host.Outcome State Fault Refusal := strokeDesc c.val 4 st tab s

/-- A start of a region of one device: every island checked first (R240). -/
def startRegion (d : Dev) (t : Nat) (l : List Nat) (o : Origin) : Dev × Option Status :=
  if l.any (fun i => d.owner i ≠ t) then (d, some .denied)
  else if l.isEmpty || l.any (fun i => (d.isl i).state ≠ .loaded) then (d, some .badState)
  else ((l.foldl startTogether d).finish o .ok 0, none)

def execStrokeStart (c : ChanIx) (st : Status) (tab : List CrewEnt) (s : State) : Host.Outcome State Fault Refusal :=
  s.run (fun d =>
    match headCtl d c.val 0x12 with
    | none => d
    | some (_, j) =>
      if jobSub j ≠ 5 then d
      else runCtl d c.val 0x12 (fun d f j o =>
        if jobCrew j then (d, some .badState)
        else if st ≠ .ok then (d, some st)
        else startRegion d (fnTenant d f) (bitsIn (localEnt tab).mask) o))

def execCatch (c : ChanIx) (st : Status) (tab : List CrewEnt) (s : State) : Host.Outcome State Fault Refusal :=
  s.run (fun d => runCtl d c.val 0x13 (fun d f j o =>
    if jobCrew j then crewDesc d f 5 j tab o
    else if st ≠ .ok then (d, some st)
    else
      let e := localEnt tab
      catchStart d (fnTenant d f) (bitsIn e.mask) e.base e.limit (jobFlag j 5) o none))

/-- A target map names the target of source island i in its byte i, 0xFF for the default (R466). DEDUCED: log entry 84. -/
def mapTargets (m : CatchImage) (map : List Byte) : List Nat :=
  m.sections.map (fun (x : ImgSection) =>
    let b : Byte := (map.drop x.island).headD 0xFF
    if b = 0xFF then x.island else b.toNat)

/-- A restore of the image at its region entry's base; `img` is the image read, `map` the target map where P names one. -/
def execRestore (c : ChanIx) (st : Status) (tab : List CrewEnt) (img : CatchImage) (map : List Byte) (s : State) : Host.Outcome State Fault Refusal :=
  s.run (fun d => runCtl d c.val 0x14 (fun d f j o =>
    if jobCrew j then crewDesc d f 6 j tab o
    else if st ≠ .ok then (d, some st)
    else
      let fin : Option W64 := if BitVec.ofNat 64 (jobB j) = allOnes64 then none else some (BitVec.ofNat 64 (jobB j))
      restoreStart d (fnTenant d f) img (localEnt tab).base (if jobP j = 0 then [] else mapTargets img map) (jobFlag j 4) fin o false))

def execEvict (c : ChanIx) (tab : List CrewEnt) (s : State) : Host.Outcome State Fault Refusal :=
  s.run (fun d => runCtl d c.val 0x15 (fun d f j o =>
    if jobCrew j then crewDesc d f 7 j tab o else evictStart d (fnTenant d f) (jobB j) o))

/-- A batch: its entries as read from the host run in order. -/
def execRegBatch (c : ChanIx) (st : Status) (ents : List (BitVec 64 × Word × Byte)) (s : State) : Host.Outcome State Fault Refusal :=
  s.run (fun d =>
    match headCtl d c.val 0x16 with
    | none => d
    | some (f, j) =>
      if st ≠ .ok then setResult d c.val j.idx (st, .ok, 0, 0)
      else if !hifRoom d then d
      else
        let l := (ents.take (jobLen j / 16)).map (fun (e : BitVec 64 × Word × Byte) => (e.1.toNat, e.2.1, e.2.2.toNat))
        let j := { j with started := true, batch := l }
        batchRun (updJob d c.val j.idx (fun _ => j)) f c.val j.idx j l.length 0)

/-- Records held from a sequence number on, as the principal sees them, until the length is filled. -/
def execLogRead (c : ChanIx) (s : State) : Host.Outcome State Fault Refusal :=
  s.run (fun d =>
    match headCtl d c.val 0x17 with
    | none => d
    | some (f, j) =>
      let l := ((logHeld d).filter (fun x => jobP j ≤ x.seq.toNat)).take (jobLen j / 32)
      let next := match l.getLast? with | some x => x.seq.toNat + 1 | none => jobP j
      let d := if l.isEmpty then d else
        hostIssue d f true (jobB j) (32 * l.length) (l.flatMap (fun x => toBytes (recNum (logFilter (fnTenant d f) x)) 32)) (.back c.val j.idx)
      setResult d c.val j.idx (.ok, .ok, 32 * l.length, next))

/-- A debug halt of the channel's tenant holds its timeout (R575). -/
def chanHeld (d : Dev) (c : Nat) : Bool := match chanFn d c with | some f => debugFrozen d (fnTenant d f) 5 | none => false

/-- HIF_CH_TIMEOUT expires for a descriptor that waits: a control command that has been handed on, or a stream (R476). -/
def channelTimeout (d : Dev) (c idx : Nat) : Dev :=
  match jobAt d c idx with
  | none => d
  | some j =>
    if bitsOf (d.chan c).timeout.toNat 0 16 = 0 || j.result.isSome || !j.started || chanHeld d c then d
    else if 0x10 ≤ jobOp j then setResult d c idx (.timeout, .ok, 0, 0)
    else if (jobOp j = 3 || jobOp j = 4) && j.waiting then
      setResult d c idx (if j.moved = 0 then (.timeout, .ok, 0, 0) else (.partly, .timeout, j.moved, j.next))
    else d

def execChannelTimeout (c : ChanIx) (idx : BitVec 16) (s : State) : Host.Outcome State Fault Refusal :=
  s.run (fun d => channelTimeout d c.val idx.toNat)

/-! ### Answers -/

/-- What a host read of BAR0 or BAR2 returns for a status (R35). -/
def barReadValue (st : Status) (v : Nat) (n : Nat) : List Byte :=
  if st = .ok then toBytes v n else if st = .denied then List.replicate n 0 else List.replicate n 0xFF

/-- A BAR2 read leaves for the network (R457). -/
def bar2Send (d : Dev) (w : Bar2Wait) (addr : Nat) : Dev :=
  let cmd := if w.len = 1 then 2 else if w.len = 2 then 3 else if w.len = 4 then 4 else 1
  match hifRequest d w.fn cmd (if cmd = 1 then w.len / 16 else 0) 0 1 0 addr [] (.bar2Read w.fn w.pcie w.off w.len) with
  | (d, none) => d
  | (d, some st) => (barError d w.fn w.off st true false).emit (.pcieData w.fn w.pcie w.off (barReadValue st 0 w.len))

/-- The device DRAM address of a BAR2 offset: the whole DRAM for the physical function, the tenant's k-th granule for a virtual one
(R36, R457); none outside the mapping. -/
def bar2Addr (d : Dev) (f off : Nat) : Option Nat :=
  let a := d.devId * 2 ^ 46
  if f = 0 then some (a + off)
  else
    let t := fnTenant d f
    match entryOf d t with
    | some e => if t = 0 then none else ((bitsIn e.granules)[off / 2 ^ 30]?).map (fun g => a + g * 2 ^ 30 + off % 2 ^ 30)
    | none => none

/-- Whether a BAR2 write of a function is unanswered. -/
def bar2Writing (d : Dev) (f : Nat) : Bool := d.hifUses.any (fun e => match e.2 with | .bar2Write g _ => g = f | _ => false)

/-- Reads that waited for a function's BAR2 writes leave. -/
def bar2Release (d : Dev) (f : Nat) : Dev :=
  if bar2Writing d f then d
  else
    let l := d.bar2Waits.filter (fun w => w.fn = f)
    l.foldl (fun (d : Dev) w => match bar2Addr d f w.off with | some a => bar2Send d w a | none => d)
      { d with bar2Waits := d.bar2Waits.filter (fun w => w.fn ≠ f) }

/-- A stream learns its ring's levels: free space of a ring to fabric, entries of a ring from fabric. DEDUCED: log entry 85. -/
def snapAnswer (d : Dev) (c idx : Nat) (st : Status) (v : Nat) : Dev :=
  match jobAt d c idx with
  | none => d
  | some j =>
    let d := updJob d c idx (fun j => { j with polling := false })
    if j.result.isSome then d
    else if st ≠ .ok then partDone d c idx j.next 0 st
    else
      let n := if jobOp j = 3 then 512 - (bitsOf v 0 13 + bitsOf v 16 13) else bitsOf v 0 13
      updJob d c idx (fun j => { j with est := n, fresh := true, waiting := n = 0 || n < j.words.length })

/-- A push is answered. Refused for want of space, its words stay for another try; an estimate that had just shown room makes it a
failure. -/
def pushAnswer (d : Dev) (c idx off len : Nat) (st : Status) : Dev :=
  match jobAt d c idx with
  | none => d
  | some j =>
    if st = .ok then
      partDone (updJob d c idx (fun j => { j with words := [], fresh := false, waiting := j.est = 0 && j.next < jobLen j })) c idx off len .ok
    else if st = .badState && !j.fresh then snapRead (updJob d c idx (fun j => { j with est := 0, waiting := true })) c idx
    else partDone (updJob d c idx (fun j => { j with words := [] })) c idx off len st

/-- A pop is answered: its entries go to the host; an empty answer waits, or ends the stream under until_empty. -/
def popAnswer (d : Dev) (f c idx off : Nat) (st : Status) (data : List W128) : Dev :=
  match jobAt d c idx with
  | none => d
  | some j =>
    if st ≠ .ok then partDone d c idx off 0 st
    else if data.isEmpty then
      updJob d c idx (fun j =>
        let j := { j with parts := [] }
        if jobFlag j 3 && 0 < j.moved then { j with result := some (.ok, .ok, j.moved, 0) } else { j with waiting := true })
    else
      let n := 16 * data.length
      hostIssue (updJob d c idx (fun j => { j with next := off + n, parts := [(off, n)] })) f true (jobB j + off) n
        (data.flatMap (fun u => toBytes u.toNat 16)) (.part c idx off)

/-- A response to a request of the host interface, or its own TIMEOUT. -/
def hifResponse (d : Dev) (tag : Nat) (st : Status) (data : List W128) : Dev :=
  match d.hifUses.find? (fun e => e.1 = tag) with
  | none => d
  | some (_, u) =>
    let d := { d with hifUses := d.hifUses.filter (fun e => e.1 ≠ tag) }
    let lane (off : Nat) : Nat := (data.headD 0).toNat / 2 ^ (8 * (off % 16))
    match u with
    | .bar0Read f t off =>
      let d := if st = .ok then d else barError d f off st false false
      d.emit (.pcieRead f t (if st = .ok then BitVec.ofNat 32 (lane off) else if st = .denied then 0 else 0xFFFFFFFF))
    | .bar0Write f off => if st = .ok then d else barError d f off st false true
    | .bar2Read f t off len =>
      let d := if st = .ok then d else barError d f off st true false
      d.emit (.pcieData f t off (if len < 16 then barReadValue st (lane off) len
        else if st = .ok then data.flatMap (fun u => toBytes u.toNat 16) else barReadValue st 0 len))
    | .bar2Write f off => bar2Release (if st = .ok then d else barError d f off st true true) f
    | .copyIn c idx off len => partDone d c idx off len st
    | .copyOut c idx off len =>
      (match jobAt d c idx with
      | none => d
      | some j =>
        if st ≠ .ok then partDone d c idx off len st
        else hostIssue d ((chanFn d c).getD 0) true (jobB j + off) len (data.flatMap (fun u => toBytes u.toNat 16)) (.part c idx off))
    | .push c idx off len => pushAnswer d c idx off len st
    | .pop c idx off => popAnswer d ((chanFn d c).getD 0) c idx off st data
    | .snap c idx => snapAnswer d c idx st (lane (0x30))
    | .batch c idx k =>
      (match jobAt d c idx with
      | none => d
      | some j =>
        match j.batch[k]? with
        | none => d
        | some e =>
          let f := (chanFn d c).getD 0
          batchRun (batchNote d f c idx k e j st (BitVec.ofNat 32 (lane e.1))) f c idx j (j.batch.length - k - 1) (k + 1))

/-- A part's bytes have come from the host: a copy writes them to the device, a stream pushes them. -/
def partRead (d : Dev) (f c idx off : Nat) (st : Status) (l : List Byte) : Dev :=
  match jobAt d c idx with
  | none => d
  | some j =>
    let n := ((j.parts.find? (fun e => e.1 = off)).map (·.2)).getD 0
    if st ≠ .ok then partDone d c idx off n st
    else
      let ws := unitsOf (n / 16) l
      if jobOp j = 1 then
        match jobRequest d f j 8 (n / 16) 0 (jobB j + off) ws (.copyIn c idx off n) with
        | (d, none) => d
        | (d, some st) => partDone d c idx off n st
      else
        pushWords (updJob d c idx (fun j => { j with words := ws, est := j.est - ws.length })) f c idx { j with words := ws } off

/-- An access to host memory ends: with the host's answer, or without one in time. -/
def hostEnd (d : Dev) (a : HostAcc) (st : Status) (l : List Byte) : Dev :=
  let d := { d with hostAccs := d.hostAccs.filter (fun x => x.tag ≠ a.tag) }
  let d := if st = .aborted then hostAbort d else d
  let d := match a.use with
    | .noc p => d.respond 0x140 p st (readUnits p l)
    | .fetch c first n =>
      let s := (d.chan c).state
      if s = 0 || s = 4 then d else if st = .ok then fetched d c first n l else chanError d c 1 st
    | .part c idx off => if a.write then partDone d c idx off a.len st else partRead d a.fn c idx off st l
    | .back _ _ => d
  hostPump d

/-- HOST_COMPLETION: the host answers a read: 0 with data, 1 Unsupported Request or Completer Abort, 2 a poisoned completion. -/
def execHostCompletion (tag : Nat) (how : Fin 3) (data : List Byte) (s : State) : Host.Outcome State Fault Refusal :=
  s.run (fun d =>
    match d.hostAccs.find? (fun a => a.tag = tag && a.sent && !a.write) with
    | some a => hostEnd d a (if how.val = 0 then .ok else if how.val = 1 then .aborted else .uncorrectable) data
    | none => d)

/-- HOST_TIMEOUT: no credit, no completion, or no function able to issue it, within HIF_HOST_TIMEOUT. -/
def execHostTimeout (tag : Nat) (s : State) : Host.Outcome State Fault Refusal :=
  s.run (fun d =>
    match d.hostAccs.find? (fun a => a.tag = tag) with
    | some a => hostEnd d a .aborted []
    | none => d)

/-! ### Completions (R477 to R479) -/

/-- What a finished descriptor completes with: its own result, or the outcome of the command it handed on. -/
def jobResult (d : Dev) (c : Nat) (j : Job) : Option (Status × Status × Nat × Nat) :=
  match j.result, j.cmd with
  | some r, _ => some r
  | none, some k => (d.finished.find? (fun e => e.origin = .channel (k * 65536 + c))).map (fun e =>
      (e.status, .ok, bitsOf e.n.toNat 32 32, bitsOf e.n.toNat 0 32))
  | none, none => none

/-- Host writes of a descriptor not yet sent. -/
def writesPending (d : Dev) (c idx : Nat) : Bool :=
  d.hostAccs.any (fun a => a.write && (match a.use with | .part c' i _ => c' = c && i = idx | .back c' i => c' = c && i = idx | _ => false))

/-- The oldest descriptor of a channel, finished, completes once the ring has room; `failed` says that the host fails the write.
DEDUCED: log entry 86. -/
def descComplete (d : Dev) (c : Nat) (failed : Bool) : Dev :=
  match chanFn d c, (d.chan c).jobs with
  | some f, j :: _ =>
    match jobResult d c j with
    | none => d
    | some r =>
      if !chanRuns d c || !hostReady d f || writesPending d c j.idx then d
      else if !(d.chan c).cqRoom then d.updChan c (fun x => { x with cqFull := true })
      else
        let d := match j.cmd with
          | some k => { d with finished := d.finished.filter (fun e => e.origin ≠ .channel (k * 65536 + c)) }
          | none => d
        if failed then chanError d c 2 .aborted else drainCheck (writeCompletion d f c j r) c
  | _, _ => d

def execDescriptorComplete (c : ChanIx) (failed : Bool) (s : State) : Host.Outcome State Fault Refusal :=
  s.run (fun d => descComplete d c.val failed)

/-! ### Channel registers (R460 to R462) -/

/-- The channel a function area names; none where it is not allocated to the function. -/
def selChan (d : Dev) (f : Nat) : Option Nat :=
  let c := d.fld 0x140 (fnArea f R.HIF_CH_SEL) 0 16
  if chanFn d c = some f then some c else none

def areaFn (off : Nat) : Nat := (off - 0x2000) / 0x100

/-- A write of a channel register acts on the selected channel, or is denied. -/
def chanWriter (g : Dev → Nat → Nat → Nat → Dev × Status) : Writer := fun d r node off v =>
  match selChan d (areaFn off) with
  | some c => g d (areaFn off) c v
  | none => (deniedHere d r node off, .denied)

def chanEnable (d : Dev) (f c : Nat) : Dev × Status :=
  let x := d.chan c
  let code (lo : Nat) : Nat := bitsOf x.cfg.toNat lo 4
  if blockShut d f c || x.state ≠ 0 || x.sqBase.toNat % 64 ≠ 0 || x.cqBase.toNat % 64 ≠ 0 || 12 < code 0 || 12 < code 4
      || (x.cfg.getLsbD 19 && d.fld 0x140 (R.HIF_FN_VEC + 0x10 * f) 16 12 ≤ bitsOf x.cfg.toNat 8 11) then (d, .badState)
  else
    (d.setChan c { x with
      state := if chansRun d f then 1 else 2, sqTail := 0, sqHead := 0, cqTail := 0, cqHead := 0, phase := true, cqFull := false, done := 0,
      fetching := false, jobs := [] }, .ok)

/-- DEDUCED: log entry 87. -/
def chanDisable (d : Dev) (c : Nat) : Dev :=
  let x := d.chan c
  if x.state = 1 || x.state = 2 then drainCheck (d.setChan c { x with state := 3 }) c
  else if x.state = 4 then (dropChan d c).setChan c { x with state := 0, jobs := [], fetching := false }
  else d

def chanReset (d : Dev) (c : Nat) : Dev :=
  (dropChan d c).updChan c (fun x => { x with state := 0, jobs := [], fetching := false, cqFull := false })

/-- HIF_CH_CTL: one of enable, disable and reset. -/
def chanCtlWriter : Writer := chanWriter (fun d f c v =>
  if v = 1 then chanEnable d f c else if v = 2 then (chanDisable d c, .ok) else if v = 4 then (chanReset d c, .ok) else (d, .badState))

def chanCtl (r : Req) (f : FnIx) (v : Word) (s : State) : Host.Outcome State Fault Refusal :=
  s.run (fun d => d.regCmd r 0x140 (fnArea f.val R.HIF_CH_CTL) v chanCtlWriter)
def execHifChEnable (r : Req) (f : FnIx) (s : State) : Host.Outcome State Fault Refusal := chanCtl r f 1 s
def execHifChDisable (r : Req) (f : FnIx) (s : State) : Host.Outcome State Fault Refusal := chanCtl r f 2 s
def execHifChReset (r : Req) (f : FnIx) (s : State) : Host.Outcome State Fault Refusal := chanCtl r f 4 s

/-- Settings of the selected channel; HIF_CH_CFG only while it is DISABLED. -/
def chanCfgWriter : Writer := chanWriter (fun d _ c v =>
  if (d.chan c).state = 0 then (d.updChan c (fun x => { x with cfg := BitVec.ofNat 32 (v % 2 ^ 20) }), .ok) else (d, .badState))
def sqBaseWriter : Writer := chanWriter (fun d _ c v => (d.updChan c (fun x => { x with sqBase := BitVec.ofNat 64 v }), .ok))
def cqBaseWriter : Writer := chanWriter (fun d _ c v => (d.updChan c (fun x => { x with cqBase := BitVec.ofNat 64 v }), .ok))
def chanTimeoutWriter : Writer := chanWriter (fun d _ c v => (d.updChan c (fun x => { x with timeout := BitVec.ofNat 32 (v % 65536) }), .ok))
def chanErrWriter : Writer := chanWriter (fun d _ c v =>
  (if v.testBit 31 then d.updChan c (fun x => { x with err := x.err &&& 0x7FFFFFFF }) else d, .ok))

/-- A channel register as read: none where the channel is not the function's. -/
def chanView (d : Dev) (off : Nat) : Option Word :=
  let f := areaFn off
  (selChan d f).map (fun c =>
    let x := d.chan c
    let o := off - 0x100 * f
    if o = R.HIF_CH_CFG then x.cfg
    else if o = R.HIF_CH_SQ_BASE then x.sqBase.extractLsb' 0 32
    else if o = R.HIF_CH_SQ_BASE + 4 then x.sqBase.extractLsb' 32 32
    else if o = R.HIF_CH_CQ_BASE then x.cqBase.extractLsb' 0 32
    else if o = R.HIF_CH_CQ_BASE + 4 then x.cqBase.extractLsb' 32 32
    else if o = R.HIF_CH_TIMEOUT then x.timeout
    else if o = R.HIF_CH_STATE then
      BitVec.ofNat 32 (x.state + (if x.cqFull then 8 else 0) + (if x.jobs.any (·.waiting) then 16 else 0) + x.sqHead % 65536 * 65536)
    else if o = R.HIF_CH_PTRS then BitVec.ofNat 32 (x.sqTail % 65536 + x.cqHead % 65536 * 65536)
    else if o = R.HIF_CH_CQ then BitVec.ofNat 32 (x.cqTail % 65536 + (if x.phase then 65536 else 0))
    else if o = R.HIF_CH_ERR then x.err
    else if o = R.HIF_CH_DONE then x.done.extractLsb' 0 32
    else if o = R.HIF_CH_DONE + 4 then x.done.extractLsb' 32 32
    else 0)

/-! ### The Owner's division (R458, R460, R480, R485) -/

/-- HIF_HWIN_FN: the base is cleared; BAD_STATE while a request through the window is outstanding. -/
def hwinFnWriter : Writer := fun d r node off v =>
  let w := (off - R.HIF_HWIN_FN) / 0x10
  let busy := d.hostAccs.any (fun a => match a.use with | .noc p => (localAddr p.addr - 0x200000000000) / 2 ^ 36 = w | _ => false)
  if busy then (d, .badState) else ((storeWriter d r node off v).1.setReg64 node (R.HIF_HWIN_BASE + 0x10 * w) 0, .ok)

def execHwinFnWrite (r : Req) (w : Fin 256) (v : Word) (s : State) : Host.Outcome State Fault Refusal :=
  s.run (fun d => d.regCmd r 0x140 (R.HIF_HWIN_FN + 0x10 * w.val) v hwinFnWriter)

/-- The tenant whose block mask holds a block. -/
def blockHolder (d : Dev) (b : Nat) : Option Nat := (d.tenants.find? (fun e => e.2.blocks.getLsbD b)).map (·.1)

/-- Whether a block may be given to a function. -/
def blockOk (d : Dev) (b f : Nat) : Bool :=
  let vf := 1 ≤ f && f ≤ 16
  match blockHolder d b with
  | some t => 17 ≤ f || (vf && fnTenant d f = t)
  | none => !vf

/-- DEDUCED: log entry 88. -/
def blkMapWriter : Writer := fun d r node off v =>
  let j := (off - R.HIF_BLK_MAP) / 4
  let old := (d.reg node off).toNat
  let moved (b : Nat) : Bool := bitsOf old (8 * b) 5 ≠ bitsOf v (8 * b) 5
  let enabled (b : Nat) : Bool := d.chans.any (fun e => e.1 / 256 = 4 * j + b && e.2.state ≠ 0)
  if (List.range 4).any (fun b => moved b && (!blockOk d (4 * j + b) (bitsOf v (8 * b) 5) || enabled b ||
      d.wipes.any (fun w => w.blocks.contains (4 * j + b)))) then (d, .badState)
  else storeWriter d r node off v

def execBlkMapWrite (r : Req) (j : Fin 64) (v : Word) (s : State) : Host.Outcome State Fault Refusal :=
  s.run (fun d => d.regCmd r 0x140 (R.HIF_BLK_MAP + 4 * j.val) v blkMapWriter)

/-- HIF_FN_VEC (R480). -/
def fnVecWriter : Writer := fun d r node off v =>
  let f := (off - R.HIF_FN_VEC) / 0x10
  let base := bitsOf v 0 11
  let cnt := bitsOf v 16 12
  let span (b n : Nat) : Nat × Nat := (b, b + (n + 63) / 64 * 64)
  let clash (g : Nat) : Bool :=
    let w := (d.reg node (R.HIF_FN_VEC + 0x10 * g)).toNat
    let x := span base cnt
    let y := span (bitsOf w 0 11) (bitsOf w 16 12)
    g ≠ f && x.1 < y.2 && y.1 < x.2
  if base % 64 ≠ 0 || 2048 < base + cnt || (List.range 17).any clash || (fnStatus d f).getLsbD 3 || (f ≠ 0 && d.vfEn) then (d, .badState)
  else storeWriter d r node off v

def execFnVecWrite (r : Req) (f : FnIx) (v : Word) (s : State) : Host.Outcome State Fault Refusal :=
  s.run (fun d => d.regCmd r 0x140 (R.HIF_FN_VEC + 0x10 * f.val) v fnVecWriter)

/-- HIF_FN_ARB: the reserves may sum to at most 1,024 tags. -/
def fnArbWriter : Writer := fun d r node off v =>
  let f := (off - R.HIF_FN_ARB) / 0x10
  if 1024 < bitsOf v 16 11 + (List.range 17).foldl (fun a g => if g = f then a else a + tagReserve d g) 0 then (d, .badState)
  else storeWriter d r node off v

/-! ### Vectors (R481, R482) -/

def execModerationTimer (v : Fin 2048) (s : State) : Host.Outcome State Fault Refusal :=
  s.run (fun d => if (d.vec v.val).timer.isSome && !debugFrozen d (((vecFn d v.val).map (fnTenant d)).getD 0) 6 then vecFire d v.val else d)

/-- A pending vector whose message can be sent is sent. -/
def execMsixDeliver (v : Fin 2048) (s : State) : Host.Outcome State Fault Refusal :=
  s.run (fun d =>
    match vecFn d v.val with
    | some f => if d.flag 0x140 (pbaOff v.val) (v.val % 32) && vecClear d f v.val then vecSend d f v.val else d
    | none => d)

/-! ### Power and resets (R483, R484, R609) -/

/-- A function's power state, Bus Master Enable, MSI-X Enable and function mask, PME_En; for the physical function VF Enable. -/
def fnPower (d : Dev) (f : Nat) (d3 bme msix fmask pme vf : Bool) : Dev :=
  let o := fnArea f R.HIF_FN_STATUS
  let wasD0 := fnD0 d 0
  let d := d.setFld 0x140 o 0 5 ((if d3 then 3 else 0) + (if bme then 4 else 0) + (if msix then 8 else 0) + (if fmask then 16 else 0))
  let d := { d with pmeEn := if pme then (if d.pmeEn.contains f then d.pmeEn else d.pmeEn ++ [f]) else d.pmeEn.filter (· ≠ f),
                    vfEn := if f = 0 then vf else d.vfEn }
  let d := if f = 0 then standbyPower d wasD0 else d
  hostPump (pauseChans d f)

def execFunctionPowerChange (f : FnIx) (d3 bme msix fmask pme vf : Bool) (s : State) : Host.Outcome State Fault Refusal :=
  s.run (fun d => fnPower d f.val d3 bme msix fmask pme vf)

/-- A conventional or hot reset: every function; BAR sizes take effect (R455). DEDUCED: log entry 89. -/
def hostReset (d : Dev) : Dev :=
  let d := { (List.range 17).foldl fnReset d with vfEn := false }
  d.setFld 0x140 R.HIF_BAR_CFG 8 8 (d.fld 0x140 R.HIF_BAR_CFG 0 8)

def execPerst (s : State) : Host.Outcome State Fault Refusal := s.run hostReset
def execHotReset (s : State) : Host.Outcome State Fault Refusal := s.run hostReset
def execFlr (f : FnIx) (s : State) : Host.Outcome State Fault Refusal := s.run (fun d => fnReset d f.val)
def execVfEnableClear (s : State) : Host.Outcome State Fault Refusal :=
  s.run (fun d => { ((List.range 16).map (· + 1)).foldl fnReset d with vfEn := false })

def execHostLinkDown (s : State) : Host.Outcome State Fault Refusal :=
  s.run (fun d => if hostLinkUp d then (d.setFld 0x140 R.HIF_LINK 0 17 0).sticky 0x140 9 15 0 R.HIF_EVENTS else d)

/-- The link comes up at a rate and width. -/
def execHostLinkUp (rate : Fin 5) (width : Fin 5) (s : State) : Host.Outcome State Fault Refusal :=
  s.run (fun d => hostPump (d.setFld 0x140 R.HIF_LINK 0 17 (rate.val + 1 + 2 ^ width.val * 16 + 65536)))

end Sys2Proof.Machine
end

