-- ==== Sys2Proof/Machine/Registers.lean ====
section
/-! DEFINITION. Register reads and writes at their target (R7 to R14): the value every register reads as, the unit's own action on every
write, wide values through their holding registers, and the register commands that have no row of their own. -/

namespace Sys2Proof.Machine

/-! ### What registers read as, where it is not the stored value -/

def islIdView (i : Nat) : Nat := i + i % 16 * 2 ^ 8 + i / 16 * 2 ^ 12 + quarterOf i * 2 ^ 16

def islStatusView (d : Dev) (i : Nat) : Nat :=
  let x := d.isl i
  x.state.code + bn (!strokeMode d i) * 16 + bn (islWire d i) * 32 + bn x.drainActive * 64 + bn x.prBusy * 128 + bn x.cacheValid * 256
    + bn (clkLimited d i) * 512 + bn x.clkClamped * 1024 + bn (throttles x ≠ 0) * 2048 + bn x.sleepEmulated * 4096

/-- Phase 6 is joined mode, 0 not running. -/
def stkStatusView (d : Dev) (i : Nat) : Nat :=
  let x := d.isl i
  (if !strokeMode d i then (if isRunning x.state then 6 else if x.state = .feathered then 5 else 0) else x.phase % 8)
    + bn x.atLimit * 8 + bn x.atHold * 16 + bn (quiet d i) * 32 + bn x.monOn * 64

def xoStatusView (d : Dev) (i p : Nat) : Nat :=
  let x := d.xo i p
  x.outst % 128 + x.undel % 128 * 128 + bn ((d.isl i).phase = 3 && (xoBlocked d i).contains p) * 2 ^ 14

def xiStatusView (d : Dev) (i p : Nat) : Nat :=
  let x := d.xi i p
  x.buf.length % 128 + bn ((d.isl i).phase = 1 && (xiLacking d i).contains p) * 128 + x.valid.toNat * 256 + x.expect % 65536 * 65536

/-- The word that XCH_PEEK_CTL selects: presented by an XI port, or last sampled by an XO port. -/
def peekView (d : Dev) (i : Nat) : Nat :=
  let c := (d.reg i R.XCH_PEEK_CTL).toNat
  let k := bitsOf c 6 3
  (if c.testBit 5 then (((d.xo i (c % 32)).last.find? (fun w => w.1 = k)).map (·.2)).getD 0 else (d.xi i (c % 32)).shown.getD k 0).toNat

def memView (d : Dev) (i m rel : Nat) : Option Nat :=
  let b := d.bram (i * 96 + m)
  if rel = 0 then some b.cfg.toNat
  else if rel = 4 then
    let o := m * 0x40
    some ((d.reg i (R.MEM_STATUS + o)).toNat % 8 + bn b.outOfService * 16 + bn (b.ecc && d.fld i (R.MEM_PATROL + o) 0 16 ≠ 0) * 32)
  else if rel = 0x30 then some ((snapW0 b).toNat + (snapW1 b).toNat * 2 ^ 32)
  else if rel = 0x3C then some (qctFlags d i m).toNat
  else none

def sliceView (d : Dev) (i a rel : Nat) : Option Nat :=
  let s := d.slice (i * 48 + a)
  if rel = 0 then some s.cfg.toNat
  else if rel = 4 then some s.outCfg.toNat
  else if rel = 8 then some s.detCfg.toNat
  else if rel = 0x10 then some s.acc.toNat
  else if rel = 0x20 then some s.min.toNat
  else if rel = 0x28 then some s.max.toNat
  else if rel = 0x30 then some (s.minIdx.toNat + s.maxIdx.toNat * 65536)
  else if rel = 0x34 then some (s.count.toNat + bn s.valid * 65536)
  else if rel = 0x38 then
    some (s.exp.toNat + bn s.expValid * 128 + (if s.blkCount = 0 then 0 else s.runMin.toNat * 256) + s.blkCount.toNat * 65536)
  else none

def sclView (d : Dev) (e rel : Nat) : Option Nat :=
  let x := d.eng e
  if rel = 0 then some (e + bn (isSysEng e) * 1024)
  else if rel = 4 then some (sclStatus d e).toNat
  else if rel = 0xC then some x.pc.toNat
  else if rel = 0x20 then some (sclRegVal d e)
  else if rel = 0x44 then some (sclPortStatus d e).toNat
  else if rel = 0x48 then some x.instrs.toNat
  else none

def islView (d : Dev) (i off : Nat) : Option Nat :=
  let x := d.isl i
  if off < 0x1000 then
    if off = R.ISL_ID then some (islIdView i)
    else if off = R.ISL_STATUS then some (islStatusView d i)
    else if off = R.ISL_CLK_NOW then some x.fEff
    else if off = R.ISL_SETUP_INFO then some (x.setup.fClose % 4096 + x.setup.groupId.toNat * 65536 + bn x.setup.fabricRoute * 2 ^ 24)
    else if off = R.ISL_EPOCH then some (d.epoch i)
    else none
  else if off < 0x3000 then
    if off = R.STK_STATUS then some (stkStatusView d i)
    else if off = R.STK_COUNT then some x.count.toNat
    else if off = R.CAT_STATUS then some (catStatus d i).toNat
    else if off = R.CAT_PRESERVE then some (catPreserve d i).toNat
    else none
  else if off < 0x4000 then sclView d (i * 2 + (off - 0x3000) / 0x800) (off % 0x800)
  else if off < 0x6000 then memView d i ((off - 0x4000) / 0x40) (off % 0x40)
  else if off < 0x7000 then sliceView d i ((off - 0x6000) / 0x40) (off % 0x40)
  else if off < 0x8000 then (if off = R.DBG_PROBE then some (probeView d i).toNat else none)
  else if off < 0x8400 then (if off % 0x20 = 8 then some (xoStatusView d i ((off - 0x8000) / 0x20)) else none)
  else if off < 0x8800 then (if off % 0x20 = 8 then some (xiStatusView d i ((off - 0x8400) / 0x20)) else none)
  else if off = R.XCH_PEEK then some (peekView d i)
  else none

def dramView (d : Dev) (n off : Nat) : Option Nat :=
  if off = R.DDR_ID then some (n + n / 2 * 8)
  else if off = R.DDR_STATUS then some (ddrStatusView d n).toNat
  else if off = R.DDR_ZF_STATUS then some (zfStatusView d n).toNat
  else if off = R.DDR_DLY_DATA then some (tget (d.dram n).dly 0 (d.reg (dn n) R.DDR_DLY_SEL).toNat).toNat
  else none

def linkView (d : Dev) (n off : Nat) : Option Nat :=
  if off = R.LNK_ID then some (n + n / 8 * 32)
  else if off = R.LNK_STATUS then some (linkStatusView d n).toNat
  else if off = R.LNK_PROXY then some (d.link n).proxies.length
  else if off = R.LANE_GRP_ID then some (n + n / 8 * 32 + laneIsland n * 256)
  else if 0x8100 ≤ off ∧ off < 0x8580 ∧ (off - 0x8100) % 0x80 = 0xC then
    let g := 9 * n + (off - 0x8100) / 0x80
    some (putBits (laneStatusView d g) 5 1 (bn (lanesTested d))).toNat
  else none

def hifView (d : Dev) (off : Nat) : Option Nat :=
  if off = R.HIF_TAGS then some (tagsView d).toNat
  else if 0x2000 ≤ off ∧ off < 0x3100 ∧ 0x24 ≤ off % 0x100 ∧ off % 0x100 ≠ 0x3C then
    let w (o : Nat) : Nat := match chanView d o with | some v => v.toNat | none => 0
    if off % 0x100 = 0x28 ∨ off % 0x100 = 0x30 ∨ off % 0x100 = 0x50 then some (w off + w (off + 4) * 2 ^ 32) else some (w off)
  else none

/-- Consecutive words of a register block from one number. -/
def coxView (d : Dev) (off : Nat) : Option Nat :=
  if off = R.COX_ID then some (coxIdView d).toNat
  else if off = R.COX_STATUS then some (coxStatusView d).toNat
  else if R.COX_TEN_W0 ≤ off ∧ off < 0xC0 then
    let t := (off - 0x40) / 8
    some (if off % 8 = 0 then coxTenView0 d t else coxTenView1 d t).toNat
  else if R.COX_AK_PUB ≤ off ∧ off < 0x260 then some (devicePubWord 0 ((off - 0x200) / 4)).toNat
  else if R.COX_KK_PUB ≤ off ∧ off < 0x2C0 then some (devicePubWord 1 ((off - 0x260) / 4)).toNat
  else if R.COX_DEVHASH ≤ off ∧ off < 0x2F0 then some (bitsOf (devHash d).toNat (8 * (off - 0x2C0)) 32)
  else if R.COX_GRANT_W0 ≤ off ∧ off < 0x400 then
    some (if off % 8 = 0 then grantView0 d ((off - 0x300) / 8) else grantView1 d ((off - 0x300) / 8)).toNat
  else if off = R.COX_SVC_CTL then some (svcCtlView d).toNat
  else if off = R.COX_SVC_STATUS then some (svcStatusView d).toNat
  else if R.COX_SVC_COUNT ≤ off ∧ off < 0x424 then some (svcCountView d ((off - 0x410) / 4)).toNat
  else none

def bankView (d : Dev) (n : Nat) : Nat :=
  let v := (d.reg 0x142 (bankStatus n)).toNat % 8192 + bn (bankHp n) * 8192
  match bankUser d n with
  | some i => v + 2 ^ 14 + bn (pinPortOn d i n) * 2 ^ 15 + i * 2 ^ 16
  | none => v

def cfgView (d : Dev) (off : Nat) : Option Nat :=
  if 0x2000 ≤ off ∧ off < 0x21E0 ∧ off % 16 = 0 then some (bankView d ((off - 0x2000) / 16))
  else if off = R.CRW_TIME_STATUS then some (timeStatusView d).toNat
  else if off = R.CRW_DTIME then some d.dtime.toNat
  else if 0x6000 ≤ off ∧ off < 0x9000 then some (d.isl ((off - 0x6000) / 0x30)).hash.toNat
  else none

def hubView (d : Dev) (off : Nat) : Option Nat :=
  if off = R.DBG_HUB_STATUS then some (hubStatusView d).toNat
  else if 0x1000 ≤ off ∧ off < 0x1900 ∧ off % 0x80 = 4 then some (apSessView d ((off - 0x1000) / 0x80)).toNat
  else none

def sigView (d : Dev) (off : Nat) : Option Nat :=
  if off = R.SIG_STATUS then some (sigStatusView d).toNat
  else if 0x100 ≤ off ∧ off < 0x300 ∧ off % 8 = 4 then some (grpStatusView d ((off - 0x100) / 8)).toNat
  else if 0x2000 ≤ off ∧ off < 0x6000 then some (srcCfgView d ((off - 0x2000) / 4)).toNat
  else if 0x6000 ≤ off then
    let j := (off - 0x6000) / 0x40
    let rel := off % 0x40
    if rel = 0 then some ((List.range 4).map (fun k => (sigSumView d j k).toNat * 2 ^ (32 * k))).sum
    else if rel = 0x14 then some (sigPendView d j).toNat
    else if rel = 0x24 then some (tgtStatusView d j).toNat
    else none
  else none

def logView (d : Dev) (r : Req) (off : Nat) : Option Nat :=
  if off = R.LOG_STATUS then some (logStatusView d).toNat
  else if off = R.LOG_NEXT_SEQ then some d.evlog.next.toNat
  else if off = R.LOG_FIRST_SEQ then some (logOldest d d.evlog.first).toNat
  else if off = R.LOG_CIRC_OLDEST then some (logOldest d d.evlog.circ).toNat
  else if off = R.LOG_RD_SEQ then some (tget d.evlog.sel 0 (logReader r)).toNat
  else if off = R.LOG_RD_INFO then some (logInfoView d r).toNat
  else if off = R.LOG_RD_DATA then some ((List.range 8).map (fun k => (logDataView d r k).toNat * 2 ^ (32 * k))).sum
  else none

def pwrView (d : Dev) (off : Nat) : Option Nat :=
  if 0x200 ≤ off ∧ off < 0x280 ∧ off % 16 = 0xC then
    some ((d.reg 0x146 off).toNat % 2 + ((dpllClaimant d ((off - 0x200) / 16)).getD 0) * 2)
  else none

/-- Tenants whose islands of a quarter drain, are restored or have log blocks on their way. -/
def sealStatusView (d : Dev) (q : Nat) : Nat :=
  let l := (d.islands.filter (fun e => quarterOf e.1 = q && (e.2.drainActive || e.2.state = .restoring || !e.2.log.staging.isEmpty))).map
    (fun e => d.owner e.1) ++ (d.sealQ.filter (fun j => j.q = q)).map (·.owner)
  bn (!l.isEmpty) + ((List.range 16).map (fun t => bn (l.contains t) * 2 ^ (16 + t))).sum

/-- How many attachments a node has (R325). -/
def attachments (node : Nat) : Nat :=
  match nodeKind node with
  | some .isl => 1 | some .dram => 2 | some .link => 1 | some .seal => 2 | some .scrub => 1 | _ => 8

def nocView (d : Dev) (node off : Nat) : Option Nat :=
  if off = R.NOC_NODE_INFO then some (node + d.devId * 2 ^ 16 + (attachments node - 1) * 2 ^ 22 + bn (node < 256) * 2 ^ 25)
  else if R.NOC_BKT_STATE ≤ off ∧ off < 0xF0C0 ∧ off % 8 = 4 then
    some (BitVec.ofInt 17 (bucketOf d node ((off - 0xF040) / 8) / 5120)).toNat
  else if R.NOC_ST_REQS ≤ off ∧ off % 0x40 = 0x34 then
    let u := (off - R.NOC_ST_REQS) / 0x40
    some (d.noc.outst.filter (fun o => o.node = node && o.unit = u)).length
  else none

/-- The live value of the register whose low word lies at `off`, where it is not what is stored. -/
def liveView (d : Dev) (r : Req) (node off : Nat) : Option Nat :=
  if 0xF000 ≤ off then nocView d node off
  else match nodeKind node with
    | some .isl => islView d node off
    | some .dram => dramView d (node - 0x100) off
    | some .link => linkView d (node - 0x110) off
    | some .hif => hifView d off
    | some .cox => coxView d off
    | some .cfg => cfgView d off
    | some .dbgh => hubView d off
    | some .sig => sigView d off
    | some .log => logView d r off
    | some .pwr => pwrView d off
    | some .sys => if off < 0x800 then sclView d (512 + (node - 0x150)) off else if off = R.SCL_SYS_EPOCH then some (d.epoch node) else none
    | some .seal => if off = R.CAT_SEAL_STATUS then some (sealStatusView d (node - 0x160)) else none
    | some .scrub => none
    | none => none

/-- The live value of a register, all words of a wide one. -/
def liveVal (d : Dev) (r : Req) (node off words : Nat) : Nat :=
  match liveView d r node off with
  | some v => v
  | none => ((List.range words).map (fun k => (d.reg node (off + 4 * k)).toNat * 2 ^ (32 * k))).sum

/-! ### Reads (R9, R13) -/

/-- The TORN bit of the block that owns a wide value, with its record (R13). DEDUCED: log entry 16. -/
def markTorn (d : Dev) (node off : Nat) : Dev :=
  if 0xF000 ≤ off then d.sticky node 4 10 8 R.NOC_EVENTS
  else match nodeKind node with
    | some .isl =>
      if off < 0x2000 then (d.cause node 1).sticky node 5 2 6 R.STK_EVENTS
      else if off < 0x3000 then (d.cause node 2).sticky node 6 3 8 R.CAT_EVENTS
      else if off < 0x4000 then sclEvent d (engAt node off) 8
      else if off < 0x6000 then d.sticky node 5 5 12 (R.QCT_FLAGS + (off - 0x4000) / 0x40 * 0x40)
      else if off < 0x7000 then d.sticky node 5 6 3 (R.ARS_STATUS + (off - 0x6000) / 0x40 * 0x40)
      else if off < 0x7400 then d.sticky node 11 24 10 R.DBG_TRG_STATUS
      else if off < 0x8000 then d.orReg node R.DBG_ACC_STATUS (bit 5)
      else if off < 0x9000 then d.sticky node 5 7 3 R.XCH_EVENTS
      else d.sticky node 10 8 3 R.PWR_ISL_ALARM
    | some .dram => ddrEvent d (node - 0x100) 8
    | some .link =>
      if off < 0x8000 then linkEvent d (node - 0x110) 13 else laneEvent d (9 * (node - 0x110) + (off - 0x8100) / 0x80) 8
    | some .hif => if off < 0x2000 then d.sticky node 9 15 4 R.HIF_EVENTS else fnEvent d (areaFn off) 5
    | some .cox => coxEvent d 9
    | some .cfg => if 0x4000 ≤ off ∧ off < 0x6000 then crwEvent d 5 else cfgEvent d 6
    | some .dbgh => hubEvent d 5
    | some .sig =>
      let j := if off < 0x2000 then (off - 0x400) / 8 else (off - 0x6000) / 0x40
      d.orReg node (R.SIG_TGT_STATUS + 0x40 * j) (bit 31)
    | some .log => logEvent d 6
    | some .sys => sclEvent d (engAt node off) 8
    | some .seal => d.sticky node 6 20 2 R.CAT_SEAL_ERR
    | _ => d

/-- One word of a wide value: the low word latches the others; a higher word is the latched one, or the live one with TORN.
DESIGN CHOICE: log entry 14; DEDUCED: log entry 18. -/
def wideRead (d : Dev) (r : Req) (node off words w : Nat) : Dev × Word :=
  let base := off - 4 * w
  let full := liveVal d r node base words
  let word (k : Nat) : Word := BitVec.ofNat 32 (full / 2 ^ (32 * k))
  if w = 0 then
    ({ d with holdRd := (List.range (words - 1)).foldl (fun t k => tput t none (holdKey r node (base + 4 * (k + 1))) (some (word (k + 1)))) d.holdRd },
     word 0)
  else match tget d.holdRd none (holdKey r node off) with
    | some v => (d, v)
    | none => (markTorn d node off, word w)

/-- A mailbox word of an engine's data SRAM (R286). DEDUCED: log entry 18. -/
def mailboxRead (d : Dev) (e w : Nat) : Dev × Status × Word :=
  let a := 0xFC00 / 4 + w
  let x := d.eng e
  let (d, v) := sramRead d e false a
  (d, if v.isSome then .ok else .uncorrectable, v.getD (x.sramWord false a ^^^ (x.sramErr false a).setWidth 32))

/-- A word of ARS_ACC, of XCH_PEEK, of SCL_REG_DATA. -/
def isAcc (off : Nat) : Bool := 0x6000 ≤ off && off < 0x6C00 && 0x10 ≤ off % 0x40 && off % 0x40 < 0x20
def isPeek (off : Nat) : Bool := R.XCH_PEEK ≤ off && off < R.XCH_PEEK + 16
def isRegData (off : Nat) : Bool := 0x20 ≤ off % 0x800 && off % 0x800 < 0x30

/-- A slice's accumulator, and a crossing word, are reached in joined mode only with the group's clocks gated (R184, R567).
DEDUCED: log entry 20. -/
def stateGate (d : Dev) (i off : Nat) (write : Bool) : Option Status :=
  let s := (d.isl i).state
  if isAcc off then
    if !stateServed d i || (write && !strokeMode d i && s ≠ .feathered && s ≠ .idle) then some .badState else none
  else if isPeek off && !strokeMode d i && isRunning s then some .badState
  else match sclEngine i off with
    | some e => if write && isRegData off && !engStopped (d.eng e) then some .badState else none
    | none => none

/-- Whether the initiator holds a latched word of this register (R13). -/
def latched (d : Dev) (r : Req) (node off : Nat) : Bool := (tget d.holdRd none (holdKey r node off)).isSome

/-- A register read at its target: the device after it, the status and the word. DEDUCED: log entry 13. -/
def regRead (d : Dev) (r : Req) (node off : Nat) : Dev × Status × Word :=
  match regGate d r node off with
  | .stop d st => (d, st, 0)
  | .pass rd w =>
    match (if w ≠ 0 && latched d r node off then none else stateGate d node off false) with
    | some st => (d, st, 0)
    | none =>
      let rel := if node < 256 then off % 0x800 else off
      match sclEngine node off with
      | some e =>
        if rel = 0x18 then memDataRead d e
        else if 0x400 ≤ rel then mailboxRead d e ((rel - 0x400) / 4)
        else if rd.words = 1 then (d, .ok, BitVec.ofNat 32 (liveVal d r node off 1))
        else let (d, v) := wideRead d r node off rd.words w; (d, .ok, v)
      | none =>
        if rd.words = 1 then
          let v := BitVec.ofNat 32 (liveVal d r node off 1)
          (if rd.rc = 0 then d else d.clrReg node off rd.rc, .ok, v)
        else let (d, v) := wideRead d r node off rd.words w; (d, .ok, v)

/-! ### Writes (R9, R14) -/

/-- DEDUCED: log entry 19. -/
def memStatusWriter : Writer := fun d r node off v =>
  let (d, st) := storeWriter d r node off v
  let d := if v.testBit 8 then d.setReg node (off + 4) 0 else d
  (if d.fld node off 0 2 = 0 then d.setReg node (off + 8) 0 else d, st)

/-- DEDUCED: log entry 19. -/
def memDbgWriter : Writer := fun d r node off v =>
  let (d, st) := storeWriter d r node off v
  (if v.testBit 11 then dbgGo d node ((off - 0x4000) / 0x40) else d, st)

/-- QCT_CTL: release_mode changes, and a flush runs, only while FEATHERED or IDLE (R156, R162). DEDUCED: log entry 19. -/
def qctCtlWriter : Writer := fun d r node off v =>
  let s := (d.isl node).state
  let still := s = .feathered || s = .idle
  if !still && (v.testBit 12 || v.testBit 11 != d.flag node off 11) then (d, .badState)
  else
    let (d, st) := storeWriter d r node off v
    (if v.testBit 12 then ringFlush d node ((off - 0x4000) / 0x40) else d, st)

/-- QCT_THRESH: the live flags of a ring follow (R146). -/
def threshWriter : Writer := fun d r node off v =>
  let (d, st) := storeWriter d r node off v
  let m := (off - 0x4000) / 0x40
  (if (d.bram (node * 96 + m)).isRing then ringFlags d node m else d, st)

/-- DEDUCED: log entry 20. -/
def accWriter : Writer := fun d _ node off v =>
  let k := node * 48 + (off - 0x6000) / 0x40
  (d.setSlice k { (d.slice k) with acc := BitVec.ofNat 128 v }, .ok)

/-- Clearing settle_mismatch releases the monitor's held mismatch (R250). -/
def stkEventsWriter : Writer := fun d r node off v =>
  let (d, st) := storeWriter d r node off v
  (if v.testBit 3 then d.setFld node R.STK_MON_PORT 31 1 0 else d, st)

/-- Registers that the Cox alone writes (R40, R351), the bits of `mask` (R10). -/
def coxOnlyWriter (mask : Word) : Writer := fun d r node off v =>
  if r.node = 0x141 then (d.setReg node off (BitVec.ofNat 32 v &&& mask), .ok) else (deniedHere d r node off, .denied)

def nocWriter (off : Nat) : Writer :=
  if off = R.NOC_EPOCH then coxOnlyWriter 0xFF
  else if R.NOC_EPOCH_TAB ≤ off ∧ off < 0xF500 then coxOnlyWriter 0xFFFFFFFF
  else if off = R.NOC_BKT_CFG then fun d _ node off v => (d.setReg node off (BitVec.ofNat 32 v), .ok)
  else if R.NOC_BKT_CFG < off ∧ off < 0xF0C0 ∧ off % 8 = 0 then coxOnlyWriter 0xFFFFFFFF
  else storeWriter

def sclWriter (rel : Nat) : Writer :=
  if rel = 8 then sclCtlWriter
  else if rel = 0xC then sclPcWriter
  else if rel = 0x10 then sclStartWriter
  else if rel = 0x18 then memDataWriter
  else if rel = 0x20 then sclRegWriter
  else if rel = 0x40 then portMapWriter
  else if 0x400 ≤ rel then fun d _ node off v => (mailboxWrite d (engAt node off) ((rel - 0x400) / 4) (BitVec.ofNat 32 v), .ok)
  else storeWriter

def islWriter (off : Nat) : Writer :=
  if off < 0x1000 then
    if off = R.ISL_OWNER then coxOnlyWriter 0xF
    else if off = R.ISL_PWR_CMD then pwrCmdWriter
    else if off = R.ISL_CLK_REQ then clkReqWriter
    else if off = R.ISL_CLK_LIMIT then clkLimitWriter
    else storeWriter
  else if off < 0x2000 then
    if off = R.STK_CTL then stkCtlWriter
    else if off = R.STK_LIMIT ∨ off = R.STK_HOLD then boundWriter
    else if off = R.STK_SETTLE then settleWriter
    else if off = R.STK_EVENTS then stkEventsWriter
    else storeWriter
  else if off < 0x3000 then
    if off = R.CAT_LOG_CTL then logCtlWriter
    else if off = R.CAT_LOG_BASE ∨ off = R.CAT_LOG_SIZE then logPlaceWriter
    else if off = R.CAT_LOG_TAIL then logTailWriter
    else storeWriter
  else if off < 0x4000 then sclWriter (off % 0x800)
  else if off < 0x6000 then
    if off % 0x40 = 4 then memStatusWriter
    else if off % 0x40 = 0x10 then memDbgWriter
    else if off % 0x40 = 0x1C then qctCtlWriter
    else if off % 0x40 = 0x38 then threshWriter
    else storeWriter
  else if off < 0x7000 then (if off % 0x40 = 0x10 then accWriter else storeWriter)
  else if off < 0x8000 then
    if off = R.DBG_TRG_CTL then trgWriter
    else if 0x7100 ≤ off ∧ off < 0x7300 ∧ off % 0x40 = 0 then cmpCfgWriter
    else if off = R.DBG_FF_SEL then ffSelWriter
    else if off = R.DBG_FF_DATA then ffDataWriter
    else if off = R.DBG_FRAME_SEL then frameSelWriter
    else storeWriter
  else storeWriter

/-- A training primitive's outcome comes from the DRAM: a free value where the command brings none. DEDUCED: log entry 56. -/
def trnFreeWriter : Writer := fun d r node off v =>
  let (x, d) := d.draw
  trnWriter (BitVec.ofNat 128 x) d r node off v

def dramWriter (off : Nat) : Writer :=
  if off = R.DDR_CTL then ddrCtlWriter
  else if off = R.DDR_DEV_CFG ∨ (R.DDR_TIM ≤ off ∧ off < 0x80) then ddrCfgWriter
  else if off = R.DDR_PART then ddrPartWriter
  else if R.DDR_SLOT ≤ off ∧ off < 0xC0 then ddrSlotWriter
  else if off = R.DDR_ZF_CMD then zfCmdWriter
  else if R.DDR_ZF_MASK ≤ off ∧ off < 0x480 then zfMaskWriter
  else if off = R.DDR_TRN_CMD then trnFreeWriter
  else if off = R.DDR_DLY_SEL then dlySelWriter
  else if off = R.DDR_DLY_DATA then dlyDataWriter
  else if off = R.DDR_ISET_CTL then isetCtlWriter
  else storeWriter

def linkWriter (off : Nat) : Writer :=
  if off = R.LNK_CFG then linkCfgWriter
  else if off = R.LNK_CTL then linkCtlWriter
  else if off = R.LANE_GRP_CFG then grpCfgWriter
  else if off = R.LANE_PLL_CFG then pllCfgWriter
  else if 0x8100 ≤ off ∧ off < 0x8580 then
    let rel := (off - 0x8100) % 0x80
    if rel = 0 then laneCtlWriter else if rel = 4 then txCoefWriter else if rel = 8 then rxCfgWriter else if rel = 0x18 then testCtlWriter
    else storeWriter
  else storeWriter

/-- HIF_HWIN_BASE: bit 0 and bits 63 to 12 are stored. -/
def hwinBaseWriter : Writer := fun d _ node off v =>
  (d.setReg64 node off (BitVec.ofNat 64 v &&& 0xFFFFFFFFFFFFF001#64), .ok)

def hifWriter (off : Nat) : Writer :=
  if 0x100 ≤ off ∧ off < 0x200 then blkMapWriter
  else if 0x200 ≤ off ∧ off < 0x310 then (if off % 16 = 0 then fnVecWriter else fnArbWriter)
  else if 0x1000 ≤ off ∧ off < 0x2000 then (if off % 16 = 0 then hwinFnWriter else hwinBaseWriter)
  else if 0x2000 ≤ off ∧ off < 0x3100 then
    let rel := off % 0x100
    if rel = 0x24 then chanCfgWriter else if rel = 0x28 then sqBaseWriter else if rel = 0x30 then cqBaseWriter
    else if rel = 0x38 then chanTimeoutWriter else if rel = 0x3C then chanCtlWriter else if rel = 0x4C then chanErrWriter
    else storeWriter
  else storeWriter

/-- A mailbox command that a packet starts: what lies at its address is not in the model's packets, so the image is free. -/
def mbxFreeWriter : Writer := fun d r node off v =>
  let (x, d) := freeImage d ((off - R.COX_MBX_CTL) / 0x800)
  mbxCtlWriter x d r node off v

def coxWriter (off : Nat) : Writer :=
  if 0x4000 ≤ off ∧ off % 0x800 = 0 then mbxFreeWriter
  else if off = R.COX_SVC_CTL then svcCtlWriter
  else storeWriter

/-- 128 bits of device memory as stored; 0 where the address is not in this device's DRAM. -/
def memUnit (d : Dev) (addr : Nat) : W128 :=
  if deviceOf addr ≠ d.devId || !inDram addr then 0
  else match dramOf d (localAddr addr) with
    | some (n, loc) => tget (d.dram n).data 0 (loc / 16)
    | none => 0

/-- The region table of a principal's command slot, as memory it may read holds it (R445). DESIGN CHOICE: log entry 79. -/
def crewTable (d : Dev) (t : Nat) : List CrewEnt :=
  (bitsIn (d.reg64 0x142 (crewReg R.CRW_CMD_DEVS t))).map (fun v =>
    let a := crewEntAt d t v
    let ok := granOwner d (localAddr a / 2 ^ 30) = t
    let u (k : Nat) : W128 := if ok then memUnit d (a + 16 * k) else 0
    { dev := v, mask := u 1 ++ u 0, base := ((u 2).extractLsb' 0 64).toNat, limit := ((u 2).extractLsb' 64 64).toNat })

def crewSlotWriter : Writer := fun d r node off v => crewCtlWriter (crewTable d ((off - R.CRW_CMD_CTL) / 0x40)) d r node off v

/-- The first word of a message from a unit that may not send one is denied; the messages themselves are commands of their own (R446).
DESIGN CHOICE: log entry 78. -/
def crewMsgWriter : Writer := fun d r node off _ =>
  if r.node = 0x142 || nodeKind r.node = some .link then (d, .ok) else (crwEvent (deniedHere d r node off) 4, .denied)

/-- force_hiz: the bank's outputs change at once (R643). -/
def bankCtlWriter : Writer := fun d r node off v =>
  let n := (off - R.IO_BANK_CTL) / 16
  let (d, st) := storeWriter d r node off v
  (if bscanActive d then d else d.emit (.pins n (tget d.pinOut 0 n) (padEnable d n)), st)

def cfgWriter (off : Nat) : Writer :=
  if off = R.CFG_CTL then cfgCtlWriter
  else if off = R.CFG_CACHE_CFG then cacheCfgWriter
  else if off = R.CFG_FLASH_CMD then flashCmdWriter
  else if 0x2000 ≤ off ∧ off < 0x21E0 ∧ off % 16 = 4 then bankCtlWriter
  else if off = R.CRW_DTIME_SET then dtimeSetWriter
  else if R.CRW_MSG ≤ off ∧ off < R.CRW_MSG + 64 then crewMsgWriter
  else if 0x4100 ≤ off ∧ off < 0x4500 ∧ off % 0x40 = 0 then crewSlotWriter
  else storeWriter

/-- DBG_FOH: the timers that a halt freezes or frees are brought up to date first (R575). -/
def fohWriter : Writer := fun d r node off v =>
  let t := hubArea off
  let d := { d with engines := d.engines.map (fun (e : Nat × Engine) =>
    if engTenant d e.1 = t then (e.1, { e.2 with timer := timerNow d e.1, timerAt := d.dtime }) else e) }
  storeWriter d r node off v

def hubWriter (off : Nat) : Writer :=
  if 0x100 ≤ off ∧ off < 0x300 ∧ off % 0x20 = 0 then haltCtlWriter
  else if 0x100 ≤ off ∧ off < 0x300 ∧ off % 0x20 = 0xC then fohWriter
  else if 0x1000 ≤ off ∧ off < 0x1900 ∧ off % 0x80 = 0 then apCtlWriter
  else storeWriter

def sigWriter (off : Nat) : Writer :=
  if off = R.SIG_MODE then sigModeWriter
  else if off = R.SIG_HOST_CFG then hostCfgWriter
  else if 0x100 ≤ off ∧ off < 0x300 ∧ off % 8 = 0 then grpCfgSigWriter
  else if 0x400 ≤ off ∧ off < 0x1490 then tgtGrpWriter
  else if 0x2000 ≤ off ∧ off < 0x6000 then srcCfgWriter
  else if 0x6000 ≤ off then
    let rel := off % 0x40
    if rel = 0x18 then claimWriter else if rel = 0x20 then doneWriter else recordWriter
  else storeWriter

def logWriter (off : Nat) : Writer :=
  if off = R.LOG_CTL then logCtlClearWriter
  else if off = R.LOG_RD_SEQ then logSelWriter
  else if off = R.LOG_WR then logWrWriter
  else storeWriter

/-- PWR_TEN_CAP_0 is written by the Owner; the others follow the tenant table (R202). -/
def tenCapWriter : Writer := fun d r node off v =>
  if off = R.PWR_TEN_CAP ∧ r.tenant = 0 then (d.setReg node off (BitVec.ofNat 32 (v % 65536)), .ok) else (d, .ok)

def pwrWriter (off : Nat) : Writer :=
  if off = R.PWR_DEV_CTL then devCtlWriter
  else if R.PWR_TEN_CAP ≤ off ∧ off < 0xC0 then tenCapWriter
  else if 0x200 ≤ off ∧ off < 0x280 ∧ off % 16 ≠ 0xC then dpllWriter
  else if R.PWR_GC_SEL ≤ off ∧ off < R.PWR_GC_SEL + 64 then gcSelWriter
  else storeWriter

/-- The unit's own action on a write whose low word lies at `off`. -/
def writerOf (node off : Nat) : Writer :=
  if 0xF000 ≤ off then nocWriter off
  else match nodeKind node with
    | some .isl => islWriter off
    | some .dram => dramWriter off
    | some .link => linkWriter off
    | some .hif => hifWriter off
    | some .cox => coxWriter off
    | some .cfg => cfgWriter off
    | some .dbgh => hubWriter off
    | some .sig => sigWriter off
    | some .log => logWriter off
    | some .pwr => pwrWriter off
    | some .sys => if off < 0x800 then sclWriter off else storeWriter
    | some .scrub => if off = R.SCB_PASS then scbPassWriter else storeWriter
    | _ => storeWriter

/-- A register write at its target. A higher word is held; the low word commits all of them (R14). DESIGN CHOICE: the held words are used
up by the low-word write also where the unit then refuses it. DESIGN CHOICE: log entry 15. -/
def regWrite (d : Dev) (r : Req) (node off : Nat) (v : Word) : Dev × Status :=
  match writeGate d r node off with
  | .stop d st => (d, st)
  | .pass rd w =>
    match stateGate d node off true with
    | some st => (d, st)
    | none =>
      if rd.words ≠ 1 ∧ w ≠ 0 then ({ d with holdWr := tput d.holdWr 0 (holdKey r node off) v }, .ok)
      else
        let (full, d) := commitVal d r node off rd.words v
        writerOf node off d r node off full

/-! ### Accesses that wait for a stroke boundary (R184, R251, R568) -/

/-- Whether an access to a word waits: the island is inside a stroke, and the word is a slice's accumulator or a crossing word. -/
def wordWaits (d : Dev) (node off : Nat) (write : Bool) : Bool :=
  node < 256 && midStroke d node && ((isAcc off && (!write || off % 0x40 = 0x10)) || (!write && isPeek off))

def isPass : Gate → Bool
  | .pass _ _ => true
  | .stop _ _ => false

def regCmdNow (d : Dev) (r : Req) (node off : Nat) (w : Option Word) : Dev :=
  match w with
  | none => let (d, st, v) := regRead d r node off; d.answer r node off st v
  | some v => let (e, st) := regWrite d r node off v; answerWrite d e r node off v st

/-- A register access command: at once, or at the island's next stroke boundary. -/
def regAccess (d : Dev) (r : Req) (node off : Nat) (w : Option Word) : Dev :=
  if wordWaits d node off w.isSome && isPass (regGate d r node off) then
    { d with stateWait := d.stateWait ++ [(node, .cmd r off w)] }
  else regCmdNow d r node off w

/-- Whether an offset is the low word, or a higher word, of a wide value. -/
def wideWord (node off : Nat) (low : Bool) : Bool :=
  match regAt node off with
  | some (rd, _, w) => rd.words ≠ 1 && (if low then w = 0 else w ≠ 0)
  | none => false

/-! ### Commands -/

def execRegisterWrite (r : Req) (node : Fin 1024) (off : BitVec 16) (v : Word) (s : State) : Host.Outcome State Fault Refusal :=
  s.run (fun d => regAccess d r node.val off.toNat (some v))
def execReadClear (r : Req) (node : Fin 1024) (off : BitVec 16) (s : State) : Host.Outcome State Fault Refusal :=
  s.run (fun d => regAccess d r node.val off.toNat none)
def execLowWordRead (r : Req) (node : Fin 1024) (off : BitVec 16) (s : State) : Host.Outcome State Fault Refusal :=
  s.run (fun d => d.when (wideWord node.val off.toNat true) (fun d => regAccess d r node.val off.toNat none))
def execHighWordRead (r : Req) (node : Fin 1024) (off : BitVec 16) (s : State) : Host.Outcome State Fault Refusal :=
  s.run (fun d => d.when (wideWord node.val off.toNat false) (fun d => regAccess d r node.val off.toNat none))
def execHighWordWrite (r : Req) (node : Fin 1024) (off : BitVec 16) (v : Word) (s : State) : Host.Outcome State Fault Refusal :=
  s.run (fun d => d.when (wideWord node.val off.toNat false) (fun d => regAccess d r node.val off.toNat (some v)))
def execLowWordWrite (r : Req) (node : Fin 1024) (off : BitVec 16) (v : Word) (s : State) : Host.Outcome State Fault Refusal :=
  s.run (fun d => d.when (wideWord node.val off.toNat true) (fun d => regAccess d r node.val off.toNat (some v)))

/-- A disturbance of one node of a configuration bit's pair (R85): `planeB` names the node. -/
def execConfigNodeUpset (i : Isl) (f : Fin 4608) (b : BitVec 12) (planeB : Bool) (s : State) : Host.Outcome State Fault Refusal :=
  s.run (fun d =>
    let x := d.frame i.val f.val
    let m : Frame := BitVec.ofNat 4096 (2 ^ b.toNat)
    d.setFrame i.val f.val (if planeB then { x with badB := x.badB ^^^ m } else { x with badA := x.badA ^^^ m }))

/-- DEDUCED: log entry 22. -/
def flipFf (d : Dev) (i c b : Nat) (v : Bool) : Dev :=
  let m : W64 := BitVec.ofNat 64 (2 ^ b)
  d.setFf i c (if v then d.ff i c ||| m else d.ff i c &&& ~~~m)

/-- A disturbance of one node of a flip-flop: Q keeps its value, unless another node of it is disturbed already, when it may change
(R86). DEDUCED: log entry 22. -/
def ffUpset (d : Dev) (i c b : Nat) : Dev :=
  let k := (i * 4800 + c) * 64 + b
  if d.ffUpset.contains k then
    let q := Config.freeBit d.free 0
    flipFf { d with free := d.free + 1, ffUpset := d.ffUpset.filter (· ≠ k) } i c b q
  else { d with ffUpset := d.ffUpset ++ [k] }

def execFfNodeUpset (i : Isl) (c : Fin 4800) (b : Fin 64) (s : State) : Host.Outcome State Fault Refusal :=
  s.run (fun d => ffUpset d i.val c.val b.val)

/-- Whether a flip-flop can capture from the combinational path now: a stroke's settle count is over or under way for one on a design
clock, an edge can come at any time for one on a wire or a group clock (R87). -/
def mayCapture (d : Dev) (i clu b : Nat) : Bool :=
  let x := d.isl i
  let src := pairFld d i (clu / 50) (clu % 50) (b / 4) 0 2
  if src = 2 then inIsland x.state && !nodeLost d i
  else src = 1 && isRunning x.state && islClocked d i && (isJoined d i || x.phase = 2 || x.phase = 3)

/-- A transient in the combinational path that is present at the next capture of the flip-flop it feeds: the flip-flop takes a free
value there; any other transient is harmless (R87). -/
def combTransient (d : Dev) (i clu b : Nat) (atCapture : Bool) : Dev :=
  let k := (i * 4800 + clu) * 64 + b
  if atCapture && mayCapture d i clu b && !d.transients.contains k then { d with transients := d.transients ++ [k] } else d

def execCombTransient (i : Isl) (c : Fin 4800) (b : Fin 64) (atCapture : Bool) (s : State) : Host.Outcome State Fault Refusal :=
  s.run (fun d => combTransient d i.val c.val b.val atCapture)

def execEccWriteBack (i : Isl) (m : MemIx) (row : Fin 512) (half : Fin 2) (s : State) : Host.Outcome State Fault Refusal :=
  s.run (fun d => writeBackTurn d i.val m.val (row.val * 2 + half.val))
def execMemPatrolRead (i : Isl) (m : MemIx) (s : State) : Host.Outcome State Fault Refusal := s.run (fun d => patrolTurn d i.val m.val)

def memDbgCmd (r : Req) (i : Isl) (m : MemIx) (v : Word) (s : State) : Host.Outcome State Fault Refusal :=
  s.run (fun d => d.regCmd r i.val (dbgOff m.val) v memDbgWriter)
/-- A debug access of a row: `raw` keeps the check columns as given. -/
def execMemDbgRead (r : Req) (i : Isl) (m : MemIx) (row : Fin 512) (s : State) : Host.Outcome State Fault Refusal :=
  memDbgCmd r i m (BitVec.ofNat 32 (row.val + 0x800)) s
def execMemDbgWrite (r : Req) (i : Isl) (m : MemIx) (row : Fin 512) (raw : Bool) (s : State) : Host.Outcome State Fault Refusal :=
  memDbgCmd r i m (BitVec.ofNat 32 (row.val + 0xA00 + (if raw then 0x400 else 0))) s
def execMemDbgTimeout (i : Isl) (m : MemIx) (s : State) : Host.Outcome State Fault Refusal := s.run (fun d => dbgTimeout d i.val m.val)

def execMemClrCounts (r : Req) (i : Isl) (m : MemIx) (s : State) : Host.Outcome State Fault Refusal :=
  s.run (fun d => d.regCmd r i.val (R.MEM_STATUS + m.val * 0x40) 0x100 memStatusWriter)
/-- A flush that leaves the register's other fields as they are. -/
def execQctFlush (r : Req) (i : Isl) (m : MemIx) (s : State) : Host.Outcome State Fault Refusal :=
  s.run (fun d => let o := R.QCT_CTL + m.val * 0x40; d.regCmd r i.val o (d.reg i.val o ||| 0x1000) qctCtlWriter)

def execArsAccRead (r : Req) (i : Isl) (a : SliceIx) (s : State) : Host.Outcome State Fault Refusal :=
  s.run (fun d => regAccess d r i.val (R.ARS_ACC + a.val * 0x40) none)
def execArsAccWrite (r : Req) (i : Isl) (a : SliceIx) (v : Word) (s : State) : Host.Outcome State Fault Refusal :=
  s.run (fun d => regAccess d r i.val (R.ARS_ACC + a.val * 0x40) (some v))

/-- A bit of a stored row is disturbed: columns 0 to 127 are data, 128 to 143 check columns. -/
def execBlockMemoryUpset (i : Isl) (m : MemIx) (row : Fin 512) (col : Fin 144) (s : State) : Host.Outcome State Fault Refusal :=
  s.run (fun d => let k := i.val * 96 + m.val; d.setRow k row.val (d.row k row.val ^^^ BitVec.ofNat 144 (2 ^ col.val)))

end Sys2Proof.Machine
end

