-- ==== Sys2Proof/Machine/Jtag.lean ====
section
/-! DEFINITION. The JTAG port (R560 to R563): its instructions, the boundary scan of the user I/O banks, the access register, and stream
words. One command is the loading of an instruction, with what is shifted under it. -/

namespace Sys2Proof.Machine

/-- The banks' pins as boundary scan drives them: CLAMP and EXTEST from the preloaded values, HIGHZ not at all (R560, R561).
DESIGN CHOICE: log entry 24. -/
def scanPins (d : Dev) : Dev :=
  (List.range 30).foldl (fun (d : Dev) n =>
    d.emit (.pins n (tget d.jtag.bscanOut 0 n) (if d.jtag.ir = 4 then 0 else tget d.jtag.bscanEn 0 n))) d

/-- The banks' pins as the core drives them. DEDUCED: log entry 105. -/
def corePins (d : Dev) : Dev := (List.range 30).foldl (fun (d : Dev) n => d.emit (.pins n (tget d.pinOut 0 n) (padEnable d n))) d

/-- An instruction is loaded: one that disconnects the core drives the pins and is recorded; one that ends the disconnection gives the
pins back to the core (R561). -/
def loadIr (d : Dev) (ir : Nat) : Dev :=
  let was := bscanActive d
  let d := { d with jtag := { d.jtag with ir := ir } }
  if bscanActive d then scanPins (hubEvent d 3)
  else if was then corePins d
  else d

/-- Boundary-scan cells of the user I/O banks: bank, levels, drive enables. -/
def setCells (d : Dev) (cells : List (Nat × BitVec 48 × BitVec 48)) : Dev :=
  { d with jtag := { d.jtag with
      bscanOut := cells.foldl (fun t e => tput t 0 (e.1 % 30) e.2.1) d.jtag.bscanOut,
      bscanEn := cells.foldl (fun t e => tput t 0 (e.1 % 30) e.2.2) d.jtag.bscanEn } }

/-- An instruction that drives the pins, with the cells shifted and updated while it is current. -/
def testIr (d : Dev) (ir : Nat) (cells : List (Nat × BitVec 48 × BitVec 48)) : Dev :=
  let d := loadIr d ir
  if cells.isEmpty then d else scanPins (setCells d cells)

/-- What SAMPLE captures of a bank: its input levels, with the bank's number above them. -/
def sampleCells (d : Dev) : Dev :=
  (List.range 30).foldl (fun (d : Dev) n => d.emit (.jtag ((tget d.pinLevels 0 n).setWidth 64 + BitVec.ofNat 64 (n * 2 ^ 48)))) d

/-- The identification register (R561). -/
def idcode (d : Dev) : Nat := d.fld 0x141 (R.FUS_DIE + 4) 21 4 * 2 ^ 28 + 0x9256 * 2 ^ 12 + 0x1A7 * 2 + 1

/-- DEDUCED: log entry 104. -/
def jtagReq : Req := { node := 0x143, unit := 31, tenant := 0 }

/-- The register that an access register's offset names: in mailbox slot 16, or in access port 0, whose area ends at 0x7F (R562). -/
def jtagTarget (d : Dev) (off : Nat) : Option (Nat × Nat) :=
  if d.jtag.ir = 0x10 then some (0x141, mbxOff 16 + off)
  else if d.jtag.ir = 0x11 ∧ off < 0x80 then some (0x143, apCtl 0 + off)
  else none

/-- Update-DR of the access register (R562). DEDUCED: log entry 104. -/
def updateDr (d : Dev) (v : W64) : Dev :=
  if !(d.jtag.ir = 0x10 || d.jtag.ir = 0x11) || 0 < bitsOf v.toNat 44 20 then d
  else
    let off := bitsOf v.toNat 34 9 * 4
    let (d, st, x) : Dev × Status × Word :=
      match jtagTarget d off with
      | none => (d, .ok, 0)
      | some (node, o) =>
        if v.getLsbD 43 then
          let (d, st) := regWrite d jtagReq node o (v.setWidth 32)
          (d, st, d.jtag.data)
        else regRead d jtagReq node o
    let d := { d with jtag := { d.jtag with data := x, status := st.code } }
    d.emit (.jtag (x.setWidth 64 + BitVec.ofNat 64 (st.code * 2 ^ 32)))

/-- The controller awaits a JTAG boot stream (R563). -/
def awaitsJtag (d : Dev) : Bool :=
  match d.load with
  | some l => decide (l.source = 3)
  | none => false

/-- One stream word under CFG_STREAM: taken, or discarded with a record (R563). DEDUCED: log entry 104. -/
def cfgStream (d : Dev) (w : W128) (ok : Bool) : Dev :=
  let d := loadIr d 0x12
  (if awaitsJtag d then streamWord d w ok else hubEvent d 4).emit (.jtag 0)

/-! ### Commands -/

abbrev ScanCells := List (Nat × BitVec 48 × BitVec 48)

def execTapReset (s : State) : Host.Outcome State Fault Refusal := s.run (fun d => loadIr d 2)
def execExtest (cells : ScanCells) (s : State) : Host.Outcome State Fault Refusal := s.run (fun d => testIr d 0 cells)
def execSamplePreload (cells : ScanCells) (s : State) : Host.Outcome State Fault Refusal :=
  s.run (fun d => setCells (sampleCells (loadIr d 1)) cells)
def execIdcode (s : State) : Host.Outcome State Fault Refusal :=
  s.run (fun d => let d := loadIr d 2; d.emit (.jtag (BitVec.ofNat 64 (idcode d))))
def execClamp (s : State) : Host.Outcome State Fault Refusal := s.run (fun d => loadIr d 3)
def execHighz (s : State) : Host.Outcome State Fault Refusal := s.run (fun d => loadIr d 4)
def execExtestPulse (cells : ScanCells) (s : State) : Host.Outcome State Fault Refusal := s.run (fun d => testIr d 8 cells)
def execExtestTrain (cells : ScanCells) (s : State) : Host.Outcome State Fault Refusal := s.run (fun d => testIr d 9 cells)
def execCoxMbx (s : State) : Host.Outcome State Fault Refusal := s.run (fun d => loadIr d 0x10)
def execDbgAccess (s : State) : Host.Outcome State Fault Refusal := s.run (fun d => loadIr d 0x11)
def execCfgStream (w : W128) (ok : Bool) (s : State) : Host.Outcome State Fault Refusal := s.run (fun d => cfgStream d w ok)
def execBypass (s : State) : Host.Outcome State Fault Refusal := s.run (fun d => loadIr d 0xFF)
def execJtagUpdateDr (v : W64) (s : State) : Host.Outcome State Fault Refusal := s.run (fun d => updateDr d v)

end Sys2Proof.Machine
end

