-- ==== Sys2Proof/Machine/Network.lean ====
section
/-! DEFINITION. The packet network (R324 to R360): routers and their outputs, injection, the checks on arrival, what each command does at
its target, responses and timeouts, statistics, and the fabric NoC port. One packet command is the arrival of a packet at the node its
header names. -/

namespace Sys2Proof.Machine

/-! ### The checks on arrival (R349) -/

/-- The first header that fails check 1 or 2 at a node is kept: crc received, reason 1 crc or 2 malformed, input port (R349, R360). -/
def captureBad (d : Dev) (node : Nat) (p : Pkt) (reason inPort : Nat) : Dev :=
  if d.flag node R.NOC_BAD_INFO 31 then d
  else (d.setReg64 node R.NOC_BAD_HDR (p.hdr.setWidth 64)).setReg node R.NOC_BAD_INFO
    (BitVec.ofNat 32 (p.crc + reason * 2 ^ 8 + inPort % 8 * 2 ^ 12 + 2 ^ 31))

def crcBad (p : Pkt) : Bool := (hdrCrc p.hdr).toNat ≠ p.crc

/-- A packet whose header fails its crc: discarded without an answer (R349, R350). -/
def dropCrc (d : Dev) (node inPort : Nat) (p : Pkt) : Dev := captureBad ((d.dropped node 0).nocEvent node 0 0 0) node p 1 inPort

def isStrokeCmd (c : Nat) : Bool := c = 0x18 || c = 0x19
def isRsp (c : Nat) : Bool := 0x30 ≤ c && c ≤ 0x3E
/-- Commands between the device's own units (R333). -/
def isInternal (c : Nat) : Bool := c = 0x20 || c = 0x21 || c = 0x22 || c = 0x24 || c = 0x25 || c = 0x28
def isMemCmd (c : Nat) : Bool := (1 ≤ c && c ≤ 4) || (8 ≤ c && c ≤ 0xD)
def isRing (c : Nat) : Bool := c = 0x10 || c = 0x11
def knownCmd (c : Nat) : Bool := isMemCmd c || isRing c || c = 0x14 || isStrokeCmd c || isInternal c || isRsp c
/-- Commands of the request class (R333). -/
def isRequest (c : Nat) : Bool := !isRsp c && !isStrokeCmd c

/-- The lengths a command admits (R333). -/
def lengthOk (c len : Nat) : Bool :=
  if c = 1 || c = 8 || c = 0x11 then 1 ≤ len && len ≤ 128
  else if 2 ≤ c && c ≤ 4 || c = 0x19 || c = 0x28 then len = 0
  else if 9 ≤ c && c ≤ 0xD || c = 0x14 then len = 1
  else if c = 0x18 then 1 ≤ len && len ≤ 8
  else len ≤ 128

/-- The values of rr a command admits (R333). -/
def rrOk (c : Nat) (rr : Bool) : Bool := if 8 ≤ c && c ≤ 0xB then true else if c = 0x14 || isStrokeCmd c || isRsp c then !rr else rr

/-- Data units that follow the header; the units of an internal command are its own. -/
def unitsOk (p : Pkt) : Bool :=
  if isInternal p.cmd then p.data.length ≤ 128
  else p.data.length = (if p.cmd = 8 || p.cmd = 0x10 || p.cmd = 0x18 || isRsp p.cmd then p.len
    else if 9 ≤ p.cmd && p.cmd ≤ 0xD || p.cmd = 0x14 then 1 else 0)

/-- Whether a control-space address is that of a ring record, of a block memory in an island's window (R151). -/
def ringRecord (a : Nat) : Bool :=
  let off := controlOff a % 0x10000
  controlOff a / 0x10000 < 256 && 0x4000 ≤ off && off < 0x5800 && off % 0x40 = 0

/-- R332, with the alignment R331 gives: an access keeps within its 4 KiB block, and the control space takes 32-bit accesses, whole units
and ring commands only. DEDUCED: log entry 108. -/
def addrRuleOk (p : Pkt) : Bool :=
  if isMemCmd p.cmd then
    p.addr % (if p.cmd = 1 || p.cmd = 8 then 16 else cmdBytes p) = 0 && p.addr % 4096 + cmdBytes p ≤ 4096
      && (!inControl p.addr || p.cmd = 1 || p.cmd = 4 || p.cmd = 8 || 0xB ≤ p.cmd)
  else if isRing p.cmd then inControl p.addr && ringRecord p.addr
  else true

/-- Check 2 of R349. -/
def wellFormed (p : Pkt) : Bool :=
  knownCmd p.cmd && lengthOk p.cmd p.len && rrOk p.cmd p.rr && p.route < 2 && p.page < 3 && p.rsvd = 0 && unitsOk p && !p.poison && addrRuleOk p

/-- Whether a node implements a command (check 3 of R349). -/
def implements (node : Nat) (p : Pkt) : Bool :=
  match nodeKind node with
  | some .isl => true
  | some .dram => isMemCmd p.cmd || isRsp p.cmd
  | some .link => p.cmd ≠ 0x14 && !isInternal p.cmd
  | some .hif => (isMemCmd p.cmd && (inControl p.addr || p.cmd ≤ 0xB)) || p.cmd = 0x14 || isRsp p.cmd
  | some .sys => isMemCmd p.cmd || p.cmd = 0x14 || isRsp p.cmd
  | some _ => isMemCmd p.cmd || isRsp p.cmd
  | none => false

/-- Whether an address lies in a node's range (R29, R30): its window of the control space, its DRAM, host memory, or behind a link another
device's space. Only commands whose destination comes from the address are asked (R332). -/
def inRange (d : Dev) (node : Nat) (p : Pkt) : Bool :=
  if !(isMemCmd p.cmd || isRing p.cmd) then true
  else if deviceOf p.addr ≠ d.devId then nodeKind node = some .link
  else if inControl p.addr then controlOff p.addr / 0x10000 = node
  else match nodeKind node with
    | some .dram => (match dramIn (tableFor d p) (localAddr p.addr) with | some (n, _) => 0x100 + n = node | none => false)
    | some .hif => inHost p.addr && hostWindow d (localAddr p.addr)
    | _ => false

/-- The sources a command is accepted from (R40, R351). -/
def sourceOk (node : Nat) (p : Pkt) : Bool :=
  let q := quarterOf node
  if p.cmd = 0x20 then p.src = 0x142
  else if p.cmd = 0x21 || p.cmd = 0x22 then p.src = 0x164 + q
  else if p.cmd = 0x24 || p.cmd = 0x25 then p.src = 0x160 + q
  else if p.cmd = 0x28 then p.src = 0x141
  else if isStrokeCmd p.cmd then p.src < 256 || nodeKind p.src = some .link
  else if p.cmd = 0x14 then p.src < 256
  else true

/-- The answer to a request that fails a check. Like every response it is held against the epoch table (R335), but for STALE, which is
what a failed comparison is answered with. DEDUCED: log entry 107. -/
def refusePkt (d : Dev) (node : Nat) (p : Pkt) (st : Status) : Dev :=
  if !p.rr || isRsp p.cmd then d
  else if st ≠ .stale ∧ d.epochOf node p.src ≠ p.epoch then (d.dropped node 16).nocEvent node 2 p.src p.tenant
  else d.emit (.pkt ⟨mkHdr p.src node (0x30 + st.code) p.tag 0 p.prio p.tenant (d.epoch node) p.route 0 false p.addr, [], false⟩)

/-- DEDUCED: log entry 108. -/
def malformedPkt (d : Dev) (node inPort : Nat) (p : Pkt) : Dev :=
  refusePkt (captureBad ((d.dropped node 8).nocEvent node 1 0 0) node p 2 inPort) node p .malformed

/-- What the checks before the unit's own decide of an arriving packet. -/
inductive Arrival where
  | taken
  | stale (d : Dev)
  | failed (d : Dev)

/-- Checks 1 to 5 of R349, in order. DEDUCED: log entries 108 and 112. -/
def arrivalCheck (d : Dev) (p : Pkt) : Arrival :=
  let node := p.dest
  if crcBad p then .failed (dropCrc d node 4 p)
  else if !wellFormed p then .failed (malformedPkt d node 4 p)
  else if !implements node p then .failed (refusePkt ((d.dropped node 8).nocEvent node 1 0 0) node p .malformed)
  else if !inRange d node p then .failed (refusePkt ((d.nocEvent node 1 0 0).nocEvent node 4 0 0) node p .noTarget)
  else if d.epochOf node p.src ≠ p.epoch then .stale (refusePkt ((d.dropped node 16).nocEvent node 2 p.src p.tenant) node p .stale)
  else if !sourceOk node p then .failed (refusePkt (deniedHere d ⟨p.src, 0, p.tenant⟩ node 0) node p .denied)
  else .taken

/-! ### Register accesses by packet (R331, R332) -/

/-- The requester that a packet stands for: its node, its unit there, its tenant field (R13). -/
def reqOf (d : Dev) (p : Pkt) : Req :=
  { node := p.src, tenant := p.tenant,
    unit := if p.src < 256 then p.tag / 256
      else if p.src = 0x140 then ((d.noc.outst.find? (fun o => o.node = 0x140 && o.tag = p.tag)).map (·.unit)).getD 0 else 0 }

/-- A register word in its lane of a data unit. -/
def laneIn (p : Pkt) : Word := BitVec.ofNat 32 ((p.data.headD 0).toNat / 2 ^ (8 * (p.addr % 16)))

/-- Keep the first status that is not OK. -/
def worse (a b : Status) : Status := if a = .ok then b else a

/-- Words read in ascending order of offset. -/
def readWords (d : Dev) (r : Req) (node : Nat) : List Nat → Dev × Status × List Word
  | [] => (d, .ok, [])
  | off :: rest =>
    let (d, st, v) := regRead d r node off
    let (d, st', l) := readWords d r node rest
    (d, worse st st', v :: l)

/-- Words written in the order given. DEDUCED: log entry 109. -/
def writeWords (d : Dev) (r : Req) (node : Nat) : List (Nat × Word) → Dev × Status
  | [] => (d, .ok)
  | (off, v) :: rest =>
    let (d, st) := regWrite d r node off v
    let (d, st') := writeWords d r node rest
    (d, worse st st')

def unitsFrom : List Word → List W128
  | a :: b :: c :: e :: r => (e ++ c ++ b ++ a) :: unitsFrom r
  | _ => []

/-- The offsets a control-space request touches, and whether it writes. -/
def touched (p : Pkt) : List Nat :=
  let off := controlOff p.addr % 0x10000
  if p.cmd = 1 || p.cmd = 8 then (List.range (4 * p.len)).map (fun k => off + 4 * k) else [off]

/-- The response to a control-space write: later, where it began an island's reload (R198). -/
def respondWrite (b d : Dev) (p : Pkt) (st : Status) (l : List W128) : Dev :=
  if wakeBegan b d p.dest then { d with wakeWait := d.wakeWait ++ [(p.dest, .pkt p)] } else d.respond p.dest p st l

/-- A control-space request is performed at its node. -/
def regPacket (d : Dev) (p : Pkt) : Dev :=
  let node := p.dest
  let r := reqOf d p
  let off := controlOff p.addr % 0x10000
  if p.cmd = 1 then
    let (d, st, l) := readWords d r node (touched p)
    d.respond node p st (unitsFrom l)
  else if p.cmd = 8 then
    let ws := (touched p).zip (p.data.flatMap (fun u => (List.range 4).map (fun k => u.extractLsb' (32 * k) 32)))
    let (e, st) := writeWords d r node ws.reverse
    respondWrite d e p st []
  else if p.cmd = 4 then
    let (d, st, v) := regRead d r node off
    d.respond node p st [laneOf p.addr v]
  else if p.cmd = 0xB then
    let (e, st) := regWrite d r node off (laneIn p)
    respondWrite d e p st []
  else
    let (d, st, v) := regRead d r node off
    if st ≠ .ok then d.respond node p st []
    else
      let (e, st) := regWrite d r node off (if p.cmd = 0xD then v + laneIn p else laneIn p)
      respondWrite d e p st [laneOf p.addr v]

/-- A register request waits whole for the stroke boundary where a word of it does (R184, R251, R568). -/
def regArrive (d : Dev) (p : Pkt) : Dev :=
  let w := 8 ≤ p.cmd
  if (touched p).any (fun off => wordWaits d p.dest off w && isPass (regGate d (reqOf d p) p.dest off)) then
    { d with stateWait := d.stateWait ++ [(p.dest, .pkt p)] }
  else regPacket d p

/-! ### What a taken packet does -/

/-- A ring command at the record its address names (R151, R152, R153, R57). -/
def ringArrive (d : Dev) (p : Pkt) : Dev :=
  let i := p.dest
  let off := controlOff p.addr % 0x10000
  if p.tenant ≠ d.owner i then (deniedHere d ⟨p.src, 0, p.tenant⟩ i off).respond i p .denied []
  else
    let m := (off - 0x4000) / 0x40
    if p.cmd = 0x10 then ringPush d i m p else ringPop d i m p

/-- A NOTIFY (R334): to the host interface, or into the mailbox of an engine, which only its own principal may write (R44, R57).
DEDUCED: log entry 110. -/
def notifyArrive (d : Dev) (p : Pkt) : Dev :=
  let node := p.dest
  let u := p.data.headD 0
  let off := if node < 256 then 0x37F0 else 0x7F0
  if node = 0x140 then notifyHost d p
  else if p.tenant ≠ (if node < 256 then d.owner node else 0) then deniedHere d (reqOf d p) node off
  else
    let e := engAt node off
    if (unitGate d node off).isSome then d
    else (List.range 4).foldl (fun (d : Dev) k => mailboxWrite d e (0xFC + k) (u.extractLsb' (32 * k) 32)) d

/-- A request at a DRAM controller (R57, R367, R377): none where it cannot be taken yet. -/
def dramArrive (d : Dev) (p : Pkt) : Option Dev :=
  let n := p.dest - 0x100
  match dramRefused d n p with
  | some .denied => some ((deniedHere d ⟨p.src, 0, p.tenant⟩ p.dest 0).respond p.dest p .denied [])
  | some st => some (d.respond p.dest p st [])
  | none => dramTake d n p

/-- The unit behind a node takes a packet that passed checks 1 to 5; a packet that its buffers cannot take now stays in the network. -/
def unitTake (d : Dev) (p : Pkt) : Dev :=
  let node := p.dest
  if p.cmd = 0x18 then
    if node < 256 then xiArrive d node (p.addr % 32) p.tenant (p.addr / 32 % 65536) (p.addr.testBit 21) false p.data
    else (linkStrokeOut d (node - 0x110) p).getD d
  else if p.cmd = 0x19 then
    if node < 256 then xoCredit d node (p.addr % 32) (p.addr / 32 % 256) (p.addr / 2 ^ 13 % 256)
    else (linkStrokeOut d (node - 0x110) p).getD d
  else if p.cmd = 0x14 then notifyArrive d p
  else if deviceOf p.addr ≠ d.devId then tunnelRequestOut d (node - 0x110) p
  else if isRing p.cmd then ringArrive d p
  else if inControl p.addr then regArrive d p
  else if node = 0x140 then hostArrive d p
  else ((dramArrive d p).map (fun d => landed d p)).getD d

/-- A stale stroke word is counted at the XI port its address names as well (R218). DEDUCED: log entry 107. -/
def staleWord (d : Dev) (p : Pkt) : Dev :=
  let i := p.dest
  if p.cmd = 0x18 && i < 256 && pathOpen d i then xiDiscard d i (p.addr % 32) p.data.length 16 8 1 2 else d

/-- A request or stroke packet arrives at its node; `act` is what the unit does with it. Nothing at a lost node answers (R611). -/
def arrive (d : Dev) (p : Pkt) (act : Dev → Dev) : Dev :=
  if nodeLost d p.dest || nocStopped d p.dest || (nodeKind p.dest).isNone then d
  else match arrivalCheck d p with
    | .failed d => landed d p
    | .stale d => landed (staleWord d p) p
    | .taken => act d

/-- A packet command: the arrival of a packet that carries its code, or a reserved one, which no row names and check 2 refuses (R349). -/
def packet (code : Nat) (p : Pkt) (s : State) : Host.Outcome State Fault Refusal :=
  s.run (fun d => d.when (decide (p.cmd = code) || !knownCmd p.cmd) (fun d => arrive d p (fun d => unitTake d p)))

/-! ### Statistics (R355, R356) -/

/-- Units of a node that keep a record. -/
def statUnits (node : Nat) : Nat := if node < 256 then 4 else if node = 0x140 then 17 else 1

/-- The tenant of a record. -/
def statTenant (d : Dev) (node unit : Nat) : Nat := if node < 256 then d.owner node else if node = 0x140 then fnTenant d unit else 0

/-- A record's counts move into its registers; counts of records that a debug halt stops are held (R356, R575). -/
def statMove (d : Dev) (node unit : Nat) : Dev :=
  if debugFrozen d (statTenant d node unit) 1 then d
  else
    let x := tget d.noc.stat {} (statKey node unit)
    let o := 0x40 * unit
    let w (n : Nat) : Word := BitVec.ofNat 32 n
    let d := (((d.setReg node (R.NOC_ST_REQS + o) (w x.reqs)).setReg node (R.NOC_ST_REQS + o + 4) (w x.np)).setReg64 node (R.NOC_ST_REQS + o + 8)
      (BitVec.ofNat 64 x.bytes)).setReg node (R.NOC_ST_REQS + o + 0x30) (w (min x.max (2 ^ 24 - 1)))
    let d := (List.range 8).foldl (fun (d : Dev) b => d.setReg node (R.NOC_ST_REQS + o + 0x10 + 4 * b) (w (min (x.hist.getD b 0) (2 ^ 32 - 1)))) d
    updStat d node unit (fun _ => {})

/-- STAT_WINDOW_END at a node: its records, and at a router the units each output port sent (R360). -/
def statWindowEnd (d : Dev) (node : Nat) : Dev :=
  if (nodeKind node).isNone then d
  else
    let d := (List.range (statUnits node)).foldl (fun (d : Dev) u => statMove d node u) d
    if node < 256 then
      let d := (List.range 7).foldl (fun (d : Dev) k => d.setReg node (R.NOC_RTR_UTIL + 4 * k) (BitVec.ofNat 32 (tget d.noc.util 0 (node * 8 + k)))) d
      { d with noc := { d.noc with util := tdrop d.noc.util (fun k => k / 8 = node) } }
    else d

/-! ### Injection (R357) -/

/-- Tokens a request is charged, by command, length and rr. -/
def chargeOf (p : Pkt) : Nat := if p.rr then 2 + p.data.length + answerUnits p.cmd p.len else 1 + p.data.length

/-- The units of a node that inject nothing: those of an island that is evicted, the engines and fabric port of one that is to sleep
(R61, R197), and of a node that is lost or whose NoC clock stands (R204, R611). -/
def injectShut (d : Dev) (node unit : Nat) : Bool :=
  nodeLost d node || nocStopped d node
    || (node < 256 && (((d.isl node).state = .evicting && !midStroke d node) || (unit < 3 && (d.isl node).state = .sleep)))

/-- The k-th waiting request leaves its node: the oldest of its unit, once its tenant's bucket holds a token. -/
def requestInject (d : Dev) (k : Nat) : Dev :=
  match d.noc.inject[k]? with
  | none => d
  | some (node, unit, p) =>
    if (d.noc.inject.take k).any (fun e => e.1 = node && e.2.1 = unit) || bucketOf d node p.tenant < 5120
        || injectShut d node unit || nocStopped d p.dest then d
    else
      let t := bucketOf d node p.tenant - (5120 * chargeOf p : Nat)
      let n := d.noc
      let d := { d with noc := { n with inject := n.inject.eraseIdx k, bucket := tput n.bucket bucketFull (bucketKey node p.tenant) t } }
      (updStat (flown d p) node unit (fun x => { x with reqs := x.reqs + 1, bytes := x.bytes + 16 * p.data.length })).emit (.pkt p)

/-! ### Responses and timeouts (R335, R344) -/

/-- The fabric NoC port presents a response: its header, then its units; room that it did not need is given back (R347, R348). -/
def fabPresent (d : Dev) (i : Nat) (hdr : W128) (data : List W128) (reserved : Nat) : Dev :=
  let n := data.length
  let units := data.zipIdx.map (fun e => (false, e.1, decide (e.2 + 1 = n)))
  d.updIsl i (fun x => { x with fab := { x.fab with
    beats := x.fab.beats ++ (true, hdr, decide (n = 0)) :: units, units := x.fab.units - (reserved - n) } })

/-- A response header that the port makes itself: from its own node, to a request's fields (R335, R347). -/
def fabHdr (d : Dev) (i tag : Nat) (st : Status) (addr : Nat) : W128 := mkHdr i i (0x30 + st.code) tag 0 0 (d.owner i) (d.epoch i) 0 0 false addr

/-- A request of a seal unit has been answered. -/
def sealAnswer (d : Dev) (node tag : Nat) (st : Status) : Dev :=
  match d.sealOut.find? (fun e => e.1 = node && e.2.1 = tag) with
  | some e => catchesSettle (sealNote { d with sealOut := d.sealOut.erase e } (node - 0x160) e.2.2 st)
  | none => d

/-- An outstanding request ends with a status and data: its reservation is freed and its unit told. -/
def requestEnd (d : Dev) (o : Outst) (st : Status) (data : List W128) (hdr : W128) : Dev :=
  let last := (d.noc.outst.filter (fun x => x.node = o.node && x.unit = o.unit)).getLast?
  let d := match nodeKind o.node with
    | some .isl =>
      if o.unit = 0 then fabPresent d o.node hdr data o.answer
      else if o.unit ≤ 2 && last = some o then engResponse d (o.node * 2 + o.unit - 1) st data
      else d
    | some .sys => if last = some o then engResponse d (512 + (o.node - 0x150)) st data else d
    | some .hif => hifResponse d o.tag st data
    | some .dbgh => apResponse d o.unit o.tag st data
    | some .seal => sealAnswer d o.node o.tag st
    | _ => d
  d.dropOutst o.node o.unit o.tag

/-- The outstanding request a response answers. -/
def outstOf (d : Dev) (p : Pkt) : Option Outst :=
  d.noc.outst.find? (fun o => o.node = p.dest && o.tag = p.tag && (256 ≤ o.node || o.unit = p.tag / 256))

/-- RSP: a response arrives at its initiator, `lat` NoC cycles after the injection of its request; at a link port it goes to the proxy of
a tunnelled request (R335, R344, R437). DEDUCED: log entry 92. -/
def rspArrive (d : Dev) (p : Pkt) (lat : Nat) : Dev :=
  arrive d p (fun d =>
    match outstOf d p with
    | some o => requestEnd (statDone d o.node o.unit p.data.length lat (latBin lat)) o (statusOf (p.cmd - 0x30)) p.data p.hdr
    | none =>
      if nodeKind p.dest = some .link then proxyResponse d (p.dest - 0x110) p
      else (d.dropped p.dest 24).nocEvent p.dest 5 0 0)

/-- NOC_TIMEOUT: an injected request without a response ends TIMEOUT; its tag is kept out of use (R344). -/
def nocTimeout (d : Dev) (node tag : Nat) : Dev :=
  match d.noc.outst.find? (fun o => o.node = node && o.tag = tag) with
  | none => d
  | some o =>
    if d.noc.inject.any (fun e => e.1 = node && e.2.2.rr && e.2.2.tag = tag) then d
    else
      let l := max 1 (d.fld node R.NOC_TIMEOUT 0 20) * 1600
      let d := statDone (d.nocEvent node 6 0 0) node o.unit 0 l 7
      let d := requestEnd d o .timeout [] (fabHdr d node tag .timeout o.addr)
      { d with noc := { d.noc with quarantine := d.noc.quarantine ++ [(node, o.unit, tag)] } }

def tagRelease (d : Dev) (node tag : Nat) : Dev :=
  { d with noc := { d.noc with quarantine := d.noc.quarantine.filter (fun e => !(e.1 = node && e.2.2 = tag)) } }

/-! ### Routers (R325 to R340) -/

/-- The channel of a command (R339); arbitration takes the stroke channel first, then responses, then requests (R340). -/
def channelOf (c : Nat) : Nat := if isStrokeCmd c then 2 else if isRsp c then 1 else 0

/-- The attachment a packet uses at a node with `a` of them, from the other end's node and the address (R326). -/
def attachOf (p : Pkt) (other a : Nat) : Nat := (other + (if inDram p.addr && p.addr.testBit 11 then 1 else 0)) % a

/-- The router, and its port, at which a node attaches to the mesh for a packet whose other end is `other` (R325, R326). -/
def attachAt (n other : Nat) (p : Pkt) : Option (Nat × Nat × Nat) :=
  let ox (q : Nat) : Nat := 8 * (q % 2)
  let oy (q : Nat) : Nat := 8 * (q / 2)
  match nodeKind n with
  | some .isl => some (n % 16, n / 16, 4)
  | some .dram =>
    let q := (n - 0x100) / 2
    some ((if q % 2 = 0 then 0 else 12) + 2 * ((n - 0x100) % 2) + attachOf p other 2, if q < 2 then 0 else 15, 5)
  | some .link => let q := (n - 0x110) / 8; some (if q % 2 = 0 then 0 else 15, oy q + (n - 0x110) % 8, 6)
  | some .seal => let q := n - 0x160; let j := attachOf p other 2; some (ox q + 3 + j, oy q + 3 + j, 5)
  | some .scrub => let q := n - 0x164; some (ox q + 4, oy q + 3, 5)
  | some _ => some (4 + attachOf p other 8, 0, 5)
  | none => none

/-- Where a packet leaves the mesh, and where it enters it. -/
def exitOf (p : Pkt) : Option (Nat × Nat × Nat) := attachAt p.dest p.src p
def enterAt (p : Pkt) : Option (Nat × Nat × Nat) := attachAt p.src p.dest p

/-- Nodes of the hub: packets between two of them pass through its switch and never enter the mesh (R325). -/
def isHub (n : Nat) : Bool := (0x140 ≤ n && n ≤ 0x146) || (0x150 ≤ n && n ≤ 0x15F)

/-- Whether a packet can be at an input port of a router: at the port of a node it is where that node's packets to its destination enter. -/
def mayEnter (r inPort : Nat) (p : Pkt) : Bool :=
  if inPort < 4 then true
  else !(isHub p.src && isHub p.dest) && (match enterAt p with | some (x, y, port) => x + 16 * y = r && port = inPort | none => false)

/-! #### Input buffers (R339) -/

/-- Units of a channel in the input buffer of a router's port: packets there go on as the outputs grant them. -/
def unitsHeld (d : Dev) (r inPort c : Nat) : Nat :=
  ((d.noc.waiting.filter (fun w => w.router = r && w.inPort = inPort && channelOf w.pkt.cmd = c)).map (fun w => 1 + w.pkt.data.length)).sum

/-- Free units of 16; a packet may begin to enter while there is one. A packet longer than the buffer lies in several at once.
DEDUCED: log entry 112. -/
def unitsFree (d : Dev) (r inPort c : Nat) : Nat := 16 - unitsHeld d r inPort c

/-- The router and input port behind a mesh output. -/
def behind (r out : Nat) : Option (Nat × Nat) :=
  let x := r % 16
  let y := r / 16
  if out = 0 then (if y < 15 then some (r + 16, 2) else none)
  else if out = 1 then (if x < 15 then some (r + 1, 3) else none)
  else if out = 2 then (if 0 < y then some (r - 16, 0) else none)
  else if out = 3 then (if 0 < x then some (r - 1, 1) else none)
  else none

/-- Credits of a channel downstream of an output; a node behind its port takes what comes. -/
def creditsOf (d : Dev) (r c out : Nat) : Nat :=
  match behind r out with
  | some (r', p') => unitsFree d r' p' c
  | none => 16

/-- The output a router chooses (R337): 0 north, 1 east, 2 south, 3 west, else the exit's own port. `credits`: free credits of the
packet's channel downstream of outputs 0 to 2. -/
def routeOut (x y : Nat) (p : Pkt) (credits : Nat → Nat) : Option Nat :=
  match exitOf p with
  | none => none
  | some (dx, dy, port) =>
    if dx < x then some 3
    else if dx = x && dy = y then some port
    else if p.route = 1 || isStrokeCmd p.cmd then some (if x < dx then 1 else if y < dy then 0 else 2)
    else
      let l := (if x < dx then [1] else []) ++ (if y < dy then [0] else []) ++ (if dy < y then [2] else [])
      some (l.foldl (fun b o => if credits b < credits o then o else b) (l.headD 1))

/-- PACKET_ROUTE at a router: the header's crc, a reserved destination, or the choice of an output, where the packet waits (R349, R350).
`credits` is what the router knows of the credits downstream, at most what is free there. Whether a unit of the packet was
corrected in the input buffer (R331) is a free bit. A packet that its buffer has no room for stays behind.
DEDUCED: log entry 112; DESIGN CHOICE: log entry 151. -/
def packetRoute (d : Dev) (r inPort : Nat) (credits : Nat → Nat) (p : Pkt) : Dev :=
  let c := channelOf p.cmd
  if nodeLost d r || standbyNow d || !(crcBad p || mayEnter r inPort p) || unitsFree d r inPort c = 0 then d
  else
  let d := { (if Config.freeBit d.free r then d.nocEvent r 7 0 0 else d) with free := d.free + 1 }
  if crcBad p then dropCrc d r inPort p
  else match routeOut (r % 16) (r / 16) p (fun o => min (credits o) (creditsOf d r c o)) with
    | none => if isRequest p.cmd then refusePkt (d.nocEvent r 4 0 0) r p .noTarget else d
    | some o => { d with noc := { d.noc with waiting := d.noc.waiting ++ [⟨r, inPort, o, false, p⟩] } }

/-- PACKET_AGED: the k-th packet waiting at a router output is arbitrated as priority 7 from now on (R340). -/
def packetAged (d : Dev) (k : Nat) : Dev :=
  { d with noc := { d.noc with waiting := d.noc.waiting.zipIdx.map (fun e => if e.2 = k then { e.1 with aged := true } else e.1) } }

/-- The order of packets at an output: channel, then priority, then the turn of the input port after the one last served. -/
def waitRank (d : Dev) (w : Waiting) : Nat :=
  let c := channelOf w.pkt.cmd
  let last := tget d.noc.lastIn 0 ((w.router * 8 + w.outPort) * 4 + c)
  (c * 8 + (if w.aged then 7 else w.pkt.prio)) * 16 + (15 - (w.inPort + 16 - last) % 16)

/-- The first of the packets with the highest rank. -/
def bestWait (d : Dev) : List Waiting → Option Waiting
  | [] => none
  | w :: l => match bestWait d l with
    | some v => if waitRank d w < waitRank d v then some v else some w
    | none => some w

def dropFirst (w : Waiting) : List Waiting → List Waiting
  | [] => []
  | v :: l => if v = w then l else v :: dropFirst w l

/-- A packet at the head of its input buffer: buffers are first in, first out, per channel (R338, R339). -/
def atHead (d : Dev) (w : Waiting) : Bool :=
  d.noc.waiting.find? (fun v => v.router = w.router && v.inPort = w.inPort && channelOf v.pkt.cmd = channelOf w.pkt.cmd) = some w

/-- One output grants one packet: all its units leave. DESIGN CHOICE: log entry 2. -/
def grantOutput (d : Dev) (k : Nat) : Dev :=
  let l := d.noc.waiting.filter (fun w => w.router * 8 + w.outPort = k && atHead d w && 0 < creditsOf d w.router (channelOf w.pkt.cmd) w.outPort)
  match bestWait d l with
  | none => d
  | some w =>
    let n := d.noc
    ({ d with noc := { n with waiting := dropFirst w n.waiting,
                              lastIn := tput n.lastIn 0 (k * 4 + channelOf w.pkt.cmd) (w.inPort + 1),
                              util := tput n.util 0 k (tget n.util 0 k + 1 + w.pkt.data.length) } } : Dev).emit (.routed w.router w.outPort w.pkt)

/-- Every output with a packet waiting grants one. -/
def routersRun (d : Dev) : Dev := if standbyNow d then d else ((d.noc.waiting.map (fun w => w.router * 8 + w.outPort)).eraseDups).foldl grantOutput d

/-- The island clock of an island that holds a configuration and runs no stroke: its wire registers capture (R97). -/
def wiresTick (d : Dev) : Dev :=
  d.islands.foldl (fun (d : Dev) e =>
    if (e.2.state = .loaded || e.2.state = .feathered || e.2.state = .restoring) && islClocked d e.1 then clockWiresOnce d e.1 else d) d

/-- With no command waiting the block's own clock runs: one nanosecond, in which each router output grants a packet, engines count a
clock, and wire registers of islands outside a stroke capture. DESIGN CHOICE: log entry 2. -/
def idle (s : State) : Host.Outcome State Fault Refusal := .next { s with dev := sealTick (wiresTick (routersRun (engTick s.dev.tick))) }

/-! ### The fabric NoC port (R345 to R348) -/

/-- The commands the port takes. -/
def fabCmd (c : Nat) : Bool := isMemCmd c || isRing c

/-- A whole request of the port's user: issued, or answered locally; `hdr` holds the fields that the user supplies.
DEDUCED: log entry 111. -/
def fabTake (d : Dev) (i : Nat) (hdr : W128) (units : List W128) : Dev :=
  let p : Pkt := ⟨hdr, units, false⟩
  let tag := p.tag % 256
  let here (d : Dev) (st : Status) : Dev :=
    fabPresent (d.updIsl i (fun x => { x with fab := { x.fab with hdrs := x.fab.hdrs + 1 } })) i (fabHdr d i tag st p.addr) [] 0
  if !(fabCmd p.cmd && lengthOk p.cmd p.len && rrOk p.cmd p.rr && p.route < 2 && p.page < 3 && unitsOk p && addrRuleOk p) then here d .malformed
  else
    let a := answerUnits p.cmd p.len
    match d.request i 0 p.cmd tag p.len p.prio p.route p.page p.rr (d.owner i) p.addr units with
    | (d, some st) => if p.rr then here d st else d
    | (d, none) =>
      if p.rr then d.updIsl i (fun x => { x with fab := { x.fab with hdrs := x.fab.hdrs + 1, units := x.fab.units + a } }) else d

/-- The port works in a joined-mode island that runs (R345). -/
def fabOn (d : Dev) (i : Nat) : Bool :=
  (d.isl i).setup.nocPort && isJoined d i && isRunning (d.isl i).state && !(d.isl i).gated

/-- RQ_READY for a header. -/
def fabReady (d : Dev) (i : Nat) (hdr : W128) : Bool :=
  let p : Pkt := ⟨hdr, [], false⟩
  nocReady d i p.cmd (p.tag % 256) p.len p.rr

/-- One beat on the request pins with RQ_VALID = 1: held off, or the header or a unit taken, and with RQ_LAST the packet whole. -/
def fabBeat (d : Dev) (i : Nat) (hdr unit : W128) (isLast : Bool) : Dev :=
  let x := (d.isl i).fab
  let set (h : Option W128) (l : List W128) : Dev := d.updIsl i (fun s => { s with fab := { s.fab with inHdr := h, inData := l } })
  match x.inHdr with
  | none => if !fabReady d i hdr then d else if isLast then fabTake d i hdr [] else set (some hdr) []
  | some h => if isLast then fabTake (set none []) i h (x.inData ++ [unit]) else set (some h) (x.inData ++ [unit])

/-- RS_TAKE: the response beat presented is gone, and its room is free. -/
def fabAdvance (d : Dev) (i : Nat) : Dev :=
  d.updIsl i (fun x => match x.fab.beats with
    | [] => x
    | (h, _, _) :: r => { x with fab := { x.fab with beats := r, hdrs := x.fab.hdrs - (if h then 1 else 0), units := x.fab.units - (if h then 0 else 1) } })

/-- FABRIC_PORT_REQUEST: a header and its data units are presented, and taken unless RQ_READY holds them off. DEDUCED: log entry 111. -/
def fabRequest (d : Dev) (i : Nat) (hdr : W128) (data : List W128) : Dev :=
  if fabOn d i && (d.isl i).fab.inHdr.isNone && fabReady d i hdr then fabTake d i hdr data else d

/-! ### Packets between the device's own units (R351, R333) -/

/-- A repaired frame: the disturbed nodes of its planes hold their content again (R519, R520). -/
def fixFrame (d : Dev) (i f : Nat) : Dev :=
  let x := d.frame i f
  d.setFrame i f { x with badA := 0, badB := 0 }

def frameUnits (x : Frame) : List W128 := (List.range 32).map (fun k => x.extractLsb' (128 * k) 128)

/-- What a drain read or restore write carries: flip-flops of a cluster, or a memory row. -/
def restoreWrite (d : Dev) (i : Nat) (isRow : Bool) (k : Nat) (v : Row) : Dev :=
  if isRow then d.setRow (i * 96 + k / 512 % 96) (k % 512) v else d.setFf i (k % 4800) (v.setWidth 64)

/-- An internal command at an island. DEDUCED: log entry 109. -/
def internal (code : Nat) (p : Pkt) (act : Dev → Dev) (s : State) : Host.Outcome State Fault Refusal :=
  s.run (fun d => d.when (decide (p.cmd = code)) (fun d => arrive d p act))

/-! ### State accesses served at a boundary (R568) -/

/-- Island clocks of a flip-flop or frame access, and of one that waits in the list. -/
def accCost (d : Dev) (i : Nat) : Nat := if (d.isl i).stateAccess ≠ 0 then 1 else 2

/-- A pending access of an island is served: outside a stroke, at most 16 inserted clocks at one boundary. -/
def accessServed (d : Dev) (i : Nat) : Dev :=
  let x := d.isl i
  if midStroke d i || (strokeMode d i && isRunning x.state && x.phase = 4 && 16 < x.inserted + accCost d i) then d
  else
    let c := accCost d i
    -- the inserted island clocks clock the wire registers too (R97, R121)
    let spent (d : Dev) : Dev := (clockWires d i c).updIsl i (fun x => { x with inserted := x.inserted + c })
    if x.stateAccess ≠ 0 then accServe (spent d) i
    else match d.stateWait.find? (fun e => e.1 = i) with
      | none => d
      | some e =>
        let d := spent { d with stateWait := d.stateWait.erase e }
        match e.2 with
        | .cmd r off w => regCmdNow d r i off w
        | .pkt p => regPacket d p

/-! ### Commands -/

def execRsp (p : Pkt) (lat : Nat) (s : State) : Host.Outcome State Fault Refusal :=
  s.run (fun d => d.when (isRsp p.cmd) (fun d => rspArrive d p lat))
def execRd (p : Pkt) (s : State) : Host.Outcome State Fault Refusal := packet 1 p s
def execRd1 (p : Pkt) (s : State) : Host.Outcome State Fault Refusal := packet 2 p s
def execRd2 (p : Pkt) (s : State) : Host.Outcome State Fault Refusal := packet 3 p s
def execRd4 (p : Pkt) (s : State) : Host.Outcome State Fault Refusal := packet 4 p s
def execWr (p : Pkt) (s : State) : Host.Outcome State Fault Refusal := packet 8 p s
def execWr1 (p : Pkt) (s : State) : Host.Outcome State Fault Refusal := packet 9 p s
def execWr2 (p : Pkt) (s : State) : Host.Outcome State Fault Refusal := packet 0xA p s
def execWr4 (p : Pkt) (s : State) : Host.Outcome State Fault Refusal := packet 0xB p s
def execSwap (p : Pkt) (s : State) : Host.Outcome State Fault Refusal := packet 0xC p s
def execFadd (p : Pkt) (s : State) : Host.Outcome State Fault Refusal := packet 0xD p s
def execRpush (p : Pkt) (s : State) : Host.Outcome State Fault Refusal := packet 0x10 p s
def execRpop (p : Pkt) (s : State) : Host.Outcome State Fault Refusal := packet 0x11 p s
def execNotify (p : Pkt) (s : State) : Host.Outcome State Fault Refusal := packet 0x14 p s
def execStroke (p : Pkt) (s : State) : Host.Outcome State Fault Refusal := packet 0x18 p s
def execSack (p : Pkt) (s : State) : Host.Outcome State Fault Refusal := packet 0x19 p s
def execRingPushWritten (i : Isl) (m : MemIx) (s : State) : Host.Outcome State Fault Refusal := s.run (fun d => ringWritten d i.val m.val)

/-- A frame is written. -/
def execFrwr (p : Pkt) (f : Fin 4608) (bits : Frame) (s : State) : Host.Outcome State Fault Refusal :=
  internal 0x20 p (fun d => (writeFrame d p.dest f.val bits).respond p.dest p .ok []) s
/-- Both planes of a frame are read: plane A's units, then plane B's. -/
def execFrrd (p : Pkt) (f : Fin 4608) (s : State) : Host.Outcome State Fault Refusal :=
  internal 0x21 p (fun d =>
    let x := d.frame p.dest f.val
    d.respond p.dest p .ok (frameUnits (x.bits ^^^ x.badA) ++ frameUnits (x.bits ^^^ x.badB))) s
def execFrfix (p : Pkt) (f : Fin 4608) (s : State) : Host.Outcome State Fault Refusal :=
  internal 0x22 p (fun d => (fixFrame d p.dest f.val).respond p.dest p .ok []) s
def execCatrd (p : Pkt) (s : State) : Host.Outcome State Fault Refusal :=
  internal 0x24 p (fun d => (drainNext d p.dest).respond p.dest p .ok []) s
def execCatwr (p : Pkt) (isRow : Bool) (k : Nat) (v : Row) (s : State) : Host.Outcome State Fault Refusal :=
  internal 0x25 p (fun d => if (d.isl p.dest).state = .restoring then (restoreWrite d p.dest isRow k v).respond p.dest p .ok []
    else d.respond p.dest p .badState []) s
def execZero (p : Pkt) (s : State) : Host.Outcome State Fault Refusal :=
  internal 0x28 p (fun d => (zeroStart d p.dest).respond p.dest p .ok []) s

def execPacketRoute (r : Isl) (inPort : Fin 7) (cn ce cs : Fin 17) (p : Pkt) (s : State) : Host.Outcome State Fault Refusal :=
  s.run (fun d => packetRoute d r.val inPort.val (fun o => if o = 0 then cn.val else if o = 1 then ce.val else cs.val) p)
def execPacketAged (k : Nat) (s : State) : Host.Outcome State Fault Refusal := s.run (fun d => packetAged d k)
def execRequestInject (k : Nat) (s : State) : Host.Outcome State Fault Refusal := s.run (fun d => requestInject d k)
def execNocTimeout (node tag : Fin 1024) (s : State) : Host.Outcome State Fault Refusal := s.run (fun d => nocTimeout d node.val tag.val)
def execTagRelease (node tag : Fin 1024) (s : State) : Host.Outcome State Fault Refusal := s.run (fun d => tagRelease d node.val tag.val)
def execStatWindowEnd (node : Fin 1024) (s : State) : Host.Outcome State Fault Refusal := s.run (fun d => statWindowEnd d node.val)
def execFabricPortRequest (i : Isl) (hdr : W128) (data : List W128) (s : State) : Host.Outcome State Fault Refusal :=
  s.run (fun d => fabRequest d i.val hdr data)
def execStateAccessServed (i : Isl) (s : State) : Host.Outcome State Fault Refusal := s.run (fun d => accessServed d i.val)

end Sys2Proof.Machine
end

