-- ==== Sys2Proof/Machine/Bars.lean ====
section
/-! DEFINITION. Host accesses through the BARs (R33 to R38, R456, R457, R463). -/

namespace Sys2Proof.Machine

/-! ### BAR0 -/

/-- The device address of a BAR0 offset: the own control space, or that of the device HIF_CREW_SEL selects (R33, R34). -/
def bar0Addr (d : Dev) (f off : Nat) : Nat :=
  let dev := if off < 0x4000000 then d.devId else d.fld 0x140 (fnArea f R.HIF_CREW_SEL) 0 6
  dev * 2 ^ 46 + 0x3FFFFC000000 + off % 0x4000000

/-- A function reaches no access port of the debug hub but its own path's (R565). DEDUCED: log entry 91. -/
def bar0Port (f off : Nat) : Bool :=
  let o := off % 0x4000000
  0x1431000 ≤ o && o < 0x1431900 && (o - 0x1431000) / 0x80 ≠ f + 1

def hostReq (d : Dev) (f : Nat) : Req := { node := 0x140, unit := f, tenant := fnTenant d f }

/-- What a refused BAR0 read returns (R35). -/
def bar0Word (st : Status) : Word := if st = .denied then 0 else 0xFFFFFFFF

/-- A 32-bit read (R456). While no tag is free the host interface does not take it. DEDUCED: log entry 91. -/
def bar0Read (d : Dev) (f tag off : Nat) : Dev :=
  if bar0Port f off then (barError (deniedHere d (hostReq d f) 0x140 off) f off .denied false false).emit (.pcieRead f tag 0)
  else if !hifRoom d then d
  else match hifRequest d f 4 0 0 1 0 (bar0Addr d f off) [] (.bar0Read f tag off) with
    | (d, none) => d
    | (d, some st) => (barError d f off st false false).emit (.pcieRead f tag (bar0Word st))

/-- A 32-bit write (R456). -/
def bar0Write (d : Dev) (f off : Nat) (v : Word) : Dev :=
  if bar0Port f off then barError (deniedHere d (hostReq d f) 0x140 off) f off .denied false true
  else if !hifRoom d then d
  else
    let a := bar0Addr d f off
    match hifRequest d f 0xB 1 0 1 0 a [laneOf a v] (.bar0Write f off) with
    | (d, none) => d
    | (d, some st) => barError d f off st false true

/-- No response to a BAR0 read in time: the read completes with all ones, and its response will be discarded (R456). -/
def mmioTimeout (d : Dev) (tag : Nat) : Dev :=
  match d.hifUses.find? (fun e => e.1 = tag) with
  | some (_, .bar0Read f t off) =>
    (barError { d with hifUses := d.hifUses.filter (fun e => e.1 ≠ tag) } f off .timeout false false).emit (.pcieRead f t 0xFFFFFFFF)
  | _ => d

/-! ### BAR2 -/

/-- The first access of a run of bytes: whole units within a 4 KiB block, or 4, 2 or 1 bytes (R331, R332). -/
def pieceLen (off len : Nat) : Nat :=
  if off % 16 = 0 && 16 ≤ len then min (len / 16 * 16) (min 2048 (4096 - off % 4096))
  else if off % 4 = 0 && 4 ≤ len then 4
  else if off % 2 = 0 && 2 ≤ len then 2
  else 1

/-- A run of bytes cut into accesses: offset and length. DESIGN CHOICE: log entry 90. -/
def pieces : Nat → Nat → Nat → List (Nat × Nat)
  | 0, _, _ => []
  | fuel + 1, off, len => if len = 0 then [] else
    let n := pieceLen off len
    (off, n) :: pieces fuel (off + n) (len - n)

/-- Runs of enabled bytes: offset and bytes. -/
def enabledRuns (off : Nat) : List (Option Byte) → List (Nat × List Byte)
  | [] => []
  | none :: r => enabledRuns (off + 1) r
  | some b :: r =>
    match enabledRuns (off + 1) r with
    | (o, l) :: t => if o = off + 1 then (off, b :: l) :: t else (off, [b]) :: (o, l) :: t
    | [] => [(off, [b])]

/-- A BAR2 access outside a virtual function's mapping: no effect, recorded as a denial (R36). -/
def bar2Denied (d : Dev) (f off : Nat) (wr : Bool) : Dev := barError (deniedHere d (hostReq d f) 0x140 off) f off .denied true wr

/-- One access of a BAR2 read: issued once every earlier BAR2 write of the function has been answered (R457). -/
def bar2Read (d : Dev) (f tag off len : Nat) : Dev :=
  match bar2Addr d f off with
  | none => (bar2Denied d f off false).emit (.pcieData f tag off (List.replicate len 0))
  | some a =>
    if bar2Writing d f then { d with bar2Waits := d.bar2Waits ++ [⟨f, tag, off, len⟩] }
    else bar2Send d ⟨f, tag, off, len⟩ a

/-- One access of a BAR2 write. -/
def bar2Write (d : Dev) (f off : Nat) (data : List Byte) : Dev :=
  match bar2Addr d f off with
  | none => bar2Denied d f off true
  | some a =>
    let n := data.length
    let cmd := if n = 1 then 9 else if n = 2 then 0xA else if n = 4 then 0xB else 8
    let units := if cmd = 8 then unitsOf (n / 16) data else [BitVec.ofNat 128 (ofBytes data * 2 ^ (8 * (a % 16)))]
    match hifRequest d f cmd units.length 0 1 0 a units (.bar2Write f off) with
    | (d, none) => d
    | (d, some st) => barError d f off st true true

/-- The size of BAR2 in force (R455). -/
def bar2Size (d : Dev) (f : Nat) : Nat := 2 ^ (30 + min 10 (d.fld 0x140 R.HIF_BAR_CFG (if f = 0 then 8 else 12) 4))

/-- DESIGN CHOICE: log entry 90. -/
def bar2ReadAll (d : Dev) (f tag off len : Nat) : Dev :=
  if bar2Size d f < off + len || !hifRoom d then d
  else (pieces len off len).foldl (fun (d : Dev) e => bar2Read d f tag e.1 e.2) d

def bar2WriteAll (d : Dev) (f off : Nat) (data : List (Option Byte)) : Dev :=
  if bar2Size d f < off + data.length || !hifRoom d then d
  else (enabledRuns off data).foldl (fun (d : Dev) r =>
    (pieces r.2.length r.1 r.2.length).foldl (fun (d : Dev) e => bar2Write d f e.1 ((r.2.drop (e.1 - r.1)).take e.2)) d) d

/-! ### Doorbells (R38, R463) -/

/-- A write in a channel's BAR4 page by function f; `whole`: it covers the four bytes at `off` and no others. DEDUCED: log entry 91. -/
def doorbell (d : Dev) (f c off : Nat) (whole : Bool) (v : Word) : Dev :=
  let x := d.chan c
  let tail := bitsOf v.toNat 0 16
  let head := bitsOf v.toNat 16 16
  if chanFn d c ≠ some f then fnEvent d f 1
  else if off ≠ 0 || !whole then fnEvent d f 2
  else if (x.state ≠ 1 && x.state ≠ 2) || blockShut d f c then d.countFld 0x140 (fnArea f R.HIF_FN_DB_IGNORED) 0 32 1
  else if x.sqSize ≤ tail || x.cqSize ≤ head then
    -- the status of a doorbell's error is not stated: a free value
    let (n, d) := d.draw
    chanFail d c 3 (n % 16)
  else d.setChan c { x with sqTail := tail, cqHead := head }

/-! ### Commands -/

/-- BAR0 accesses are of whole registers, by their number in the BAR. -/
def execHostBar0Read (f : FnIx) (tag : BitVec 10) (w : BitVec 25) (s : State) : Host.Outcome State Fault Refusal :=
  s.run (fun d => bar0Read d f.val tag.toNat (4 * w.toNat))
def execHostBar0Write (f : FnIx) (w : BitVec 25) (v : Word) (s : State) : Host.Outcome State Fault Refusal :=
  s.run (fun d => bar0Write d f.val (4 * w.toNat) v)
def execMmioTimeout (tag : Fin 1024) (s : State) : Host.Outcome State Fault Refusal := s.run (fun d => mmioTimeout d tag.val)
def execHostBar2Read (f : FnIx) (tag : BitVec 10) (off : BitVec 40) (len : Fin 4097) (s : State) : Host.Outcome State Fault Refusal :=
  s.run (fun d => bar2ReadAll d f.val tag.toNat off.toNat len.val)
def execHostBar2Write (f : FnIx) (off : BitVec 40) (data : List (Option Byte)) (s : State) : Host.Outcome State Fault Refusal :=
  s.run (fun d => bar2WriteAll d f.val off.toNat data)
def execHifCrewSelWrite (r : Req) (f : FnIx) (v : Word) (s : State) : Host.Outcome State Fault Refusal :=
  s.run (fun d => d.regCmd r 0x140 (fnArea f.val R.HIF_CREW_SEL) v storeWriter)
/-- A read of any BAR4 location returns 0x0000_0000 (R38). No row of the opcode table commands one. -/
def bar4Read (d : Dev) (f tag : Nat) : Dev := d.emit (.pcieRead f tag 0)

def execDoorbell (f : FnIx) (c : ChanIx) (off : BitVec 12) (whole : Bool) (v : Word) (s : State) : Host.Outcome State Fault Refusal :=
  s.run (fun d => doorbell d f.val c.val off.toNat whole v)

end Sys2Proof.Machine
end

