-- ==== Sys2Proof/Machine/DevStates.lean ====
section
/-! DEFINITION. What happens to the whole device: power-on reset and start-up (R489, R514, R597, R618, R630, R638), loss of rails (R611,
R644), and a thermal trip (R200, R638). -/

namespace Sys2Proof.Machine

/-! ### Device reset -/

/-- Registers that a device reset keeps: the battery's counters and granule map, the fuses, and those of the event log, which reset with
its records (R529, R532, R556, R605). -/
def keptReg (k : Nat) : Bool :=
  (k / 65536 = 0x145 && decide (k % 65536 < 0xF000)) || k / 65536 = 0x141 && (let o := k % 65536
    decide (0x10 ≤ o ∧ o < 0x18) || decide (0xC8 ≤ o ∧ o < 0x1C0) || decide (0x1000 ≤ o ∧ o < 0x1124))

/-- Everything takes its reset value but the battery's content, the fuses, the event log, and what is outside the device:
input levels, rails that are lost, a thermal trip held until VCC_AUX falls. DESIGN CHOICE: log entry 53; DEDUCED: log entry 117. -/
def deviceReset (d : Dev) : Dev :=
  { free := d.free, out := d.out, pinLevels := d.pinLevels, thermTrip := d.thermTrip, lostQuarters := d.lostQuarters, lost := d.lost,
    regs := d.regs.filter (fun e => keptReg e.1), battery := d.battery, tenants := d.tenants, versions := d.versions,
    fuseKey := d.fuseKey, fuseKeyOk := d.fuseKeyOk,
    evlog := { d.evlog with copying := none, copyNext := none, copyLost := 0 } }

/-- Every bank's outputs are disabled. -/
def outputsOff (d : Dev) : Dev := (List.range 30).foldl (fun (d : Dev) n => d.emit (.pins n 0 0)) d

/-- POWER_ON_RESET_ASSERT: PWRON_RST_N falls. CFG_DONE is driven low again. -/
def powerReset (d : Dev) : Dev := (outputsOff (deviceReset d)).emit (.pin 1 false)

def execPowerOnResetAssert (s : State) : Host.Outcome State Fault Refusal := s.run powerReset

/-- VCC_AUX_LOSS: device reset, outputs in high impedance, THERMTRIP_N released. DEDUCED: log entry 119. -/
def auxLoss (d : Dev) : Dev := ({ (outputsOff (deviceReset d)) with thermTrip := false } : Dev).emit (.pin 3 true)

def execVccAuxLoss (s : State) : Host.Outcome State Fault Refusal := s.run auxLoss

/-- RAIL_LOSS: 0 to 3 a quarter's rail, 4 VCC_HUB, which the event log needs to keep what it holds, 5 REFCLK_CORE.
DEDUCED: log entries 117 and 119. -/
def railLoss (d : Dev) (r : Nat) : Dev :=
  if r < 4 then { d with lostQuarters := if d.lostQuarters.contains r then d.lostQuarters else d.lostQuarters ++ [r] }
  else if r = 4 then { (d.resetRegs 0x145 0 0xF000) with lost := true, evlog := {} }
  else { d with lost := true }

def execRailLoss (r : Fin 6) (s : State) : Host.Outcome State Fault Refusal := s.run (fun d => railLoss d r.val)

/-! ### Start-up -/

/-- The straps as latched: MODE, CREW_ID and every function's HIF_CREW_SEL. -/
def latchStraps (d : Dev) (u : StartUp) : Dev :=
  let d := (d.setFld 0x142 R.CFG_STATUS 6 3 u.mode.toNat).setFld 0x142 R.CRW_ID 0 6 u.crew.toNat
  (List.range 17).foldl (fun (d : Dev) f => d.setReg 0x140 (fnArea f R.HIF_CREW_SEL) (u.crew.setWidth 32)) d

/-- The battery memory at power-on: verified, or lost, with every granule to be filled and nothing restored (R533).
DEDUCED: log entry 119; DESIGN CHOICE: log entry 150. -/
def batteryCheck (d : Dev) (ok : Bool) : Dev :=
  if ok && !d.battery.low then
    { (d.orReg 0x141 R.COX_STATUS (bit 9)) with unfilled := (List.range 1024).filter (fun g => d.flag 0x141 (R.COX_GMAP + 4 * (g / 32)) (g % 32)) }
  else
    let d := d.resetRegs 0x141 R.COX_GMAP (R.COX_GMAP + 0x80)
    coxEvent ({ d with unfilled := List.range 1024, tenants := [], versions := [], battery := { d.battery with keys := [] } }.orReg 0x141 R.COX_STATUS (bit 10)) 4

/-- Accepted entries take effect again, and stored keys are unwrapped (R532, R538); the Owner's root is in fuses or battery memory.
DESIGN CHOICE: log entry 118. -/
def coxRestore (d : Dev) : Dev :=
  let d := d.tenants.foldl (fun (d : Dev) e => entryTables d e.1 e.2) d
  let d := (List.range 16).foldl (fun (d : Dev) p =>
    match tget d.battery.keys none p with
    | some k => if p = 0 && !policy d 7 then d else setRoot d p k
    | none => d) d
  match d.fuseKey with
  | some k => if d.fuseKeyOk && !policy d 7 then setRoot d 0 k else d
  | none => d

/-- Service firmware (R317): role r runs on engine r for r = 0 to 13; two engines are spares. -/
def serviceStart (d : Dev) (u : StartUp) : Dev :=
  let d := { d with roleImg := u.roles.foldl (fun t e => tput t (0, []) (e.1 % 14) e.2) [] }
  let d := (List.range 14).foldl (fun (d : Dev) r =>
    let d := (d.setReg (0x150 + r) R.SCL_SYS_ROLE (BitVec.ofNat 32 r)).setReg (0x150 + r) R.SCL_SYS_FW (u.fw &&& 0x80FFFFFF#32)
    setRoledir (roleLoad d r r) r (r + 2 ^ 31)) d
  let d := (d.setReg 0x15E R.SCL_SYS_ROLE 0x10).setReg 0x15F R.SCL_SYS_ROLE 0x10
  d.setReg 0x141 R.COX_SYS_FW (u.fw &&& 0x80FFFFFF#32)

/-- A copy of the log that waited for this reset is made before any load (R602). DESIGN CHOICE: log entry 118. -/
def pendingCopy (d : Dev) (ok : Bool) : Dev :=
  match d.evlog.copyPending with
  | some q => flashCopyDone (d.withLog (fun l => { l with copying := some q, copyPending := none })) ok
  | none => d

/-- POWER_ON_RESET_RELEASE: the straps are latched and the Cox starts the device; nothing happens where the device is not held in
reset. Where no Cox image may run, the ROM enters recovery, derives no key and starts no load (R551). DESIGN CHOICE: log entry 118. -/
def startUp (d : Dev) (u : StartUp) : Dev :=
  if coxState d ≠ 0 then d
  else
    let d := latchStraps { d with lost := false, lostQuarters := [] } u
    let rec_ := !(u.imageOk && decide (coxCount d ≤ u.epoch))
    let d := d.setReg 0x141 R.COX_ID (BitVec.ofNat 32 (u.version.toNat + (if u.patched then 2 ^ 16 else 0) + (if rec_ then 2 ^ 17 else 0)))
    let d := batteryCheck (d.setFld 0x141 R.COX_STATUS 0 3 (if rec_ then 2 else 1)) u.batteryOk
    let d := pendingCopy d u.copyOk
    if rec_ then d
    else bootStart (serviceStart (coxRestore d) u) u.e0 u.e1

def execPowerOnResetRelease (u : StartUp) (s : State) : Host.Outcome State Fault Refusal := s.run (fun d => startUp d u)

/-! ### Thermal trip -/

/-- THERMAL_TRIP: every island and group clock stops, THERMTRIP_N falls; a load aborts, drains stop, an exclusive test ends without a
result. DEDUCED: log entry 117. -/
def thermalTrip (d : Dev) : Dev :=
  if d.thermTrip then d
  else
    let d := { d with thermTrip := true }.emit (.pin 3 false)
    let d := (List.range 256).foldl (fun (d : Dev) i => d.cause i 6) d
    let d := d.sticky 0x146 10 22 9 R.PWR_ALARM
    let d := (d.catches.filter (fun c => !c.restore)).foldl (fun (d : Dev) c => catchStop d c .aborted) d
    loadStop { d with svcTest := none }

def execThermalTrip (s : State) : Host.Outcome State Fault Refusal := s.run thermalTrip

end Sys2Proof.Machine
end

