-- ==== Sys2Proof/Machine/Joined.lean ====
section
/-! DEFINITION. Clock edges outside strokes: group clocks of joined islands (R79, R127, R309, R407, R569, R637), wire clocks (R83, R119,
R127) and asynchronous set and reset (R81). Everything on one edge acts from the state before it. -/

namespace Sys2Proof.Machine

/-! ### Which clocks pass (R114 to R118, R200, R243) -/

/-- The islands of a joined group whose clocks run. -/
def clockedIslands (d : Dev) (g : BitVec 6) : List Nat :=
  (groupIslands d g).filter (fun i => isRunning (d.isl i).state && !(d.isl i).gated && islClocked d i)

/-- Throttle kinds in force on any island of a group. -/
def groupThrottles (d : Dev) (g : BitVec 6) : Nat :=
  (if (groupIslands d g).any (fun i => (d.isl i).throttleOc) then 1 else 0) + (if (groupIslands d g).any (fun i => (d.isl i).throttleTh) then 1 else 0)

/-- Whether the source of group clock n has edges: it runs, and a GCIN pin is not disconnected by boundary scan (R194, R561). -/
def clockRuns (d : Dev) (n : Nat) : Bool := sourceRuns d (gcSource d n) && !(16 ≤ gcSource d n && bscanActive d)

def gcKey (g : BitVec 6) (n : Nat) : Nat := g.toNat * 16 + n

/-- Under h throttle kinds one pulse in 2^h passes (R200). -/
def pulsePasses (d : Dev) (g : BitVec 6) (h n : Nat) (rising : Bool) : Bool :=
  let c := tget d.gcEdges 0 (gcKey g n)
  if rising then c % 2 ^ h = 0 else (c + 3) % 2 ^ h = 0

/-- Rising edges counted under a throttle, modulo 4. -/
def countPulse (d : Dev) (g : BitVec 6) (h n : Nat) : Dev :=
  if h = 0 then { d with gcEdges := tput d.gcEdges 0 (gcKey g n) 0 }
  else { d with gcEdges := tput d.gcEdges 0 (gcKey g n) ((tget d.gcEdges 0 (gcKey g n) + 1) % 4) }

/-- The clocks of a set that have an edge at a group. -/
def passedClocks (d : Dev) (g : BitVec 6) (clocks : BitVec 16) (rising : Bool) : BitVec 16 :=
  let h := groupThrottles d g
  BitVec.ofNat 16 ((List.range 16).foldl (fun a n =>
    if clocks.getLsbD n && clockRuns d n && (h = 0 || pulsePasses d g h n rising) then a + 2 ^ n else a) 0)

/-- DEDUCED: log entry 113. -/
def countPulses (d : Dev) (g : BitVec 6) (clocks : BitVec 16) (rising : Bool) : Dev :=
  if !rising then d
  else (List.range 16).foldl (fun (d : Dev) n => if clocks.getLsbD n && clockRuns d n then countPulse d g (groupThrottles d g) n else d) d

/-! ### What sits on a cluster's clock line CL0: `b` is the state before the edge -/

/-- A rising edge of CL0 at a cluster. -/
def cl0 (b : Dev) (i r c : Nat) (x : EdgeSet) : Bool := x.rising && x.line b i r c 0

def islPorts (d : Dev) (i j : Nat) (f : PortSet → PortSet) : Dev :=
  d.updIsl i (fun x => if j = 0 then { x with ps0 := f x.ps0 } else { x with ps1 := f x.ps1 })

/-- Words of the head entry taken at this edge; the entry leaves once all of its words have been. -/
def takeWords (q : PortSet) (takes : List Nat) : PortSet :=
  match q.staging with
  | [] => q
  | (first, ws) :: rest =>
    let t := takes.foldl (fun (t : BitVec 16) p => if first ≤ p && p < first + ws.length then t ||| BitVec.ofNat 16 (2 ^ p) else t) q.taken
    if (List.range ws.length).all (fun k => t.getLsbD (first + k)) then { q with staging := rest, taken := 0, gone := q.gone + 1 } else { q with taken := t }

/-- The two synchroniser stages of the ports with an edge (R309). -/
def portSync (q b : PortSet) (on : List Nat) : PortSet :=
  { q with
    seen := on.foldl (fun t p => tput t (0, 0) p (b.gone + b.staging.length, (tget t (0, 0) p).1)) q.seen,
    popSeen := on.foldl (fun t p => tput t (0, 0) p (tget b.pops 0 p, (tget t (0, 0) p).1)) q.popSeen }

/-- An up word of a joined port: into its FIFO, or, while U_FULL is asserted, discarded with up_overflow (R309). -/
def pushUp (b d : Dev) (i j p : Nat) (w : W128) : Dev :=
  let q := portSet (d.isl i) j
  let l := tget q.up [] p
  if portOut b i j p 129 then sclEvent d (2 * i + d.fld i R.SCL_PORT_MAP j 1) 7
  else islPorts d i j (fun q => { q with up := tput q.up [] p (l ++ [(w, 0)]) })

/-- The engine ports of a set (R309). -/
def portEdges (b d : Dev) (i j : Nat) (x : EdgeSet) : Dev :=
  let on := (List.range 16).filter (fun p => cl0 b i (6 * p) (if j = 0 then 0 else 49) x)
  let takes := on.filter (fun p => b.net (.sitePin i (.port j p) 129) && portOut b i j p 128)
  let ups := (on.filter (fun p => b.net (.sitePin i (.port j p) 128))).map (fun p => (p, BitVec.ofNat 128 (sitePins b i (.port j p) 0 128)))
  let d := islPorts d i j (fun q => portSync (takeWords q takes) (portSet (b.isl i) j) on)
  ups.foldl (fun (d : Dev) e => pushUp b d i j e.1 e.2) d

/-- The fabric NoC port (R346 to R348). -/
def fabEdge (b d : Dev) (i : Nat) (x : EdgeSet) : Dev :=
  if !(fabOn b i && cl0 b i 95 21 x) then d
  else
    let pin (u w : Nat) : Nat := sitePins b i .noc u w
    let d := if b.net (.sitePin i .noc 256) then
        fabBeat d i (BitVec.ofNat 128 (pin 0 128)) (BitVec.ofNat 128 (pin 128 128)) (b.net (.sitePin i .noc 257)) else d
    -- a beat made at this edge is not presented before the next (R348)
    if b.net (.sitePin i .noc 258) && !(b.isl i).fab.beats.isEmpty then fabAdvance d i else d

/-- The lanes attached to an island (R407, R408). -/
def laneEdges (b d : Dev) (i : Nat) (x : EdgeSet) : Dev :=
  match groupOf i with
  | some n =>
    if !((b.isl i).setup.laneAttach && b.fld (0x110 + n) R.LANE_GRP_CFG 0 2 = 2) then d
    else (List.range 9).foldl (fun (d : Dev) j =>
      if cl0 b i (10 * j) (if quarterOf i % 2 = 0 then 0 else 49) x then
        laneDesignEdge d (9 * n + j) (BitVec.ofNat 128 (sitePins b i (.lane j) 0 128)) (b.net (.sitePin i (.lane j) 128)) (b.net (.sitePin i (.lane j) 129))
      else d) d
  | none => d

/-- A bank attached to a joined island takes what the fabric drives (R637): the path is combinational. DEDUCED: log entry 120. -/
def bankPins (d : Dev) (i : Nat) : Dev :=
  match bankOf i with
  | some n =>
    if strokeMode d i || unconfigured d i || !attachOn d i then d
    else
      let w : W128 := BitVec.ofNat 128 (sitePins d i .bank 0 96)
      if tget d.pinOut 0 n = w.extractLsb' 0 48 && tget d.pinEn 0 n = w.extractLsb' 48 48 then d else drivePins d n w
  | none => d

/-! ### Free channels of joined islands (R233) -/

/-- A pop takes the word at the head of a free XI port. DESIGN CHOICE: log entry 24. -/
def freePop (d : Dev) (i p : Nat) : Dev :=
  let x := d.xi i p
  let c := xiCfg d i p
  match x.buf with
  | [] => d
  | w :: r =>
    if !(c.en && c.free) || (d.isl i).setup.groupId = 0 then d
    else
      let d := (d.setXi i p { x with buf := r, shown := [w.2] }).setReg i (xiOff R.XCH_XI_WORDS p) (d.reg i (xiOff R.XCH_XI_WORDS p) + 1)
      xiReturn d i p 0 1

/-- A push into a free XO port's FIFO of 80; against the full flag it is lost. DESIGN CHOICE: log entry 24; DEDUCED: log entry 113. -/
def freePush (d : Dev) (i p : Nat) (w : W128) : Dev :=
  let x := d.xo i p
  let c := xoCfg d i p
  if !(c.en && c.free) || (d.isl i).setup.groupId = 0 || 80 ≤ x.fifo.length then d
  else freeDrain (d.setXo i p { x with fifo := x.fifo ++ [w], last := [(0, w)] }) i p

/-! ### A group clock edge -/

/-- Flip-flops of a pair whose asynchronous SR was released within t_REC before this edge: each takes srval or what the edge gives
it (R81). DESIGN CHOICE: log entry 25. -/
def lateReset (b d : Dev) (i key : Nat) (x : EdgeSet) : Dev :=
  let clu := key / 16
  let r := clu / 50
  let c := clu % 50
  let p := key % 16
  if pairFld b i r c p 5 2 ≠ 2 || srNet b i r c p then d
  else
    let bits := (List.range 4).filterMap (fun n =>
      (ffNext b i r c (2 * p + n / 2) (n % 2) x).map (fun v =>
        (4 * p + n, if Config.freeBit b.free (key * 4 + n) then srval b i r c (2 * p + n / 2) (n % 2) else v)))
    { (setFfBits d i clu bits) with free := d.free + 1 }

/-- One island's units on the clocks that pass. -/
def joinedEdge (b d : Dev) (i : Nat) (x : EdgeSet) (late : List Nat) : Dev :=
  let x := { x with clocks := x.clocks &&& (b.isl i).setup.gcMask }
  if unconfigured b i then d
  else
    let d := if cl0 b i 0 21 x then triggerSample d i 0 else d
    let d := islandEdgeFrom b d i x
    let d := late.foldl (fun (d : Dev) k => lateReset b d i k x) d
    let d := (listedMems b i).foldl (fun (d : Dev) m => if memLine b i m (b.bram (i * 96 + m)) true x then dbgSteal b d i m else d) d
    let d := portEdges b (portEdges b d i 0 x) i 1 x
    laneEdges b (fabEdge b d i x) i x

/-- GROUP_CLOCK_EDGE: edges of group clocks at the islands of group g. The environment gives the banks' input levels, the pairs
(island, cluster × 16 + pair) whose asynchronous SR it released within t_REC, and, for free-channel FIFOs on these clocks, the pops and
the pushes with their words, since no rule attaches those pins to the routing. DESIGN CHOICE: log entry 25. -/
def groupEdge (d : Dev) (g : BitVec 6) (clocks : BitVec 16) (rising : Bool) (late pops : List (Nat × Nat)) (pushes : List (Nat × Nat × W128)) : Dev :=
  let isls := clockedIslands d g
  let x : EdgeSet := { clocks := passedClocks d g clocks rising, rising := rising, joined := true }
  let e := isls.foldl (fun (e : Dev) i => joinedEdge d e i x ((late.filter (fun k => k.1 = i)).map (·.2))) (countPulses d g clocks rising)
  let on := isls.filter (fun i => x.clocks &&& (d.isl i).setup.gcMask ≠ 0)
  let e := (pops.filter (fun k => on.contains k.1)).foldl (fun (e : Dev) k => freePop e k.1 (k.2 % 32)) e
  let e := (pushes.filter (fun k => on.contains k.1)).foldl (fun (e : Dev) k => freePush e k.1 (k.2.1 % 32) k.2.2) e
  isls.foldl bankPins e

def execGroupClockEdge (g : BitVec 6) (clocks : BitVec 16) (rising : Bool) (pins : List (Nat × BitVec 48)) (late pops : List (Nat × Nat))
    (pushes : List (Nat × Nat × W128)) (s : State) : Host.Outcome State Fault Refusal :=
  s.run (fun d => groupEdge (setPins d pins) g clocks rising late pops pushes)

/-! ### Wire clocks (R83, R119, R127) -/

/-- The flip-flops of a pair on its wire clock (R79 to R81). -/
def wirePair (d : Dev) (i clu p : Nat) (rising : Bool) : Dev :=
  let r := clu / 50
  let c := clu % 50
  if !(pairFld d i r c p 0 2 = 2 && rising = (pairFld d i r c p 4 1 = 0)) || !ckEdge d (.pin i r c (2 * p * 12 + 11)) rising then d
  else
    let held := pairFld d i r c p 5 2 = 2 && (if isJoined d i then srNet d i r c p else (d.isl i).srSet.contains (clu * 16 + p))
    let bits := (List.range 4).filterMap (fun n =>
      let k := 2 * p + n / 2
      if held then (if isJoined d i then some (4 * p + n, srval d i r c k (n % 2)) else none)
      else (ffEdge d i r c k (n % 2)).map (fun v => (4 * p + n, v)))
    let d := captureFfs d i clu bits
    { d with transients := d.transients.filter (fun k => !(k / 64 = i * 4800 + clu && k % 64 / 4 = p)) }

/-- A memory port on its CK pin; where both ports' pins hang on one wire, an edge of it clocks both at one moment. DEDUCED: log entry
132. DEDUCED: log entry 132. -/
def wireMem (d : Dev) (i m : Nat) (portB rising : Bool) : Dev :=
  let b := d.bram (i * 96 + m)
  if !(rising && b.use ≠ 0 && b.ckmode portB = 2 && !(portB && b.isRing)) || !ckEdge d (ckNet i m portB) rising then d
  else
    let both := !b.isRing && b.ckmode (!portB) = 2 && oneWire d i m
    let pa := if !portB || both then some (portPins d i m false) else none
    let pb := if portB || both then some (portPins d i m true) else none
    let e := memEdge d i m pa pb
    if pb.isSome then dbgSteal d e i m else e

/-- A slice on its CK pin. -/
def wireSlice (d : Dev) (i a : Nat) (rising : Bool) : Dev :=
  let s := d.slice (i * 48 + a)
  if !(rising && s.inUse && s.ckmode = 2) || !ckEdge d (.sitePin i (.slice a) 190) rising then d
  else
    let e := sliceEdge s (slicePins d i a) (pcinOf d i a)
    sliceStatus (d.setSlice (i * 48 + a) e.1) i a e.2

/-- WIRE_CLOCK_EDGE: a transition reaches a CK pin of an island with a configuration and power. -/
def wireEdge (d : Dev) (i : Nat) (what : CkPin) (rising : Bool) : Dev :=
  if !inIsland (d.isl i).state || nodeLost d i then d
  else
    bankPins (match what with
      | .pair clu p => wirePair d i clu.val p.val rising
      | .mem m portB => wireMem d i m.val portB rising
      | .slice a => wireSlice d i a.val rising) i

def execWireClockEdge (i : Isl) (what : CkPin) (rising : Bool) (s : State) : Host.Outcome State Fault Refusal :=
  s.run (fun d => wireEdge d i.val what rising)

/-! ### Asynchronous set and reset in joined mode (R81) -/

/-- ASYNC_SET_RESET: an asserted SR forces the pair's flip-flops at once. -/
def asyncReset (d : Dev) (i clu p : Nat) : Dev :=
  let r := clu / 50
  let c := clu % 50
  if !(isJoined d i && inIsland (d.isl i).state && !nodeLost d i && pairFld d i r c p 5 2 = 2 && srNet d i r c p) then d
  else bankPins (setFfBits d i clu ((List.range 4).map (fun n => (4 * p + n, srval d i r c (2 * p + n / 2) (n % 2))))) i

def execAsyncSetReset (i : Isl) (clu : Fin 4800) (p : Fin 16) (s : State) : Host.Outcome State Fault Refusal :=
  s.run (fun d => asyncReset d i.val clu.val p.val)

end Sys2Proof.Machine
end

