-- ==== Sys2Proof/Machine/Regions.lean ====
section
/-! DEFINITION. The end of region commands (R238, R241, R242, R446, R572). -/

namespace Sys2Proof.Machine

/-- A region command of this device's own that has ended leaves the list, and whoever waits learns status and N. -/
def regionEnd (d : Dev) (c : RegionCmd) : Dev :=
  let d := { d with regions := d.regions.filter (fun x => x ≠ c) }
  match c.ended with
  | some st => d.finish c.origin st 0
  | none => d.finish c.origin .ok (c.n.getD 0)

/-- The part here of a crew-wide command: AT_N to the issuer once every island is FEATHERED at N and quiet; DONE where it has ended
otherwise. A catch keeps its entry until it resumes. -/
def regionCrewEnd (d : Dev) (c : RegionCmd) : Dev :=
  match c.ended, c.origin with
  | some st, _ => if c.op = .catchAt then { d with regions := d.regions.filter (fun x => x ≠ c) }
      else { d with regions := d.regions.filter (fun x => x ≠ c) }.finish c.origin st 0
  | none, .message v t id =>
    if c.atN || !c.islands.all (fun i => quiet d i) then d
    else
      let d := d.emit (.crew v 4 { src := d.devId, slot := t, id := id, n := c.n.getD 0 })
      if c.op = .catchAt then { d with regions := d.regions.map (fun x => if x = c then { x with atN := true } else x) }
      else { d with regions := d.regions.filter (fun x => x ≠ c) }
  | none, _ => d

/-- A cross-trigger takes the outcome of its region command; nobody waits for those of a halt, Standby or a message. -/
def takeFinished (d : Dev) : Dev :=
  let mine (e : Finished) : Bool := match e.origin with | .channel _ => false | _ => true
  let l := d.finished.filter mine
  l.foldl (fun (d : Dev) e => match e.origin with
    | .xtrigger t => xtrgDone d t e.status e.n
    | _ => d) { d with finished := d.finished.filter (fun e => !mine e) }

/-- Cross-triggers that waited for a region command start (R572). DEDUCED: log entry 121. -/
def xtrgAdvance (d : Dev) : Dev := d.xtrgWait.foldl xtrgStart { d with xtrgWait := [] }

/-- REGION_COMPLETE: every region command that has reached its end. A catch's own region ends with the catch. -/
def regionComplete (d : Dev) : Dev :=
  let ended := d.regions.filter (fun c => regionDone d c && !(c.crew && c.op = .resume))
  let d := ended.foldl (fun (d : Dev) c =>
    if c.crew then regionCrewEnd d c
    else if c.op = .catchAt then
      (if c.ended.isSome && !d.catches.any (fun k => k.origin = c.origin) then { d with regions := d.regions.filter (fun x => x ≠ c) } else d)
    else regionEnd d c) d
  xtrgAdvance (takeFinished d)

def execRegionComplete (s : State) : Host.Outcome State Fault Refusal := s.run regionComplete

end Sys2Proof.Machine
end

