-- ==== Sys2Proof/Machine/Dispatch.lean ====
section
/-! DEFINITION. One arm per command: a direct call of its meaning, or a refusal by name. -/

namespace Sys2Proof.Machine

def exec (i : Instr) (s : State) : Host.Outcome State Fault Refusal :=
  match i with
  | .registerWrite r node off v => Sys2Proof.Machine.execRegisterWrite r node off v s
  | .readClear r node off => Sys2Proof.Machine.execReadClear r node off s
  | .lowWordRead r node off => Sys2Proof.Machine.execLowWordRead r node off s
  | .highWordRead r node off => Sys2Proof.Machine.execHighWordRead r node off s
  | .highWordWrite r node off v => Sys2Proof.Machine.execHighWordWrite r node off v s
  | .lowWordWrite r node off v => Sys2Proof.Machine.execLowWordWrite r node off v s
  | .hostBar0Read f tag w => Sys2Proof.Machine.execHostBar0Read f tag w s
  | .hostBar0Write f w v => Sys2Proof.Machine.execHostBar0Write f w v s
  | .mmioTimeout tag => Sys2Proof.Machine.execMmioTimeout tag s
  | .hostBar2Read f tag off len => Sys2Proof.Machine.execHostBar2Read f tag off len s
  | .hostBar2Write f off data => Sys2Proof.Machine.execHostBar2Write f off data s
  | .hifCrewSelWrite r f v => Sys2Proof.Machine.execHifCrewSelWrite r f v s
  | .doorbell f c off whole v => Sys2Proof.Machine.execDoorbell f c off whole v s
  | .configNodeUpset isl f b planeB => Sys2Proof.Machine.execConfigNodeUpset isl f b planeB s
  | .ffNodeUpset isl c b => Sys2Proof.Machine.execFfNodeUpset isl c b s
  | .combinationalTransient isl c b atCapture => Sys2Proof.Machine.execCombTransient isl c b atCapture s
  | .strokeBegin isl waited pins => Sys2Proof.Machine.execStrokeBegin isl waited pins s
  | .settleDone isl xo => Sys2Proof.Machine.execSettleDone isl xo s
  | .settleMonitorSample isl xo => Sys2Proof.Machine.execSettleMonitorSample isl xo s
  | .strokeCommit isl waited => Sys2Proof.Machine.execStrokeCommit isl waited s
  | .logBlockPeriodicClose isl => Sys2Proof.Machine.execLogBlockPeriodicClose isl s
  | .neighbourWord isl src p tenant epoch tag free w => Sys2Proof.Machine.execNeighbourWord isl src p tenant epoch tag free w s
  | .neighbourAck isl p acked credits => Sys2Proof.Machine.execNeighbourAck isl p acked credits s
  | .stallDetect isl => Sys2Proof.Machine.execStallDetect isl s
  | .stkFeather r isl => Sys2Proof.Machine.execStkFeather r isl s
  | .stkResume r isl => Sys2Proof.Machine.execStkResume r isl s
  | .stkStart r isl => Sys2Proof.Machine.execStkStart r isl s
  | .stkLimitWrite r isl v => Sys2Proof.Machine.execStkLimitWrite r isl v s
  | .stkHoldWrite r isl v => Sys2Proof.Machine.execStkHoldWrite r isl v s
  | .regionComplete => Sys2Proof.Machine.execRegionComplete s
  | .rsp p lat => Sys2Proof.Machine.execRsp p lat s
  | .rd p => Sys2Proof.Machine.execRd p s
  | .rd1 p => Sys2Proof.Machine.execRd1 p s
  | .rd2 p => Sys2Proof.Machine.execRd2 p s
  | .rd4 p => Sys2Proof.Machine.execRd4 p s
  | .wr p => Sys2Proof.Machine.execWr p s
  | .wr1 p => Sys2Proof.Machine.execWr1 p s
  | .wr2 p => Sys2Proof.Machine.execWr2 p s
  | .wr4 p => Sys2Proof.Machine.execWr4 p s
  | .swap p => Sys2Proof.Machine.execSwap p s
  | .fadd p => Sys2Proof.Machine.execFadd p s
  | .rpush p => Sys2Proof.Machine.execRpush p s
  | .ringPushWritten isl m => Sys2Proof.Machine.execRingPushWritten isl m s
  | .rpop p => Sys2Proof.Machine.execRpop p s
  | .notify p => Sys2Proof.Machine.execNotify p s
  | .stroke p => Sys2Proof.Machine.execStroke p s
  | .sack p => Sys2Proof.Machine.execSack p s
  | .frwr p f bits => Sys2Proof.Machine.execFrwr p f bits s
  | .frrd p f => Sys2Proof.Machine.execFrrd p f s
  | .frfix p f => Sys2Proof.Machine.execFrfix p f s
  | .catrd p => Sys2Proof.Machine.execCatrd p s
  | .catwr p isRow k v => Sys2Proof.Machine.execCatwr p isRow k v s
  | .zero p => Sys2Proof.Machine.execZero p s
  | .islandZeroised isl => Sys2Proof.Machine.execIslandZeroised isl s
  | .packetRoute r inPort cn ce cs p => Sys2Proof.Machine.execPacketRoute r inPort cn ce cs p s
  | .requestInject k => Sys2Proof.Machine.execRequestInject k s
  | .packetAged k => Sys2Proof.Machine.execPacketAged k s
  | .nocTimeout node tag => Sys2Proof.Machine.execNocTimeout node tag s
  | .tagRelease node tag => Sys2Proof.Machine.execTagRelease node tag s
  | .statWindowEnd node => Sys2Proof.Machine.execStatWindowEnd node s
  | .fabricPortRequest isl hdr data => Sys2Proof.Machine.execFabricPortRequest isl hdr data s
  | .eccWriteBack isl m row half => Sys2Proof.Machine.execEccWriteBack isl m row half s
  | .memPatrolRead isl m => Sys2Proof.Machine.execMemPatrolRead isl m s
  | .memDbgRead r isl m row => Sys2Proof.Machine.execMemDbgRead r isl m row s
  | .memDbgWrite r isl m row raw => Sys2Proof.Machine.execMemDbgWrite r isl m row raw s
  | .memDbgTimeout isl m => Sys2Proof.Machine.execMemDbgTimeout isl m s
  | .memClrCounts r isl m => Sys2Proof.Machine.execMemClrCounts r isl m s
  | .qctFlush r isl m => Sys2Proof.Machine.execQctFlush r isl m s
  | .arsAccRead r isl a => Sys2Proof.Machine.execArsAccRead r isl a s
  | .arsAccWrite r isl a v => Sys2Proof.Machine.execArsAccWrite r isl a v s
  | .islClkReqWrite r isl v => Sys2Proof.Machine.execIslClkReqWrite r isl v s
  | .islClkLimitWrite r isl v => Sys2Proof.Machine.execIslClkLimitWrite r isl v s
  | .clockChangeDone isl => Sys2Proof.Machine.execClockChangeDone isl s
  | .sleep r isl => Sys2Proof.Machine.execSleep r isl s
  | .sleepGated isl => Sys2Proof.Machine.execSleepGated isl s
  | .wake r isl => Sys2Proof.Machine.execWake r isl s
  | .wakeReloadDone isl ok => Sys2Proof.Machine.execWakeReloadDone isl ok s
  | .dpllWrite r k which v => Sys2Proof.Machine.execDpllWrite r k which v s
  | .dpllLock k => Sys2Proof.Machine.execDpllLock k s
  | .quarterOvercurrent q => Sys2Proof.Machine.execQuarterOvercurrent q s
  | .overcurrentRelease q => Sys2Proof.Machine.execOvercurrentRelease q s
  | .thermalThrottle n => Sys2Proof.Machine.execThermalThrottle n s
  | .thermalThrottleRelease n => Sys2Proof.Machine.execThermalThrottleRelease n s
  | .thermalTrip => Sys2Proof.Machine.execThermalTrip s
  | .powerSample rails temps currents => Sys2Proof.Machine.execPowerSample rails temps currents s
  | .standbyRequest r v => Sys2Proof.Machine.execStandbyRequest r v s
  | .standbyEntered => Sys2Proof.Machine.execStandbyEntered s
  | .standbyExit r v => Sys2Proof.Machine.execStandbyExit r v s
  | .catchShadowCopy k => Sys2Proof.Machine.execCatchShadowCopy k s
  | .catchResume k => Sys2Proof.Machine.execCatchResume k s
  | .preserveHoldEnd isl waited => Sys2Proof.Machine.execPreserveHoldEnd isl waited s
  | .drainDone isl st => Sys2Proof.Machine.execDrainDone isl st s
  | .restoreDone k => Sys2Proof.Machine.execRestoreDone k s
  | .logBlockWriteDone isl st => Sys2Proof.Machine.execLogBlockWriteDone isl st s
  | .logRetry isl => Sys2Proof.Machine.execLogRetry isl s
  | .logEnable r isl v => Sys2Proof.Machine.execLogEnable r isl v s
  | .logDisable r isl v => Sys2Proof.Machine.execLogDisable r isl v s
  | .logClose r isl v => Sys2Proof.Machine.execLogClose r isl v s
  | .logTailWrite r isl v => Sys2Proof.Machine.execLogTailWrite r isl v s
  | .logBlockReadDone isl st b => Sys2Proof.Machine.execLogBlockReadDone isl st b s
  | .add e rd ra rb => Sys2Proof.Machine.execAdd e rd ra rb s
  | .sub e rd ra rb => Sys2Proof.Machine.execSub e rd ra rb s
  | .and e rd ra rb => Sys2Proof.Machine.execAnd e rd ra rb s
  | .or e rd ra rb => Sys2Proof.Machine.execOr e rd ra rb s
  | .xor e rd ra rb => Sys2Proof.Machine.execXor e rd ra rb s
  | .sll e rd ra rb => Sys2Proof.Machine.execSll e rd ra rb s
  | .srl e rd ra rb => Sys2Proof.Machine.execSrl e rd ra rb s
  | .sra e rd ra rb => Sys2Proof.Machine.execSra e rd ra rb s
  | .slt e rd ra rb => Sys2Proof.Machine.execSlt e rd ra rb s
  | .sltu e rd ra rb => Sys2Proof.Machine.execSltu e rd ra rb s
  | .mul e rd ra rb => Sys2Proof.Machine.execMul e rd ra rb s
  | .mulh e rd ra rb => Sys2Proof.Machine.execMulh e rd ra rb s
  | .mulhu e rd ra rb => Sys2Proof.Machine.execMulhu e rd ra rb s
  | .divu e rd ra rb => Sys2Proof.Machine.execDivu e rd ra rb s
  | .remu e rd ra rb => Sys2Proof.Machine.execRemu e rd ra rb s
  | .addi e rd ra isl => Sys2Proof.Machine.execAddi e rd ra isl s
  | .andi e rd ra isl => Sys2Proof.Machine.execAndi e rd ra isl s
  | .ori e rd ra isl => Sys2Proof.Machine.execOri e rd ra isl s
  | .xori e rd ra isl => Sys2Proof.Machine.execXori e rd ra isl s
  | .slti e rd ra isl => Sys2Proof.Machine.execSlti e rd ra isl s
  | .sltiu e rd ra isl => Sys2Proof.Machine.execSltiu e rd ra isl s
  | .lui e rd isl => Sys2Proof.Machine.execLui e rd isl s
  | .slli e rd ra sh => Sys2Proof.Machine.execSlli e rd ra sh s
  | .srli e rd ra sh => Sys2Proof.Machine.execSrli e rd ra sh s
  | .srai e rd ra sh => Sys2Proof.Machine.execSrai e rd ra sh s
  | .lw e rd ra isl => Sys2Proof.Machine.execLw e rd ra isl s
  | .lh e rd ra isl => Sys2Proof.Machine.execLh e rd ra isl s
  | .lhu e rd ra isl => Sys2Proof.Machine.execLhu e rd ra isl s
  | .lb e rd ra isl => Sys2Proof.Machine.execLb e rd ra isl s
  | .lbu e rd ra isl => Sys2Proof.Machine.execLbu e rd ra isl s
  | .sw e rs ra isl => Sys2Proof.Machine.execSw e rs ra isl s
  | .sh e rs ra isl => Sys2Proof.Machine.execSh e rs ra isl s
  | .sb e rs ra isl => Sys2Proof.Machine.execSb e rs ra isl s
  | .beq e ra rb off => Sys2Proof.Machine.execBeq e ra rb off s
  | .bne e ra rb off => Sys2Proof.Machine.execBne e ra rb off s
  | .blt e ra rb off => Sys2Proof.Machine.execBlt e ra rb off s
  | .bge e ra rb off => Sys2Proof.Machine.execBge e ra rb off s
  | .bltu e ra rb off => Sys2Proof.Machine.execBltu e ra rb off s
  | .bgeu e ra rb off => Sys2Proof.Machine.execBgeu e ra rb off s
  | .j e off => Sys2Proof.Machine.execJ e off s
  | .jal e off => Sys2Proof.Machine.execJal e off s
  | .jalr e rd ra isl => Sys2Proof.Machine.execJalr e rd ra isl s
  | .amoSwap e rd ra rb => Sys2Proof.Machine.execAmoSwap e rd ra rb s
  | .amoFadd e rd ra rb => Sys2Proof.Machine.execAmoFadd e rd ra rb s
  | .sendPosted e ra vs nm1 => Sys2Proof.Machine.execSendPosted e ra vs nm1 s
  | .sendWrite e rd ra vs nm1 => Sys2Proof.Machine.execSendWrite e rd ra vs nm1 s
  | .sendPush e rd ra vs nm1 => Sys2Proof.Machine.execSendPush e rd ra vs nm1 s
  | .sendPop e rd ra vs nm1 => Sys2Proof.Machine.execSendPop e rd ra vs nm1 s
  | .wait e rd mask => Sys2Proof.Machine.execWait e rd mask s
  | .waitWake e => Sys2Proof.Machine.execWaitWake e s
  | .srd e rd ix => Sys2Proof.Machine.execSrd e rd ix s
  | .swr e ra ix => Sys2Proof.Machine.execSwr e ra ix s
  | .sbs e ra ix => Sys2Proof.Machine.execSbs e ra ix s
  | .sbc e ra ix => Sys2Proof.Machine.execSbc e ra ix s
  | .fence e => Sys2Proof.Machine.execFence e s
  | .fenceDone e => Sys2Proof.Machine.execFenceDone e s
  | .eret e => Sys2Proof.Machine.execEret e s
  | .brk e => Sys2Proof.Machine.execBreak e s
  | .vand e vd va vb lw => Sys2Proof.Machine.execVand e vd va vb lw s
  | .vor e vd va vb lw => Sys2Proof.Machine.execVor e vd va vb lw s
  | .vxor e vd va vb lw => Sys2Proof.Machine.execVxor e vd va vb lw s
  | .vandn e vd va vb lw => Sys2Proof.Machine.execVandn e vd va vb lw s
  | .vadd e vd va vb lw => Sys2Proof.Machine.execVadd e vd va vb lw s
  | .vsub e vd va vb lw => Sys2Proof.Machine.execVsub e vd va vb lw s
  | .vmin e vd va vb lw => Sys2Proof.Machine.execVmin e vd va vb lw s
  | .vminu e vd va vb lw => Sys2Proof.Machine.execVminu e vd va vb lw s
  | .vmax e vd va vb lw => Sys2Proof.Machine.execVmax e vd va vb lw s
  | .vmaxu e vd va vb lw => Sys2Proof.Machine.execVmaxu e vd va vb lw s
  | .vsll e vd va lw imm => Sys2Proof.Machine.execVsll e vd va lw imm s
  | .vsrl e vd va lw imm => Sys2Proof.Machine.execVsrl e vd va lw imm s
  | .vsra e vd va lw imm => Sys2Proof.Machine.execVsra e vd va lw imm s
  | .vceq e vd va vb lw => Sys2Proof.Machine.execVceq e vd va vb lw s
  | .vcgt e vd va vb lw => Sys2Proof.Machine.execVcgt e vd va vb lw s
  | .vcgtu e vd va vb lw => Sys2Proof.Machine.execVcgtu e vd va vb lw s
  | .vsel e vd va vb lw => Sys2Proof.Machine.execVsel e vd va vb lw s
  | .vpack e vd va vb lw => Sys2Proof.Machine.execVpack e vd va vb lw s
  | .vunpkl e vd va lw => Sys2Proof.Machine.execVunpkl e vd va lw s
  | .vunpkh e vd va lw => Sys2Proof.Machine.execVunpkh e vd va lw s
  | .vins e v g lw ix => Sys2Proof.Machine.execVins e v g lw ix s
  | .vext e v g lw ix => Sys2Proof.Machine.execVext e v g lw ix s
  | .vmsk e v g lw => Sys2Proof.Machine.execVmsk e v g lw s
  | .vsplat e v g lw => Sys2Proof.Machine.execVsplat e v g lw s
  | .vld e v ra isl => Sys2Proof.Machine.execVld e v ra isl s
  | .vst e v ra isl => Sys2Proof.Machine.execVst e v ra isl s
  | .vput e v p nm1 set => Sys2Proof.Machine.execVput e v p nm1 set s
  | .vputResume e => Sys2Proof.Machine.execVputResume e s
  | .vget e v p rd set => Sys2Proof.Machine.execVget e v p rd set s
  | .vpstat e p rd set => Sys2Proof.Machine.execVpstat e p rd set s
  | .vcrci e g => Sys2Proof.Machine.execVcrci e g s
  | .vcrcu e v => Sys2Proof.Machine.execVcrcu e v s
  | .vcrcr e g => Sys2Proof.Machine.execVcrcr e g s
  | .engineNocResponse e st data => Sys2Proof.Machine.execEngineNocResponse e st data s
  | .postedQueueSpace e => Sys2Proof.Machine.execPostedQueueSpace e s
  | .timerExpiry e => Sys2Proof.Machine.execTimerExpiry e s
  | .watchdogExpiry e => Sys2Proof.Machine.execWatchdogExpiry e s
  | .engineSramPatrol e => Sys2Proof.Machine.execEngineSramPatrol e s
  | .sclHalt r e => Sys2Proof.Machine.execSclHalt r e s
  | .sclResume r e => Sys2Proof.Machine.execSclResume r e s
  | .sclStep r e => Sys2Proof.Machine.execSclStep r e s
  | .sclReset r e => Sys2Proof.Machine.execSclReset r e s
  | .sclRelease r e => Sys2Proof.Machine.execSclRelease r e s
  | .sclMemDataAccess r e w => Sys2Proof.Machine.execSclMemDataAccess r e w s
  | .sclPortMapWrite r isl v => Sys2Proof.Machine.execSclPortMapWrite r isl v s
  | .engineSparing e => Sys2Proof.Machine.execEngineSparing e s
  | .dramIssue n x busy => Sys2Proof.Machine.execDramIssue n x busy s
  | .requestPromotion n k => Sys2Proof.Machine.execRequestPromotion n k s
  | .caParityAlert n => Sys2Proof.Machine.execCaParityAlert n s
  | .ddrInit r n => Sys2Proof.Machine.execDdrInit r n s
  | .ddrActivate r n => Sys2Proof.Machine.execDdrActivate r n s
  | .ddrTrain r n => Sys2Proof.Machine.execDdrTrain r n s
  | .ddrResume r n => Sys2Proof.Machine.execDdrResume r n s
  | .ddrShutdown r n => Sys2Proof.Machine.execDdrShutdown r n s
  | .trnNop r n v => Sys2Proof.Machine.execTrnNop r n v s
  | .mrw r n v => Sys2Proof.Machine.execMrw r n v s
  | .mrr r n v res => Sys2Proof.Machine.execMrr r n v res s
  | .mpc r n v => Sys2Proof.Machine.execMpc r n v s
  | .wlSample r n v res => Sys2Proof.Machine.execWlSample r n v res s
  | .rdPattern r n v res => Sys2Proof.Machine.execRdPattern r n v res s
  | .wrRdCmp r n v res => Sys2Proof.Machine.execWrRdCmp r n v res s
  | .caSample r n v res => Sys2Proof.Machine.execCaSample r n v res s
  | .dlyApply r n v => Sys2Proof.Machine.execDlyApply r n v s
  | .refresh n rank hot res => Sys2Proof.Machine.execRefresh n rank hot res s
  | .dramPatrolRead n => Sys2Proof.Machine.execDramPatrolRead n s
  | .pageOpenTimeout n bank => Sys2Proof.Machine.execPageOpenTimeout n bank s
  | .partitionSlot n busy => Sys2Proof.Machine.execPartitionSlot n busy s
  | .zeroFill r n v => Sys2Proof.Machine.execZeroFill r n v s
  | .zfDone n => Sys2Proof.Machine.execZfDone n s
  | .isetCommit r => Sys2Proof.Machine.execIsetCommit r s
  | .isetCommitDone => Sys2Proof.Machine.execIsetCommitDone s
  | .pllApply r n v => Sys2Proof.Machine.execPllApply r n v s
  | .pllLock n => Sys2Proof.Machine.execPllLock n s
  | .laneRefLoss q r => Sys2Proof.Machine.execLaneRefLoss q r s
  | .losAssert g => Sys2Proof.Machine.execLosAssert g s
  | .losDeassert g => Sys2Proof.Machine.execLosDeassert g s
  | .lolAssert g => Sys2Proof.Machine.execLolAssert g s
  | .lolDeassert g => Sys2Proof.Machine.execLolDeassert g s
  | .prbsSync g => Sys2Proof.Machine.execPrbsSync g s
  | .prbsLoss g => Sys2Proof.Machine.execPrbsLoss g s
  | .injPeriodic g => Sys2Proof.Machine.execInjPeriodic g s
  | .injSingle r g v => Sys2Proof.Machine.execInjSingle r g v s
  | .chkClear r g v => Sys2Proof.Machine.execChkClear r g v s
  | .rxSlip r g v => Sys2Proof.Machine.execRxSlip r g v s
  | .txCoefWrite r g v => Sys2Proof.Machine.execTxCoefWrite r g v s
  | .testModeWrite r g v => Sys2Proof.Machine.execTestModeWrite r g v s
  | .laneModeWrite r n v => Sys2Proof.Machine.execLaneModeWrite r n v s
  | .flitReceive n f => Sys2Proof.Machine.execFlitReceive n f s
  | .nak n f => Sys2Proof.Machine.execNak n f s
  | .swapReq n f => Sys2Proof.Machine.execSwapReq n f s
  | .timeReq n f => Sys2Proof.Machine.execTimeReq n f s
  | .timeRsp n f => Sys2Proof.Machine.execTimeRsp n f s
  | .ackCredit n f => Sys2Proof.Machine.execAckCredit n f s
  | .flitTransmit n => Sys2Proof.Machine.execFlitTransmit n s
  | .replayTimer n => Sys2Proof.Machine.execReplayTimer n s
  | .ctrlTimer n => Sys2Proof.Machine.execCtrlTimer n s
  | .linkTrain r n => Sys2Proof.Machine.execLinkTrain r n s
  | .linkDown r n => Sys2Proof.Machine.execLinkDown r n s
  | .clearStats r n => Sys2Proof.Machine.execClearStats r n s
  | .trainingFrame n j f => Sys2Proof.Machine.execTrainingFrame n j f s
  | .trainingDone n locked badRx badTx ctle => Sys2Proof.Machine.execTrainingDone n locked badRx badTx ctle s
  | .autoRetrain n => Sys2Proof.Machine.execAutoRetrain n s
  | .recoveryDone n badRx badTx => Sys2Proof.Machine.execRecoveryDone n badRx badTx s
  | .linkStrokeUnit n => Sys2Proof.Machine.execLinkStrokeUnit n s
  | .tunnelRequest n h => Sys2Proof.Machine.execTunnelRequest n h s
  | .tunnelResponse n => Sys2Proof.Machine.execTunnelResponse n s
  | .proxyTimeout n tag => Sys2Proof.Machine.execProxyTimeout n tag s
  | .timeExchange n => Sys2Proof.Machine.execTimeExchange n s
  | .dtimeSet r v => Sys2Proof.Machine.execDtimeSet r v s
  | .crwFeather r t tab => Sys2Proof.Machine.execCrwFeather r t tab s
  | .crwResume r t tab => Sys2Proof.Machine.execCrwResume r t tab s
  | .crwLimit r t tab => Sys2Proof.Machine.execCrwLimit r t tab s
  | .crwStep r t tab => Sys2Proof.Machine.execCrwStep r t tab s
  | .crwCatch r t tab stay => Sys2Proof.Machine.execCrwCatch r t tab stay s
  | .crwRestore r t tab replay => Sys2Proof.Machine.execCrwRestore r t tab replay s
  | .crwEvict r t tab => Sys2Proof.Machine.execCrwEvict r t tab s
  | .crwSetEpoch r t => Sys2Proof.Machine.execCrwSetEpoch r t s
  | .collect r m => Sys2Proof.Machine.execCollect r m s
  | .countMsg r m => Sys2Proof.Machine.execCount r m s
  | .setMsg r m => Sys2Proof.Machine.execSet r m s
  | .atN r m => Sys2Proof.Machine.execAtN r m s
  | .copyMsg r m => Sys2Proof.Machine.execCopy r m s
  | .copied r m => Sys2Proof.Machine.execCopied r m s
  | .msgRelease r m => Sys2Proof.Machine.execMsgRelease r m s
  | .doneMsg r m => Sys2Proof.Machine.execDone r m s
  | .msgRestore r m img => Sys2Proof.Machine.execMsgRestore r m img s
  | .msgEvict r m => Sys2Proof.Machine.execMsgEvict r m s
  | .msgSetEpoch r m => Sys2Proof.Machine.execMsgSetEpoch r m s
  | .epoch r m => Sys2Proof.Machine.execEpoch r m s
  | .ack r m => Sys2Proof.Machine.execAck r m s
  | .crewPhaseTimeout t part => Sys2Proof.Machine.execCrewPhaseTimeout t part s
  | .hifChEnable r f => Sys2Proof.Machine.execHifChEnable r f s
  | .hifChDisable r f => Sys2Proof.Machine.execHifChDisable r f s
  | .hifChReset r f => Sys2Proof.Machine.execHifChReset r f s
  | .descriptorFetch c => Sys2Proof.Machine.execDescriptorFetch c s
  | .descriptorComplete c failed => Sys2Proof.Machine.execDescriptorComplete c failed s
  | .nopDesc c idx => Sys2Proof.Machine.execNopDesc c idx s
  | .copyH2d c idx => Sys2Proof.Machine.execCopyH2d c idx s
  | .copyD2h c idx => Sys2Proof.Machine.execCopyD2h c idx s
  | .streamIn c idx => Sys2Proof.Machine.execStreamIn c idx s
  | .streamOut c idx => Sys2Proof.Machine.execStreamOut c idx s
  | .cfgLoad c => Sys2Proof.Machine.execCfgLoad c s
  | .prLoad c => Sys2Proof.Machine.execPrLoad c s
  | .strokeFeather c st tab => Sys2Proof.Machine.execStrokeFeather c st tab s
  | .strokeResume c st tab => Sys2Proof.Machine.execStrokeResume c st tab s
  | .strokeLimit c st tab => Sys2Proof.Machine.execStrokeLimit c st tab s
  | .strokeStep c st tab => Sys2Proof.Machine.execStrokeStep c st tab s
  | .strokeStart c st tab => Sys2Proof.Machine.execStrokeStart c st tab s
  | .catchDesc c st tab => Sys2Proof.Machine.execCatch c st tab s
  | .restoreDesc c st tab img map => Sys2Proof.Machine.execRestore c st tab img map s
  | .evictDesc c tab => Sys2Proof.Machine.execEvict c tab s
  | .evictionQuiet t => Sys2Proof.Machine.execEvictionQuiet t s
  | .regBatch c st ents => Sys2Proof.Machine.execRegBatch c st ents s
  | .logRead c => Sys2Proof.Machine.execLogRead c s
  | .hwinFnWrite r w v => Sys2Proof.Machine.execHwinFnWrite r w v s
  | .blkMapWrite r j v => Sys2Proof.Machine.execBlkMapWrite r j v s
  | .fnVecWrite r f v => Sys2Proof.Machine.execFnVecWrite r f v s
  | .hostTimeout tag => Sys2Proof.Machine.execHostTimeout tag s
  | .streamPoll c idx => Sys2Proof.Machine.execStreamPoll c idx s
  | .channelTimeout c idx => Sys2Proof.Machine.execChannelTimeout c idx s
  | .moderationTimer v => Sys2Proof.Machine.execModerationTimer v s
  | .msixDeliver v => Sys2Proof.Machine.execMsixDeliver v s
  | .functionPowerChange f d3 bme msix fmask pme vf => Sys2Proof.Machine.execFunctionPowerChange f d3 bme msix fmask pme vf s
  | .perst => Sys2Proof.Machine.execPerst s
  | .hotReset => Sys2Proof.Machine.execHotReset s
  | .flr f => Sys2Proof.Machine.execFlr f s
  | .vfEnableClear => Sys2Proof.Machine.execVfEnableClear s
  | .hostLinkDown => Sys2Proof.Machine.execHostLinkDown s
  | .streamHeader hdr body => Sys2Proof.Machine.execStreamHeader hdr body s
  | .manifest hdr body sigOk => Sys2Proof.Machine.execManifest hdr body sigOk s
  | .tenantContainer hdr body => Sys2Proof.Machine.execTenantContainer hdr body s
  | .encrypted hdr body tagOk => Sys2Proof.Machine.execEncrypted hdr body tagOk s
  | .frameWrite hdr body => Sys2Proof.Machine.execFrameWrite hdr body s
  | .memoryInit hdr body => Sys2Proof.Machine.execMemoryInit hdr body s
  | .islandSetup hdr body => Sys2Proof.Machine.execIslandSetup hdr body s
  | .linkSetup hdr body => Sys2Proof.Machine.execLinkSetup hdr body s
  | .start hdr body => Sys2Proof.Machine.execStart hdr body s
  | .crcTrailer hdr body => Sys2Proof.Machine.execCrcTrailer hdr body s
  | .cfgAbortCmd r => Sys2Proof.Machine.execCfgAbortCmd r s
  | .bootRerun r e0 e1 => Sys2Proof.Machine.execBootRerun r e0 e1 s
  | .cacheCfgWrite r v => Sys2Proof.Machine.execCacheCfgWrite r v s
  | .flashRead r n => Sys2Proof.Machine.execFlashRead r n s
  | .flashProgram r n => Sys2Proof.Machine.execFlashProgram r n s
  | .erase4k r => Sys2Proof.Machine.execErase4k r s
  | .erase64k r => Sys2Proof.Machine.execErase64k r s
  | .readId r => Sys2Proof.Machine.execReadId r s
  | .flashCmdDone err data => Sys2Proof.Machine.execFlashCmdDone err data s
  | .scrubFrame q => Sys2Proof.Machine.execScrubFrame q s
  | .identity r m => Sys2Proof.Machine.execIdentity r m s
  | .tenantEntry r m => Sys2Proof.Machine.execTenantEntry r m s
  | .tenantKey r m => Sys2Proof.Machine.execTenantKey r m s
  | .ownerKey r m => Sys2Proof.Machine.execOwnerKey r m s
  | .grant r m => Sys2Proof.Machine.execGrant r m s
  | .sessionOpen r m => Sys2Proof.Machine.execSessionOpen r m s
  | .sessionResponse r m => Sys2Proof.Machine.execSessionResponse r m s
  | .revoke r m => Sys2Proof.Machine.execRevoke r m s
  | .attest r m => Sys2Proof.Machine.execAttest r m s
  | .coxFw r m x => Sys2Proof.Machine.execCoxFw r m x s
  | .sysFw r m x => Sys2Proof.Machine.execSysFw r m x s
  | .fuseProg r m ok => Sys2Proof.Machine.execFuseProg r m ok s
  | .zeroiseK r m => Sys2Proof.Machine.execZeroiseK r m s
  | .zeroiseB r m => Sys2Proof.Machine.execZeroiseB r m s
  | .zeroiseD r m => Sys2Proof.Machine.execZeroiseD r m s
  | .readmit r m => Sys2Proof.Machine.execReadmit r m s
  | .bbInit r m => Sys2Proof.Machine.execBbInit r m s
  | .lockstepMismatch => Sys2Proof.Machine.execLockstepMismatch s
  | .tamper k => Sys2Proof.Machine.execTamper k s
  | .grantExpiry g => Sys2Proof.Machine.execGrantExpiry g s
  | .nonceExpiry g => Sys2Proof.Machine.execNonceExpiry g s
  | .vbattLow => Sys2Proof.Machine.execVbattLow s
  | .svcMark r => Sys2Proof.Machine.execSvcMark r s
  | .svcUnmark r => Sys2Proof.Machine.execSvcUnmark r s
  | .svcTest r => Sys2Proof.Machine.execSvcTest r s
  | .svcTestDone pass info => Sys2Proof.Machine.execSvcTestDone pass info s
  | .tapReset => Sys2Proof.Machine.execTapReset s
  | .extest cells => Sys2Proof.Machine.execExtest cells s
  | .samplePreload cells => Sys2Proof.Machine.execSamplePreload cells s
  | .idcode => Sys2Proof.Machine.execIdcode s
  | .clamp => Sys2Proof.Machine.execClamp s
  | .highz => Sys2Proof.Machine.execHighz s
  | .extestPulse cells => Sys2Proof.Machine.execExtestPulse cells s
  | .extestTrain cells => Sys2Proof.Machine.execExtestTrain cells s
  | .coxMbx => Sys2Proof.Machine.execCoxMbx s
  | .dbgAccess => Sys2Proof.Machine.execDbgAccess s
  | .cfgStream w ok => Sys2Proof.Machine.execCfgStream w ok s
  | .bypass => Sys2Proof.Machine.execBypass s
  | .jtagUpdateDr v => Sys2Proof.Machine.execJtagUpdateDr v s
  | .apGo r k c => Sys2Proof.Machine.execApGo r k c s
  | .ffRead r isl v => Sys2Proof.Machine.execFfRead r isl v s
  | .ffWrite r isl v => Sys2Proof.Machine.execFfWrite r isl v s
  | .frameReadback r isl v => Sys2Proof.Machine.execFrameReadback r isl v s
  | .stateAccessServed isl => Sys2Proof.Machine.execStateAccessServed isl s
  | .triggerArm r isl => Sys2Proof.Machine.execTriggerArm r isl s
  | .triggerDisarm r isl => Sys2Proof.Machine.execTriggerDisarm r isl s
  | .debugHalt r t => Sys2Proof.Machine.execDebugHalt r t s
  | .debugResume r t => Sys2Proof.Machine.execDebugResume r t s
  | .signalDeliver k => Sys2Proof.Machine.execSignalDeliver k s
  | .signalWithdraw k => Sys2Proof.Machine.execSignalWithdraw k s
  | .sigClaim r j v => Sys2Proof.Machine.execSigClaim r j v s
  | .sigDone r j v => Sys2Proof.Machine.execSigDone r j v s
  | .sigModeWrite r v => Sys2Proof.Machine.execSigModeWrite r v s
  | .sigTgtGrpWrite r j v => Sys2Proof.Machine.execSigTgtGrpWrite r j v s
  | .sigSrcCfgWrite r k v => Sys2Proof.Machine.execSigSrcCfgWrite r k v s
  | .sigGrpCfgWrite r g v => Sys2Proof.Machine.execSigGrpCfgWrite r g v s
  | .eventRecord e => Sys2Proof.Machine.execEventRecord e s
  | .flashCopyDone ok => Sys2Proof.Machine.execFlashCopyDone ok s
  | .logWr r v => Sys2Proof.Machine.execLogWr r v s
  | .logWindowEnd => Sys2Proof.Machine.execLogWindowEnd s
  | .logClear r => Sys2Proof.Machine.execLogClear r s
  | .logRdSeq r v => Sys2Proof.Machine.execLogRdSeq r v s
  | .powerOnResetRelease u => Sys2Proof.Machine.execPowerOnResetRelease u s
  | .powerOnResetAssert => Sys2Proof.Machine.execPowerOnResetAssert s
  | .vccAuxLoss => Sys2Proof.Machine.execVccAuxLoss s
  | .railLoss r => Sys2Proof.Machine.execRailLoss r s
  | .vccioOutOfRange n mv => Sys2Proof.Machine.execVccioOutOfRange n mv s
  | .groupClockEdge g clocks rising pins late pops pushes => Sys2Proof.Machine.execGroupClockEdge g clocks rising pins late pops pushes s
  | .wireClockEdge isl what rising => Sys2Proof.Machine.execWireClockEdge isl what rising s
  | .asyncSetReset isl clu p => Sys2Proof.Machine.execAsyncSetReset isl clu p s
  | .laneWordClock g rxw => Sys2Proof.Machine.execLaneWordClock g rxw s
  | .hostCompletion tag how data => Sys2Proof.Machine.execHostCompletion tag how data s
  | .hostLinkUp rate width => Sys2Proof.Machine.execHostLinkUp rate width s
  | .groupClockSourceLost n => Sys2Proof.Machine.execGroupClockSourceLost n s
  | .blockMemoryUpset isl m row col => Sys2Proof.Machine.execBlockMemoryUpset isl m row col s
  | .engineSramUpset e instr w b => Sys2Proof.Machine.execEngineSramUpset e instr w b s
  | .dramError n b pattern => Sys2Proof.Machine.execDramError n b pattern s

end Sys2Proof.Machine
end

