-- ==== Sys2Proof/Safety.lean ====
section
/-! DEFINITION. What the statements are said with: a command that completes, and what the machine must be like for it. -/

namespace Sys2Proof.Safety

open Sys2Proof.Machine

/-- The event log holds at most its 2,048 slots (R597). -/
def LogBounded (s : State) : Prop := s.dev.evlog.first.length ≤ 256 ∧ s.dev.evlog.circ.length ≤ 1792

/-- The command completes; the queue is as it was and the device is `d`. -/
def Gives (c : Instr) (s : State) (d : Dev) : Prop := exec c s = .next { s with dev := d }

/-- The command completes; the queue is as it was and `P` holds of the device. -/
def GivesSome (c : Instr) (s : State) (P : Dev → Prop) : Prop := ∃ d, Gives c s d ∧ P d

/-! ### Engines -/

/-- Engine e is about to run instruction i and nothing comes before it (R301, R304, R312): it runs, is in service and clocked, its pc lies
in instruction SRAM on a sound word that spells i, no breakpoint is there, and neither a step nor a halt is asked for. -/
abbrev Ready (d : Dev) (e : Nat) (i : EngInstr) : Prop :=
  (d.eng e).run = 1 ∧ (d.eng e).outOfService = false ∧ engClocked d e = true ∧ (d.eng e).pc.toNat < 0x10000
    ∧ (d.eng e).sramErr true ((d.eng e).pc.toNat / 4) = 0 ∧ breakAction (d.eng e) (d.eng e).pc = 0
    ∧ EngInstr.decode ((d.eng e).sramWord true ((d.eng e).pc.toNat / 4)) = some i
    ∧ (d.eng e).stepping = false ∧ (d.eng e).haltReq = false

/-- Engine e committed an instruction: it holds `x`, one more instruction is counted, and pc is `npc`. -/
def committed (d : Dev) (e : Nat) (x : Engine) (npc : Word) : Dev :=
  d.setEng e { x with pc := npc, instrs := (d.eng e).instrs + 1, pend := none, run := 1 }

/-- Nothing but engine e changed, and of it only what `f` undoes. -/
def OnlyEngine (s t : Dev) (e : Nat) (f : Engine → Engine) : Prop :=
  { t with engines := s.engines } = s ∧ (∀ j, j ≠ e → t.eng j = s.eng j) ∧ f (t.eng e) = s.eng e

/-- An access of `size` bytes at an address of an SRAM that is aligned and on which no watchpoint acts (R288, R304). -/
abbrev PlainAccess (x : Engine) (a : Word) (size : Nat) (load store : Bool) : Prop :=
  a.toNat % size = 0 ∧ watchAction x a size load store = 0

/-- Byte a of an engine's data SRAM, a below 0x10000. -/
def dmemByte (x : Engine) (a : Nat) : Byte := (x.sramWord false (a / 4)).extractLsb' (8 * (a % 4)) 8

/-- The request engine e makes of offset o of aperture k (R284, R329): it waits for injection, it is outstanding where a response is due
(`rr`), and the engine holds `y`. -/
def requested (d : Dev) (e dest cmd len k o : Nat) (rr : Bool) (data : List W128) (y : Engine) : Dev :=
  ({ d with noc := { d.noc with
      inject := d.noc.inject ++ [(engNode e, engUnit e,
        ⟨mkHdr dest (engNode e) cmd (engTag d e rr) len ((d.eng e).apAttr k 1 3) (engTenant d e) (d.epoch (engNode e))
          ((d.eng e).apRoute k o) ((d.eng e).apAttr k 6 2) rr ((d.eng e).apAddr k o), data, false⟩)],
      outst := if rr then d.noc.outst ++ [⟨engNode e, engUnit e, engTag d e rr, cmd, (d.eng e).apAddr k o, answerUnits cmd len⟩]
        else d.noc.outst } } : Dev).setEng e y

/-- A waiting engine, and one that has committed. -/
def waitsFor (x : Engine) (i : EngInstr) : Engine := { x with run := 3, pend := some i }
def onward (x : Engine) : Engine := { x with pc := x.pc + 4, instrs := x.instrs + 1, pend := none, run := 1 }

/-- Every lane of width w of r is f of those of d, a and b (R296). -/
def laneIs (w : Nat) (f : BitVec w → BitVec w → BitVec w → BitVec w) (d a b r : W128) : Prop :=
  ∀ i < 128 / w, r.extractLsb' (w * i) w = f (d.extractLsb' (w * i) w) (a.extractLsb' (w * i) w) (b.extractLsb' (w * i) w)

/-! ### Registers -/

/-- The target takes the write (R10 to R12, R64): a register of one word is there, the requester may reach it, its unit serves it, and the
island is not being evicted under a tenant that writes. -/
def admits (d : Dev) (r : Req) (node off : Nat) : Bool :=
  match writeGate d r node off with
  | .pass rd _ => rd.words = 1
  | .stop _ _ => false

/-- No register but those listed changed. -/
def OnlyRegs (s t : Dev) (l : List (Nat × Nat)) : Prop :=
  ∀ node off, off < 0x10000 → (node, off) ∉ l → t.reg node off = s.reg node off

/-! ### The host interface -/

/-- Channel c of function f runs and holds one descriptor, j; the host link is up and nothing else of the host interface is under way. -/
def Serves (d : Dev) (f c : Nat) (j : Job) : Prop :=
  chanFn d c = some f ∧ chanRuns d c = true ∧ (d.chan c).jobs = [j] ∧ hostLinkUp d = true ∧ d.hostAccs = [] ∧ d.hifUses = []
    ∧ hifRoom d = true

/-- A request of the host interface for function f: it waits for injection, is outstanding, and known by its tag (R457, R469). -/
def hifSent (d t : Dev) (f cmd len prio route page addr : Nat) (data : List W128) (u : HifUse) : Prop :=
  ∃ dest, destOf d addr = some dest
    ∧ t.noc = { d.noc with
        inject := d.noc.inject ++ [(0x140, f, ⟨mkHdr dest 0x140 cmd (hifTag d) len prio (fnTenant d f) (d.epoch 0x140) route page true addr, data, false⟩)],
        outst := d.noc.outst ++ [⟨0x140, f, hifTag d, cmd, addr, answerUnits cmd len⟩] }
    ∧ t.hifUses = d.hifUses ++ [(hifTag d, u)]

/-- The result of a descriptor: status, status of its first failed part, bytes, detail (R477). -/
def endsWith (j : Job) (st : Status) (first : Status := .ok) (bytes : Nat := 0) (detail : Nat := 0) : Job :=
  { j with result := some (st, first, bytes, detail) }

/-! ### Packets -/

/-- A packet with command `code` arrives and passes checks 1 to 5 of R349. -/
abbrev Arrives (d : Dev) (p : Pkt) (code : Nat) : Prop :=
  p.cmd = code ∧ nodeLost d p.dest = false ∧ nocStopped d p.dest = false ∧ (nodeKind p.dest).isSome = true ∧ crcBad p = false ∧ wellFormed p = true
    ∧ implements p.dest p = true ∧ inRange d p.dest p = true ∧ d.epochOf p.dest p.src = p.epoch ∧ sourceOk p.dest p = true

/-- The response to a packet (R335): sent last, with a status and data. -/
def answered (d t : Dev) (p : Pkt) (st : Status) (data : List W128) : Prop :=
  t.out.head? = some (.pkt ⟨mkHdr p.src p.dest (0x30 + st.code) p.tag data.length p.prio p.tenant (d.epoch p.dest) p.route 0 false p.addr,
    data, false⟩)

/-! ### Loads -/

/-- The load in progress takes a section that this device does not skip (R491 to R497, R509): it is whole, stands where it may, its issuer
may send it, the manifest that covers it has its hash, it is not the last of an open container, and the stream goes on behind it. -/
def takes (d : Dev) (l : LoadSt) (typ : Nat) (hdr : W128) (body : List W128) : Prop :=
  d.load = some l ∧ hdr.getLsbD (64 + d.devId) = true ∧ headBad d l typ hdr body false = none ∧ body.length = wf hdr 32 32
    ∧ (∀ b r, l.boxes = b :: r → b.stop ≠ l.pos + 1 + body.length) ∧ (coverBy l typ (hdr :: body)).isSome = true
    ∧ l.limit.any (fun n => n ≤ l.pos + 1 + body.length) = false

/-- The load goes on at offset `pos`, and `P` holds of it; no island changed but those listed. -/
def goesOn (s t : Dev) (pos : Nat) (islands : List Nat) (P : LoadSt → Prop) : Prop :=
  (∃ l, t.load = some l ∧ l.pos = pos ∧ P l) ∧ t.reg64 0x142 R.CFG_WORDS = BitVec.ofNat 64 pos ∧ ∀ i, i ∉ islands → t.isl i = s.isl i

end Sys2Proof.Safety
end

