-- ==== Sys2Proof/WellFormed.lean ====
section
/-! DEFINITION. Commands that say what they mean: operands whose type is wider than what the environment or a sender can give. The
machine runs every command; a statement that needs one of these facts asks for it. -/

namespace Sys2Proof

/-- A packet carries its row's command code (R332, R333) and no more units than its row does. -/
def Pkt.wf (p : Pkt) (code : Nat) : Bool := p.cmd = code && p.data.length ≤ 256

/-- Banks by number (R230), each once. -/
def banksWf (l : List Nat) : Bool := l.all (· < 30) && l.eraseDups.length = l.length

/-- XO words: port, word of the port, value (R216). -/
def xoWf (l : List (Nat × Nat × W128)) : Bool := l.all (fun e => e.1 < 32 && e.2.1 < 8)

/-- Operands in range. -/
def Instr.wf : Instr → Bool
  | .strokeBegin _ _ pins => banksWf (pins.map (·.1))
  | .settleDone _ xo => xoWf xo
  | .settleMonitorSample _ xo => xoWf xo
  | .rd p => p.wf 1 | .rd1 p => p.wf 2 | .rd2 p => p.wf 3 | .rd4 p => p.wf 4
  | .wr p => p.wf 8 | .wr1 p => p.wf 9 | .wr2 p => p.wf 0xA | .wr4 p => p.wf 0xB
  | .swap p => p.wf 0xC | .fadd p => p.wf 0xD | .rpush p => p.wf 0x10 | .rpop p => p.wf 0x11
  | .notify p => p.wf 0x14 | .stroke p => p.wf 0x18 | .sack p => p.wf 0x19
  | .frwr p _ _ => p.wf 0x20 | .frrd p _ => p.wf 0x21 | .frfix p _ => p.wf 0x22
  | .catrd p => p.wf 0x24 | .catwr p _ _ _ => p.wf 0x25 | .zero p => p.wf 0x28
  | .powerSample rails temps currents =>
    rails.all (fun e => e.1 < 46) && temps.all (fun e => e.1 < 64) && currents.all (fun e => e.1 < 256)
  | .extest cells => banksWf (cells.map (·.1))
  | .samplePreload cells => banksWf (cells.map (·.1))
  | .extestPulse cells => banksWf (cells.map (·.1))
  | .extestTrain cells => banksWf (cells.map (·.1))
  | .groupClockEdge g _ _ pins late pops pushes =>
    g ≠ 0 && banksWf (pins.map (·.1)) && late.all (fun e => e.1 < 256 && e.2 < 76800) && pops.all (fun e => e.1 < 256 && e.2 < 32)
      && pushes.all (fun e => e.1 < 256 && e.2.1 < 32)
  | .dramError _ b _ => b < 2 ^ 37
  | _ => true

end Sys2Proof
end

