-- ==== Sys2Proof/Certificates/Slice0/Obligations.lean ====
section
/-! DEFINITION. The statements for the provers. -/

open Sys2Proof Sys2Proof.Machine Sys2Proof.Safety

/-- One step runs the command at the front of the queue with the queue's rest. -/
def Obligations.StepRunsTheFrontCommand : Prop :=
  ∀ (c : Instr) (s : State), step { s with pending := c :: s.pending } = exec c s

/-! ### Scull engines -/

/-- R282: g0 reads as 0 and ignores writes; any other general register holds what was written last. -/
def Obligations.GeneralRegisterFile : Prop :=
  ∀ (x : Engine) (r q : GReg) (v : Word),
    (x.setG r v).gr 0 = 0 ∧ x.setG 0 v = x ∧ (r ≠ 0 → (x.setG r v).gr r = v) ∧ (q ≠ r → (x.setG r v).gr q = x.gr q)

/-- R288: the three-register instructions. Each commits its result into rd and changes nothing else but pc and the count of committed
instructions.
R288: the immediate instructions of one register and a constant. -/
def Obligations.EngineResults : Prop :=
  (∀ (s : State) (e : EngIx) (rd ra rb : GReg),
      let x := s.dev.eng e
      let a := x.gr ra
      let b := x.gr rb
      let gives (fn : BitVec 4) (c : Instr) (v : Word) : Prop :=
        Ready s.dev e (.alu fn rd ra rb) → Gives c s (committed s.dev e (x.setG rd v) (x.pc + 4))
      gives 0 (.add e rd ra rb) (a + b) ∧ gives 1 (.sub e rd ra rb) (a - b) ∧ gives 2 (.and e rd ra rb) (a &&& b)
        ∧ gives 3 (.or e rd ra rb) (a ||| b) ∧ gives 4 (.xor e rd ra rb) (a ^^^ b)
        ∧ gives 5 (.sll e rd ra rb) (a <<< (b &&& 31#32)) ∧ gives 6 (.srl e rd ra rb) (a >>> (b &&& 31#32))
        ∧ gives 7 (.sra e rd ra rb) (a.sshiftRight' (b &&& 31#32))
        ∧ gives 8 (.slt e rd ra rb) (if a.toInt < b.toInt then 1 else 0)
        ∧ gives 9 (.sltu e rd ra rb) (if a.toNat < b.toNat then 1 else 0)
        ∧ gives 10 (.mul e rd ra rb) (a * b)
        ∧ gives 11 (.mulh e rd ra rb) ((a.signExtend 64 * b.signExtend 64).extractLsb' 32 32)
        ∧ gives 12 (.mulhu e rd ra rb) ((a.setWidth 64 * b.setWidth 64).extractLsb' 32 32)
        ∧ gives 13 (.divu e rd ra rb) (if b = 0 then 0xFFFFFFFF#32 else a / b)
        ∧ gives 14 (.remu e rd ra rb) (if b = 0 then a else a % b))
  ∧ (∀ (s : State) (e : EngIx) (rd ra : GReg) (i : BitVec 16) (sh : BitVec 5),
      let x := s.dev.eng e
      let a := x.gr ra
      let gives (w : EngInstr) (c : Instr) (v : Word) : Prop :=
        Ready s.dev e w → Gives c s (committed s.dev e (x.setG rd v) (x.pc + 4))
      gives (.imm 0x01 rd ra i) (.addi e rd ra i) (a + i.signExtend 32) ∧ gives (.imm 0x02 rd ra i) (.andi e rd ra i) (a &&& i.setWidth 32)
        ∧ gives (.imm 0x03 rd ra i) (.ori e rd ra i) (a ||| i.setWidth 32)
        ∧ gives (.imm 0x04 rd ra i) (.xori e rd ra i) (a ^^^ i.setWidth 32)
        ∧ gives (.imm 0x05 rd ra i) (.slti e rd ra i) (if a.toInt < i.toInt then 1 else 0)
        ∧ gives (.imm 0x06 rd ra i) (.sltiu e rd ra i) (if a.toNat < (i.signExtend 32).toNat then 1 else 0)
        ∧ gives (.imm 0x07 rd 0 i) (.lui e rd i) (i ++ 0#16)
        ∧ gives (.shi 0 rd ra sh) (.slli e rd ra sh) (a <<< sh) ∧ gives (.shi 1 rd ra sh) (.srli e rd ra sh) (a >>> sh)
        ∧ gives (.shi 2 rd ra sh) (.srai e rd ra sh) (a.sshiftRight' sh))

/-- R287, R288: branches compare ra with rb as they are named and go to their own address + sext(off) × 4, or on to the next word; J and
JAL jump there, JALR to ra + sext(imm) with bits [1:0] cleared; JAL and JALR keep the next address. -/
def Obligations.BranchesAndJumps : Prop :=
  ∀ (s : State) (e : EngIx) (rd ra rb : GReg) (off : BitVec 16) (far : BitVec 26),
    let x := s.dev.eng e
    let a := x.gr ra
    let b := x.gr rb
    let branch (k : BitVec 3) (c : Instr) (taken : Prop) : Prop :=
      Ready s.dev e (.branch k ra rb off) →
        (taken → Gives c s (committed s.dev e x (x.pc + 4 * off.signExtend 32))) ∧ (¬ taken → Gives c s (committed s.dev e x (x.pc + 4)))
    branch 0 (.beq e ra rb off) (a = b) ∧ branch 1 (.bne e ra rb off) (a ≠ b)
      ∧ branch 2 (.blt e ra rb off) (a.toInt < b.toInt) ∧ branch 3 (.bge e ra rb off) (b.toInt ≤ a.toInt)
      ∧ branch 4 (.bltu e ra rb off) (a.toNat < b.toNat) ∧ branch 5 (.bgeu e ra rb off) (b.toNat ≤ a.toNat)
      ∧ (Ready s.dev e (.jump false far) → Gives (.j e far) s (committed s.dev e x (x.pc + 4 * far.signExtend 32)))
      ∧ (Ready s.dev e (.jump true far) →
          Gives (.jal e far) s (committed s.dev e (x.setG 31 (x.pc + 4)) (x.pc + 4 * far.signExtend 32)))
      ∧ (Ready s.dev e (.imm 0x2A rd ra off) →
          Gives (.jalr e rd ra off) s (committed s.dev e (x.setG rd (x.pc + 4)) (a + off.signExtend 32 &&& ~~~3#32)))

/-- R288, R283, R296: a load from either SRAM on sound words: bytes are little-endian, halfwords and bytes sign- or zero-extended; VLD
takes 16 bytes.
R288, R293, R296: what stores and local atomics leave in data SRAM, byte by byte: the bytes at the address, in little-endian order,
are the source's, every other byte is as before; an atomic also returns the old word in rd. -/
def Obligations.SramAccesses : Prop :=
  (∀ (s : State) (e : EngIx) (rd ra : GReg) (v : VReg) (i : BitVec 16) (isI : Bool),
      let x := s.dev.eng e
      let a := x.gr ra + i.signExtend 32
      let w := a.toNat % 0x10000 / 4
      let m := x.sramWord isI w >>> (8 * (a.toNat % 4))
      (if isI then a.toNat < 0x10000 else 0x10000 ≤ a.toNat ∧ a.toNat < 0x20000) →
      let gives (op : BitVec 6) (size : Nat) (c : Instr) (r : Word) : Prop :=
        Ready s.dev e (.imm op rd ra i) → PlainAccess x a size true false → x.sramErr isI w = 0 →
          Gives c s (committed s.dev e (x.setG rd r) (x.pc + 4))
      gives 0x10 4 (.lw e rd ra i) m ∧ gives 0x11 2 (.lh e rd ra i) ((m.setWidth 16).signExtend 32)
        ∧ gives 0x12 2 (.lhu e rd ra i) ((m.setWidth 16).setWidth 32) ∧ gives 0x13 1 (.lb e rd ra i) ((m.setWidth 8).signExtend 32)
        ∧ gives 0x14 1 (.lbu e rd ra i) ((m.setWidth 8).setWidth 32)
        ∧ (Ready s.dev e (.vmem false v ra i) → PlainAccess x a 16 true false → (∀ k < 4, x.sramErr isI (w + k) = 0) →
            Gives (.vld e v ra i) s (committed s.dev e
              (x.setV v (x.sramWord isI (w + 3) ++ x.sramWord isI (w + 2) ++ x.sramWord isI (w + 1) ++ x.sramWord isI w)) (x.pc + 4))))
  ∧ (∀ (s : State) (e : EngIx) (rd rs ra : GReg) (v : VReg) (i : BitVec 16),
      let x := s.dev.eng e
      let a := x.gr ra + i.signExtend 32
      let p := x.gr ra
      let old := x.sramWord false (p.toNat % 0x10000 / 4)
      let stores (n : EngInstr) (c : Instr) (load : Bool) (a : Word) (size : Nat) (src : W128) (y : Engine → Engine) : Prop :=
        0x10000 ≤ a.toNat → a.toNat < 0x20000 → Ready s.dev e n → PlainAccess x a size load true →
        (load = true → x.sramErr false (a.toNat % 0x10000 / 4) = 0) →
        GivesSome c s (fun t =>
          (∀ k < 0x10000, dmemByte (t.eng e) k =
            if a.toNat % 0x10000 ≤ k ∧ k < a.toNat % 0x10000 + size then src.extractLsb' (8 * (k - a.toNat % 0x10000)) 8 else dmemByte x k)
          ∧ (t.eng e).pc = x.pc + 4 ∧ (t.eng e).instrs = x.instrs + 1
          ∧ OnlyEngine s.dev t e (fun z => { z with dmem := x.dmem, derr := x.derr, pc := x.pc, instrs := x.instrs, pend := x.pend, g := x.g })
          ∧ (t.eng e).g = (y x).g)
      stores (.imm 0x18 rs ra i) (.sw e rs ra i) false a 4 ((x.gr rs).setWidth 128) id
        ∧ stores (.imm 0x19 rs ra i) (.sh e rs ra i) false a 2 ((x.gr rs).setWidth 128) id
        ∧ stores (.imm 0x1A rs ra i) (.sb e rs ra i) false a 1 ((x.gr rs).setWidth 128) id
        ∧ stores (.vmem true v ra i) (.vst e v ra i) false a 16 (x.vr v) id
        ∧ stores (.amo false rd ra rs) (.amoSwap e rd ra rs) true p 4 ((x.gr rs).setWidth 128) (·.setG rd old)
        ∧ stores (.amo true rd ra rs) (.amoFadd e rd ra rs) true p 4 ((old + x.gr rs).setWidth 128) (·.setG rd old))

/-- R284, R285, R293: a load, a store or an atomic through an enabled aperture becomes one request to (base << 24) | offset with the
aperture's attributes. A posted one commits where the posted queue has room and waits where it has none; any other waits for its
response. A request that waited for room commits once there is some. -/
def Obligations.ApertureAccesses : Prop :=
  ∀ (s : State) (e : EngIx) (rd ra rb : GReg) (v : VReg) (i : BitVec 16) (k o dest : Nat) (w : EngInstr) (c : Instr) (a : Word)
    (size cmd len : Nat) (load store rr : Bool) (data : List W128),
    let x := s.dev.eng e
    let addr := x.apAddr k o
    let ai := x.gr ra + i.signExtend 32
    let np : Bool := x.apAttr k 9 1 = 1
    let lane (n : Nat) : List W128 := [BitVec.ofNat 128 ((x.gr rb).toNat % 2 ^ (8 * n) * 2 ^ (8 * (a.toNat % 16)))]
    (w, c, a, size, cmd, len, load, store, rr, data) ∈ [
      (.imm 0x10 rd ra i, .lw e rd ra i, ai, 4, 4, 0, true, false, true, []),
      (.imm 0x11 rd ra i, .lh e rd ra i, ai, 2, 3, 0, true, false, true, []),
      (.imm 0x12 rd ra i, .lhu e rd ra i, ai, 2, 3, 0, true, false, true, []),
      (.imm 0x13 rd ra i, .lb e rd ra i, ai, 1, 2, 0, true, false, true, []),
      (.imm 0x14 rd ra i, .lbu e rd ra i, ai, 1, 2, 0, true, false, true, []),
      (.vmem false v ra i, .vld e v ra i, ai, 16, 1, 1, true, false, true, []),
      (.imm 0x18 rb ra i, .sw e rb ra i, ai, 4, 0x0B, 1, false, true, np, lane 4),
      (.imm 0x19 rb ra i, .sh e rb ra i, ai, 2, 0x0A, 1, false, true, np, lane 2),
      (.imm 0x1A rb ra i, .sb e rb ra i, ai, 1, 0x09, 1, false, true, np, lane 1),
      (.vmem true v ra i, .vst e v ra i, ai, 16, 0x08, 1, false, true, np, [x.vr v]),
      (.amo false rd ra rb, .amoSwap e rd ra rb, x.gr ra, 4, 0x0C, 1, true, true, true, lane 4),
      (.amo true rd ra rb, .amoFadd e rd ra rb, x.gr ra, 4, 0x0D, 1, true, true, true, lane 4)] →
    locOf a = .aperture k o → x.apAttr k 0 1 = 1 → destOf s.dev addr = some dest → (size < 4 → inControl addr = false) →
    let room := postedLevel s.dev (engNode e) (engUnit e) < 16
    (Ready s.dev e w → PlainAccess x a size load store →
      (rr = true → Gives c s (requested s.dev e dest cmd len k o true data (waitsFor x w)))
      ∧ (rr = false → room → Gives c s (requested s.dev e dest cmd len k o false data (onward x)))
      ∧ (rr = false → ¬ room → Gives c s (s.dev.setEng e (waitsFor x w))))
    ∧ (rr = false → x.run = 3 → x.pend = some w → x.stepping = false → x.haltReq = false → room →
        Gives (.postedQueueSpace e) s (requested s.dev e dest cmd len k o false data (onward x)))

/-- R291, R292: SEND through an enabled aperture at an aligned address: a posted write of n units commits where the posted queue has
room; a write, a ring push or a ring pop waits for its response.
R285, R292, R293: the response to an engine's request. NSTAT takes its status; the instruction commits with what its row says, or
raises exception 5 where the status is not OK and the aperture traps. A load without data takes 0 for DENIED, else all ones.
R294: WAIT completes at once where an enabled cause is present and hands the causes to rd and WAKE, else the engine waits until one
appears; FENCE (R288) waits until the posted queue is empty. -/
def Obligations.EngineRequests : Prop :=
  (∀ (s : State) (e : EngIx) (rd ra : GReg) (v : VReg) (n : BitVec 3) (k o dest : Nat),
      let x := s.dev.eng e
      let a := x.gr ra
      let addr := x.apAddr k o
      let units := (List.range (n.toNat + 1)).map (fun u => x.vr (v + BitVec.ofNat 4 u))
      let len := n.toNat + 1
      locOf a = .aperture k o → x.apAttr k 0 1 = 1 → destOf s.dev addr = some dest → a.toNat % 16 = 0 →
      watchAction x a (16 * len) true true = 0 →
      (Ready s.dev e (.send 0 ra v n 0) → postedLevel s.dev (engNode e) (engUnit e) < 16 →
        Gives (.sendPosted e ra v n) s (requested s.dev e dest 0x08 len k o false units (onward x)))
      ∧ (Ready s.dev e (.send rd ra v n 1) →
        Gives (.sendWrite e rd ra v n) s (requested s.dev e dest 0x08 len k o true units (waitsFor x (.send rd ra v n 1))))
      ∧ (Ready s.dev e (.send rd ra v n 2) →
        Gives (.sendPush e rd ra v n) s (requested s.dev e dest 0x10 len k o true units (waitsFor x (.send rd ra v n 2))))
      ∧ (Ready s.dev e (.send rd ra v n 3) →
        Gives (.sendPop e rd ra v n) s (requested s.dev e dest 0x11 len k o true [] (waitsFor x (.send rd ra v n 3)))))
  ∧ (∀ (s : State) (e : EngIx) (i : EngInstr) (st : Status) (data : List W128) (k o : Nat) (q : Outst),
      let x := s.dev.eng e
      let a := dataAddr x i
      let y := x.setS 13 (BitVec.ofNat 32 (st.code + (if (x.s 13).getLsbD 4 ∨ st ≠ .ok then 16 else 0)))
      let d := s.dev.dropOutst (engNode e) (engUnit e) q.tag
      x.run = 3 → x.pend = some i → x.stepping = false → x.haltReq = false → locOf a = .aperture k o →
      (s.dev.noc.outst.filter (fun z => z.node = engNode e && z.unit = engUnit e)).getLast? = some q →
      (st ≠ .ok → x.apAttr k 8 1 = 1 → Gives (.engineNocResponse e st data) s (engExc (d.setEng e y) e 5 a st.code))
      ∧ ((st = .ok ∨ x.apAttr k 8 1 ≠ 1) →
        let done (z : Engine) : Prop := Gives (.engineNocResponse e st data) s (committed d e z (x.pc + 4))
        (∀ rd ra im, i = .imm 0x10 rd ra im → ∀ u, data = [u] → done (y.setG rd (u.extractLsb' (8 * (a.toNat % 16)) 32)))
        ∧ (∀ rd ra im, i = .imm 0x11 rd ra im → ∀ u, data = [u] → done (y.setG rd ((u.extractLsb' (8 * (a.toNat % 16)) 16).signExtend 32)))
        ∧ (∀ rd ra im, i = .imm 0x12 rd ra im → ∀ u, data = [u] → done (y.setG rd ((u.extractLsb' (8 * (a.toNat % 16)) 16).setWidth 32)))
        ∧ (∀ rd ra im, i = .imm 0x13 rd ra im → ∀ u, data = [u] → done (y.setG rd ((u.extractLsb' (8 * (a.toNat % 16)) 8).signExtend 32)))
        ∧ (∀ rd ra im, i = .imm 0x14 rd ra im → ∀ u, data = [u] → done (y.setG rd ((u.extractLsb' (8 * (a.toNat % 16)) 8).setWidth 32)))
        ∧ (∀ op rd ra im, i = .imm op rd ra im → 0x10 ≤ op → op ≤ 0x14 → data = [] →
            done (y.setG rd (if st = .denied then 0 else 0xFFFFFFFF#32)))
        ∧ (∀ op rs ra im, i = .imm op rs ra im → 0x18 ≤ op → op ≤ 0x1A → done y)
        ∧ (∀ v ra im u, i = .vmem false v ra im → data = [u] → done (y.setV v u))
        ∧ (∀ v ra im, i = .vmem true v ra im → done y)
        ∧ (∀ add rd ra rb u, i = .amo add rd ra rb → data = [u] → done (y.setG rd (u.extractLsb' (8 * (a.toNat % 16)) 32)))
        ∧ (∀ rd ra v n kind, i = .send rd ra v n kind → kind = 1 ∨ kind = 2 → done (y.setG rd (BitVec.ofNat 32 st.code)))
        ∧ (∀ rd ra v n, i = .send rd ra v n 3 → data = [] → done (y.setG rd (BitVec.ofNat 32 st.code)))
        ∧ (∀ rd ra v n u w, i = .send rd ra v n 3 → data = [u, w] →
            done (((y.setV v u).setV (v + 1) w).setG rd (BitVec.ofNat 32 (st.code + 0x200))))))
  ∧ (∀ (s : State) (e : EngIx) (rd : GReg) (mask : BitVec 8),
      let x := s.dev.eng e
      let c := wakeCauses s.dev e
      let woken := { ((x.setG rd c).setS 10 c) with mbx := false }
      let posted := postedLevel s.dev (engNode e) (engUnit e)
      (c.getLsbD 0 = s.dev.sigs.any (fun z => z.2.st = 1 && z.2.tgt = e.val)) ∧ (c.getLsbD 1 = decide (timerNow s.dev e = 0))
      ∧ (c.getLsbD 4 = x.mbx) ∧ (c.getLsbD 5 = decide (posted = 0))
      ∧ (Ready s.dev e (.wait rd mask) →
          (c &&& mask.setWidth 32 ≠ 0 → Gives (.wait e rd mask) s (committed s.dev e woken (x.pc + 4)))
          ∧ (c &&& mask.setWidth 32 = 0 → Gives (.wait e rd mask) s (s.dev.setEng e { x with run := 2, pend := some (.wait rd mask) })))
      ∧ (x.run = 2 → x.pend = some (.wait rd mask) → x.stepping = false → x.haltReq = false → c &&& mask.setWidth 32 ≠ 0 →
          Gives (.waitWake e) s (committed s.dev e woken (x.pc + 4)))
      ∧ (Ready s.dev e .fence → posted = 0 → Gives (.fence e) s (committed s.dev e x (x.pc + 4)))
      ∧ (Ready s.dev e .fence → posted ≠ 0 → Gives (.fence e) s (s.dev.setEng e { x with run := 3, pend := some .fence }))
      ∧ (x.run = 3 → x.pend = some .fence → x.stepping = false → x.haltReq = false → posted = 0 →
          Gives (.fenceDone e) s (committed s.dev e x (x.pc + 4))))

/-- R302: an exception outside a handler: EPC holds the instruction's address, ECAUSE the code with the NoC status in [11:8], EADDR its
address, in_handler is 1 and pc is EVEC. BREAK takes exception 10 and ERET returns (R288).
R302: an exception raised in a handler is a double fault: the engine stops in the faulted state with fault and double_fault set.
R301: the causes that belong to the fetch, in their order, here at an ADD: a fetch outside instruction SRAM, a disturbed word that no
correction restores, a breakpoint with action trap, a word no row lists. -/
def Obligations.EngineExceptions : Prop :=
  (∀ (s : State) (e : EngIx) (code nstat : Nat) (addr : Word),
      let x := s.dev.eng e
      let entered (t : Dev) (code : Nat) (addr : Word) (nstat : Nat) : Prop :=
        (t.eng e).s 6 = x.pc ∧ (t.eng e).s 7 = BitVec.ofNat 32 (code + 256 * nstat) ∧ (t.eng e).s 8 = addr ∧ (t.eng e).s 5 = 1
          ∧ (t.eng e).pc = x.s 9 &&& ~~~3#32 ∧ (t.eng e).run = 1 ∧ (t.eng e).lastCause = code
          ∧ (∀ k, k ∉ [5, 6, 7, 8] → (t.eng e).s k = x.s k)
          ∧ OnlyEngine s.dev t e (fun z => { z with sr := x.sr, pc := x.pc, pend := x.pend, run := x.run, lastCause := x.lastCause })
      (x.inHandler = false → x.stepping = false → x.haltReq = false → entered (engExc s.dev e code addr nstat) code addr nstat)
      ∧ (Ready s.dev e .brk → x.inHandler = false → GivesSome (.brk e) s (fun t => entered t 10 x.pc 0))
      ∧ (Ready s.dev e .eret → Gives (.eret e) s (committed s.dev e (x.setS 5 0) (x.s 6 &&& ~~~3#32))))
  ∧ (∀ (s : State) (e : EngIx),
      let x := s.dev.eng e
      let o := sclOff e R.SCL_EVENTS
      Ready s.dev e .brk → x.inHandler = true → GivesSome (.brk e) s (fun t =>
        t.eng e = { x with run := 5, haltCause := 5, pend := none }
          ∧ t.reg (engNode e) o = s.dev.reg (engNode e) o ||| 0x24#32
          ∧ OnlyRegs s.dev t [(engNode e, o)]
          ∧ (∀ j, j ≠ e.val → t.eng j = s.dev.eng j)
          ∧ { t with engines := s.dev.engines, regs := s.dev.regs, out := s.dev.out } = s.dev))
  ∧ (∀ (s : State) (e : EngIx) (rd ra rb : GReg),
      let x := s.dev.eng e
      let w := x.pc.toNat / 4
      let c : Instr := .add e rd ra rb
      x.run = 1 → x.outOfService = false → engClocked s.dev e = true →
      (0x10000 ≤ x.pc.toNat → Gives c s (engExc s.dev e 2 x.pc 0))
      ∧ (x.pc.toNat < 0x10000 → 2 ≤ flips (x.sramErr true w) → ∃ d, Gives c s (engExc d e 6 x.pc 0) ∧ d.engines = s.dev.engines
          ∧ (d.reg (engNode e) (sclOff e R.SCL_EVENTS)).getLsbD 4 = true)
      ∧ (x.pc.toNat < 0x10000 → x.sramErr true w = 0 → breakAction x x.pc = 1 → Gives c s (engExc s.dev e 8 x.pc 0))
      ∧ (x.pc.toNat < 0x10000 → x.sramErr true w = 0 → breakAction x x.pc = 0 → EngInstr.decode (x.sramWord true w) = none →
          Gives c s (engExc s.dev e 1 x.pc 0)))

/-- R295, R303: SRD reads a status register, SWR writes it, SBS and SBC set and clear bits of it; a write keeps the bits that are not
writable. -/
def Obligations.StatusRegisters : Prop :=
  ∀ (s : State) (e : EngIx) (rd ra : GReg) (ix : BitVec 6),
    let x := s.dev.eng e
    let k := ix.toNat
    let v := statusVal s.dev e k
    let writes (fn : BitVec 2) (c : Instr) (w : Word) : Prop :=
      Ready s.dev e (.status fn ra ix) →
        (statusMask k ≠ 0 → Gives c s (committed s.dev e (x.setS k ((x.s k &&& ~~~statusMask k) ||| (w &&& statusMask k))) (x.pc + 4)))
        ∧ (k = 11 → Gives c s (committed s.dev e { x with timer := w, timerAt := s.dev.dtime } (x.pc + 4)))
        ∧ (k = 12 → Gives c s (committed s.dev e { x with petAt := s.dev.dtime } (x.pc + 4)))
        ∧ (statusMask k = 0 → k ∉ [11, 12, 15] → Gives c s (committed s.dev e x (x.pc + 4)))
    (k ∉ [1, 2, 3, 4, 18, 19] → Ready s.dev e (.status 0 rd ix) →
      Gives (.srd e rd ix) s (committed s.dev e (x.setG rd v) (x.pc + 4)))
    ∧ (k ∈ [1, 3, 18] → Ready s.dev e (.status 0 rd ix) → Gives (.srd e rd ix) s
        (committed s.dev e { (x.setG rd v) with srLatch := tput x.srLatch none k (some (statusVal s.dev e (k + 1))) } (x.pc + 4)))
    ∧ (k ∈ [2, 4, 19] → Ready s.dev e (.status 0 rd ix) → Gives (.srd e rd ix) s
        (committed s.dev e (x.setG rd ((tget x.srLatch none (k - 1)).getD v)) (x.pc + 4)))
    ∧ writes 1 (.swr e ra ix) (x.gr ra) ∧ writes 2 (.sbs e ra ix) (v ||| x.gr ra) ∧ writes 3 (.sbc e ra ix) (v &&& ~~~x.gr ra)
    ∧ statusVal s.dev e 3 = s.dev.dtime.extractLsb' 0 32 ∧ statusVal s.dev e 4 = s.dev.dtime.extractLsb' 32 32
    ∧ statusVal s.dev e 1 = x.cycles.extractLsb' 0 32 ∧ statusVal s.dev e 20 = x.crc
    ∧ (∀ j, (21 ≤ j ∧ j < 32) ∨ 56 ≤ j → statusVal s.dev e j = 0)

/-- R303, R313, R314: what time and disturbance do to an engine: TIMER reaches 0, the watchdog faults it, the patrol corrects a single
error and counts it, a disturbance flips one stored bit.
R312, R320, R321: SCL_CTL halts, resumes, steps, resets and releases an engine whose run state fits, and is answered BAD_STATE where
it does not; SCL_MEM_DATA reaches the SRAMs of a stopped engine only; SCL_PORT_MAP moves a port set unless it takes it from a running
engine. -/
def Obligations.EngineEventsAndControl : Prop :=
  (∀ (s : State) (e : EngIx) (w : Fin 16384) (b : Fin 39) (isI : Bool),
      let x := s.dev.eng e
      let n := engNode e
      let ev := sclOff e R.SCL_EVENTS
      (timersFrozen s.dev e = false → Gives (.timerExpiry e) s (s.dev.setEng e { x with timer := 0, timerAt := s.dev.dtime }))
      ∧ (x.run = 1 ∨ x.run = 2 ∨ x.run = 3 → s.dev.fld n (sclOff e R.SCL_WDOG) 0 24 ≠ 0 → timersFrozen s.dev e = false →
          GivesSome (.watchdogExpiry e) s (fun t =>
            t.eng e = { x with run := 5, haltCause := 6, pend := none, stepping := false, haltReq := false }
            ∧ t.reg n ev = s.dev.reg n ev ||| 0x44#32 ∧ OnlyRegs s.dev t [(n, ev)] ∧ (∀ j, j ≠ e.val → t.eng j = s.dev.eng j)
            ∧ { t with engines := s.dev.engines, regs := s.dev.regs, out := s.dev.out } = s.dev))
      ∧ (engClocked s.dev e = true → x.sramErr true x.patrol = 0 → x.sramErr false x.patrol = 0 →
          Gives (.engineSramPatrol e) s (s.dev.setEng e { x with patrol := (x.patrol + 1) % 16384 }))
      ∧ (engClocked s.dev e = true → x.sramErr false x.patrol = 1 → x.sramErr true x.patrol = 0 →
          GivesSome (.engineSramPatrol e) s (fun t =>
            (t.eng e).sramErr false x.patrol = 0 ∧ (t.reg n ev).getLsbD 3 = true ∧ (t.eng e).patrol = (x.patrol + 1) % 16384
            ∧ t.fld n (sclOff e R.SCL_ECC) 0 16 = min (s.dev.fld n (sclOff e R.SCL_ECC) 0 16 + 1) 0xFFFF
            ∧ OnlyRegs s.dev t [(n, ev), (n, sclOff e R.SCL_ECC)]))
      ∧ Gives (.engineSramUpset e isI w b) s (s.dev.setEng e (x.setErr isI w.val (x.sramErr isI w.val ^^^ BitVec.ofNat 39 (2 ^ b.val)))))
  ∧ (∀ (s : State) (r : Req) (e : EngIx) (w : Word) (i : Isl),
      let d := s.dev
      let x := d.eng e
      let n := engNode e
      let o := sclOff e R.SCL_CTL
      let ok (t : Dev) : Dev := t.answer r n o .ok 0
      let bad := d.answer r n o .badState 0
      let running := x.run = 1 ∨ x.run = 2 ∨ x.run = 3
      let mo := sclOff e R.SCL_MEM_DATA
      let a := (d.reg n (sclOff e R.SCL_MEM_ADDR)).toNat % 0x20000
      (admits d r n o = true → x.outOfService = false →
        (x.run = 1 ∨ x.run = 2 → GivesSome (.sclHalt r e) s (fun t =>
          t.eng e = { x with run := 4, haltCause := 1, pend := none, stepping := false, haltReq := false }
          ∧ t.reg n (sclOff e R.SCL_EVENTS) = d.reg n (sclOff e R.SCL_EVENTS) ||| 2#32 ∧ OnlyRegs d t [(n, sclOff e R.SCL_EVENTS)]
          ∧ t.out.head? = some (.ans r n o .ok 0)))
        ∧ (¬ running → Gives (.sclHalt r e) s bad)
        ∧ (x.run = 4 → Gives (.sclResume r e) s (ok (d.setEng e { x with run := 1, haltCause := 0, byDebug := false })))
        ∧ (x.run ≠ 4 → Gives (.sclResume r e) s bad)
        ∧ (x.run = 4 → Gives (.sclStep r e) s (ok (d.setEng e { x with run := 1, stepping := true })))
        ∧ (x.run ≠ 4 → Gives (.sclStep r e) s bad)
        ∧ GivesSome (.sclReset r e) s (fun t =>
          (t.eng e).run = 0 ∧ (∀ g, (t.eng e).gr g = 0) ∧ (∀ v, (t.eng e).vr v = 0) ∧ (t.eng e).imem = x.imem ∧ (t.eng e).dmem = x.dmem
          ∧ (t.eng e).s 9 = d.reg n (sclOff e R.SCL_START) &&& ~~~3#32)
        ∧ (x.run = 0 → engClocked d e = true → Gives (.sclRelease r e) s (ok (d.setEng e
          { x with run := 1, pc := d.reg n (sclOff e R.SCL_START) &&& ~~~3#32, cycles := 0, petAt := d.dtime })))
        ∧ (x.run ≠ 0 → Gives (.sclRelease r e) s bad))
      ∧ (admits d r n mo = true → x.run = 0 ∨ x.run = 4 →
        (a < 0x10000 → Gives (.sclMemDataAccess r e (some w)) s
          (((d.setEng e (x.setSram true (a / 4) w)).setReg n (sclOff e R.SCL_MEM_ADDR) (BitVec.ofNat 32 ((a + 4) % 0x20000))).answer r n mo .ok 0))
        ∧ (0x10000 ≤ a → x.sramErr false (a % 0x10000 / 4) = 0 → Gives (.sclMemDataAccess r e none) s
          ((d.setReg n (sclOff e R.SCL_MEM_ADDR) (BitVec.ofNat 32 ((a + 4) % 0x20000))).answer r n mo .ok
            (x.sramWord false (a % 0x10000 / 4)))))
      ∧ (admits d r n mo = true → running → Gives (.sclMemDataAccess r e (some w)) s (d.answer r n mo .badState 0))
      ∧ (admits d r i.val R.SCL_PORT_MAP = true → (d.eng (i.val * 2)).run = 0 → (d.eng (i.val * 2 + 1)).run = 0 →
        Gives (.sclPortMapWrite r i w) s ((d.setReg i.val R.SCL_PORT_MAP (w &&& 3#32)).answer r i.val R.SCL_PORT_MAP .ok 0)))

/-- R296: every VOP function, lane by lane at each lane width w, commits its result into vd and changes nothing else.
R296: transfers between a vector and a general register, and the CRC unit, whose check value over the nine bytes 31 to 39 of the
standard is that of CRC-32C. -/
def Obligations.VectorUnit : Prop :=
  (∀ (s : State) (e : EngIx) (vd va vb : VReg) (lw : BitVec 2) (imm : BitVec 6),
      let x := s.dev.eng e
      let d := x.vr vd
      let a := x.vr va
      let b := x.vr vb
      let w := 8 * 2 ^ lw.toNat
      let gives (i : EngInstr) (c : Instr) (q : W128 → Prop) : Prop :=
        Ready s.dev e i → ∃ r, Gives c s (committed s.dev e (x.setV vd r) (x.pc + 4)) ∧ q r
      let op (fn : BitVec 6) (c : Instr) (f : BitVec w → BitVec w → BitVec w → BitVec w) : Prop :=
        gives (.vop fn vd va vb lw 0) c (laneIs w f d a b)
      let mask (p : Prop) [Decidable p] : BitVec w := if p then BitVec.allOnes w else 0
      op 0 (.vand e vd va vb lw) (fun _ a b => a &&& b) ∧ op 1 (.vor e vd va vb lw) (fun _ a b => a ||| b)
        ∧ op 2 (.vxor e vd va vb lw) (fun _ a b => a ^^^ b) ∧ op 3 (.vandn e vd va vb lw) (fun _ a b => a &&& ~~~b)
        ∧ op 4 (.vadd e vd va vb lw) (fun _ a b => a + b) ∧ op 5 (.vsub e vd va vb lw) (fun _ a b => a - b)
        ∧ op 6 (.vmin e vd va vb lw) (fun _ a b => if a.toInt ≤ b.toInt then a else b)
        ∧ op 7 (.vminu e vd va vb lw) (fun _ a b => if a.toNat ≤ b.toNat then a else b)
        ∧ op 8 (.vmax e vd va vb lw) (fun _ a b => if a.toInt ≤ b.toInt then b else a)
        ∧ op 9 (.vmaxu e vd va vb lw) (fun _ a b => if a.toNat ≤ b.toNat then b else a)
        ∧ gives (.vop 10 vd va 0 lw imm) (.vsll e vd va lw imm) (laneIs w (fun _ a _ => a <<< imm.toNat) d a b)
        ∧ gives (.vop 11 vd va 0 lw imm) (.vsrl e vd va lw imm) (laneIs w (fun _ a _ => a >>> imm.toNat) d a b)
        ∧ gives (.vop 12 vd va 0 lw imm) (.vsra e vd va lw imm) (laneIs w (fun _ a _ => a.sshiftRight imm.toNat) d a b)
        ∧ op 13 (.vceq e vd va vb lw) (fun _ a b => mask (a = b)) ∧ op 14 (.vcgt e vd va vb lw) (fun _ a b => mask (b.toInt < a.toInt))
        ∧ op 15 (.vcgtu e vd va vb lw) (fun _ a b => mask (b.toNat < a.toNat))
        ∧ op 16 (.vsel e vd va vb lw) (fun d a b => (a &&& d) ||| (b &&& ~~~d))
        ∧ (lw ≠ 0 → gives (.vop 17 vd va vb lw 0) (.vpack e vd va vb lw) (fun r => ∀ i < 128 / w,
            r.extractLsb' (w / 2 * i) (w / 2) = a.extractLsb' (w * i) (w / 2)
            ∧ r.extractLsb' (w / 2 * (128 / w + i)) (w / 2) = b.extractLsb' (w * i) (w / 2)))
        ∧ (lw ≠ 3 → gives (.vop 18 vd va 0 lw 0) (.vunpkl e vd va lw) (fun r => ∀ i < 128 / w / 2,
            r.extractLsb' (2 * w * i) (2 * w) = (a.extractLsb' (w * i) w).setWidth (2 * w)))
        ∧ (lw ≠ 3 → gives (.vop 19 vd va 0 lw 0) (.vunpkh e vd va lw) (fun r => ∀ i < 128 / w / 2,
            r.extractLsb' (2 * w * i) (2 * w) = (a.extractLsb' (w * (128 / w / 2 + i)) w).setWidth (2 * w))))
  ∧ (∀ (s : State) (e : EngIx) (v : VReg) (g : GReg) (lw : BitVec 2) (ix : BitVec 6),
      let x := s.dev.eng e
      let w := 8 * 2 ^ lw.toNat
      let k := 128 / w
      let b := x.vr v
      let r := x.gr g
      lw ≠ 3 →
      (ix.toNat < k → Ready s.dev e (.vxfer 0 v g lw ix) → ∃ z, Gives (.vins e v g lw ix) s (committed s.dev e (x.setV v z) (x.pc + 4))
        ∧ ∀ i < k, z.extractLsb' (w * i) w = if i = ix.toNat then r.setWidth w else b.extractLsb' (w * i) w)
      ∧ (ix.toNat < k → Ready s.dev e (.vxfer 1 v g lw ix) →
          Gives (.vext e v g lw ix) s (committed s.dev e (x.setG g ((b.extractLsb' (w * ix.toNat) w).setWidth 32)) (x.pc + 4)))
      ∧ (Ready s.dev e (.vxfer 2 v g lw 0) → ∃ z, Gives (.vmsk e v g lw) s (committed s.dev e (x.setG g z) (x.pc + 4))
          ∧ ∀ i < 32, z.getLsbD i = (decide (i < k) && b.getLsbD (w * i + w - 1)))
      ∧ (Ready s.dev e (.vxfer 3 v g lw 0) → ∃ z, Gives (.vsplat e v g lw) s (committed s.dev e (x.setV v z) (x.pc + 4))
          ∧ ∀ i < k, z.extractLsb' (w * i) w = r.setWidth w)
      ∧ (Ready s.dev e (.vcrc 0 0 g) → Gives (.vcrci e g) s (committed s.dev e { x with crc := r } (x.pc + 4)))
      ∧ (Ready s.dev e (.vcrc 1 v 0) → Gives (.vcrcu e v) s (committed s.dev e { x with crc := crc32cUpd x.crc (unitBytes b) } (x.pc + 4)))
      ∧ (Ready s.dev e (.vcrc 2 0 g) → Gives (.vcrcr e g) s (committed s.dev e (x.setG g x.crc) (x.pc + 4)))
      ∧ ~~~crc32cUpd 0xFFFFFFFF [0x31, 0x32, 0x33, 0x34, 0x35, 0x36, 0x37, 0x38, 0x39] = 0xE3069283#32)

/-- R306, R308: VPUT appends one entry to the staging queue of an owned set, or waits while it is full and resumes; in replay it does not wait,
and a full queue takes nothing more; VGET takes the head of an up FIFO with its stroke; VPSTAT reads levels; a set the engine does not own is exception 11. -/
def Obligations.EnginePorts : Prop :=
  ∀ (s : State) (e : Fin 512) (v p n : BitVec 4) (rd : GReg) (set : Bool) (w : W128) (at_ : W64) (rest : List (W128 × W64)),
    let c : EngIx := ⟨e.val, by omega⟩
    let d := s.dev
    let x := d.eng e
    let i := e.val / 2
    let j := if set then 1 else 0
    let q := portsOf d e j
    let put (t : Dev) (f : PortSet → PortSet) : Prop :=
      t.isl i = (if set then { d.isl i with ps1 := f q } else { d.isl i with ps0 := f q }) ∧ (∀ m, m ≠ i → t.isl m = d.isl m)
        ∧ { t with engines := d.engines, islands := d.islands } = d ∧ (∀ m, m ≠ e.val → t.eng m = d.eng m)
    let words := (List.range (n.toNat + 1)).map (fun u => x.vr (v + BitVec.ofNat 4 u))
    let appended (t : Dev) : Prop :=
      put t (fun q => { q with staging := q.staging ++ [(p.toNat, words)] }) ∧ t.eng e = onward x
    (ownsSet d e j = true →
      (Ready d e (.vport 0 v p n 0 set) → q.staging.length < 8 → GivesSome (.vput c v p n set) s appended)
      ∧ (Ready d e (.vport 0 v p n 0 set) → 8 ≤ q.staging.length → (d.isl i).replay ≠ none →
          GivesSome (.vput c v p n set) s (fun t => put t id ∧ t.eng e = onward x))
      ∧ (Ready d e (.vport 0 v p n 0 set) → 8 ≤ q.staging.length → (d.isl i).replay = none →
          Gives (.vput c v p n set) s (d.setEng e (waitsFor x (.vport 0 v p n 0 set))))
      ∧ (x.run = 3 → x.pend = some (.vport 0 v p n 0 set) → x.stepping = false → x.haltReq = false → q.staging.length < 8 →
          GivesSome (.vputResume c) s appended)
      ∧ (Ready d e (.vport 1 v p 0 rd set) → tget q.up [] p.toNat = [] → Gives (.vget c v p rd set) s (committed d e (x.setG rd 0) (x.pc + 4)))
      ∧ (Ready d e (.vport 1 v p 0 rd set) → tget q.up [] p.toNat = (w, at_) :: rest → q.upPend = [] →
          GivesSome (.vget c v p rd set) s (fun t =>
            put t (fun q => { q with up := tput q.up [] p.toNat rest,
                                     pops := if isJoined d i then tput q.pops 0 p.toNat (tget q.pops 0 p.toNat + 1) else q.pops })
            ∧ t.eng e = onward { ((x.setV v w).setG rd 1) with upStroke := at_ }))
      ∧ (Ready d e (.vport 2 0 p 0 rd set) → q.staging.length ≤ 8 → (tget q.up [] p.toNat).length ≤ 8 →
          Gives (.vpstat c p rd set) s
            (committed d e (x.setG rd (BitVec.ofNat 32 ((tget q.up [] p.toNat).length + 16 * (8 - q.staging.length) + 256))) (x.pc + 4))))
    ∧ (ownsSet d e j = false →
      (Ready d e (.vport 0 v p n 0 set) → Gives (.vput c v p n set) s (engExc d e 11 x.pc 0))
      ∧ (Ready d e (.vport 1 v p 0 rd set) → Gives (.vget c v p rd set) s (engExc d e 11 x.pc 0))
      ∧ (Ready d e (.vport 2 0 p 0 rd set) → (tget q.up [] p.toNat).length ≤ 8 →
          Gives (.vpstat c p rd set) s (committed d e (x.setG rd (BitVec.ofNat 32 (tget q.up [] p.toNat).length)) (x.pc + 4))))

/-- R287, R288, R291, R294 to R296, R306: every instruction the spec lists is read back from its own word, with every field at every
value, and a word that spells nothing listed spells nothing. -/
def Obligations.EngineWordsRoundTrip : Prop :=
  (∀ i : EngInstr, i.legal = true → EngInstr.decode i.encode = some i)
    ∧ (∀ (w : Word) (i : EngInstr), EngInstr.decode w = some i → i.legal = true ∧ i.encode = w)

/-! ### Registers -/

/-- R10, R12: a command at a register: a unit that is not there answers NO_TARGET, a reserved offset reads 0 and ignores writes, and a
principal outside the register's class is answered DENIED with 0 and recorded; none of them changes a register but the record of the
denial.
R9: a write stores RW bits and clears the RW1C bits where it has a 1; a read of an RC register answers its value and clears it. Shown
on SCL_SIG_EN and SCL_EVENTS of an island's first engine and on NOC_DISCARDS. -/
def Obligations.RegisterAccess : Prop :=
  (∀ (s : State) (r : Req) (node : Fin 1024) (off : BitVec 16) (v : Word),
      let d := s.dev
      let n := node.val
      let o := off.toNat
      let both (t : Dev) : Prop := Gives (.registerWrite r node off v) s t ∧ Gives (.readClear r node off) s t
      (nodeKind n = none → both (d.answer r n o .noTarget 0))
      ∧ (nodeKind n ≠ none → regAt n o = none → both (d.answer r n o .ok 0))
      ∧ (∀ rd k w, nodeKind n ≠ none → regAt n o = some (rd, k, w) →
          (classOk (regClass n o rd) r.tenant (regTenant d n o) = false) →
          GivesSome (.registerWrite r node off v) s (fun t => Gives (.readClear r node off) s t
            ∧ t.out.head? = some (.ans r n o .denied 0) ∧ t.reg n R.NOC_EVENTS = d.reg n R.NOC_EVENTS ||| 8#32
            ∧ OnlyRegs d t [(n, R.NOC_EVENTS)] ∧ { t with regs := d.regs, out := d.out } = d)))
  ∧ (∀ (s : State) (r : Req) (i : Isl) (n : Fin 1024) (v : Word),
      let d := s.dev
      let node : Fin 1024 := ⟨i.val, by omega⟩
      (admits d r i.val R.SCL_SIG_EN = true →
        Gives (.registerWrite r node (BitVec.ofNat 16 R.SCL_SIG_EN) v) s
          ((d.setReg i.val R.SCL_SIG_EN ((d.reg i.val R.SCL_SIG_EN &&& ~~~3#32) ||| (v &&& 3#32))).answer r i.val R.SCL_SIG_EN .ok 0))
      ∧ (admits d r i.val R.SCL_EVENTS = true →
        Gives (.registerWrite r node (BitVec.ofNat 16 R.SCL_EVENTS) v) s
          ((d.setReg i.val R.SCL_EVENTS (d.reg i.val R.SCL_EVENTS &&& ~~~(v &&& 0x1FF#32))).answer r i.val R.SCL_EVENTS .ok 0))
      ∧ (admits d r n.val R.NOC_DISCARDS = true →
        Gives (.readClear r n (BitVec.ofNat 16 R.NOC_DISCARDS)) s
          ((d.setReg n.val R.NOC_DISCARDS 0).answer r n.val R.NOC_DISCARDS .ok (d.reg n.val R.NOC_DISCARDS))))

/-- R13, R14: a value of two words, shown on CRW_CMD_TABLE. A write of the high word is held for its initiator; the write of the low word
commits both and clears what was held. A read of the low word latches the high word, which the next read of it returns. -/
def Obligations.WideRegisters : Prop :=
  ∀ (s : State) (r : Req) (t : Fin 16) (v : Word),
    let d := s.dev
    let lo := R.CRW_CMD_TABLE + 0x40 * t.val
    let hi := lo + 4
    let key := holdKey r 0x142 hi
    isPass (regGate d r 0x142 lo) = true → isPass (regGate d r 0x142 hi) = true →
    Gives (.highWordWrite r 0x142 (BitVec.ofNat 16 hi) v) s ({ d with holdWr := tput d.holdWr 0 key v }.answer r 0x142 hi .ok 0)
    ∧ GivesSome (.lowWordWrite r 0x142 (BitVec.ofNat 16 lo) v) s (fun u =>
        u.reg 0x142 lo = v ∧ u.reg 0x142 hi = tget d.holdWr 0 key ∧ tget u.holdWr 0 key = 0 ∧ OnlyRegs d u [(0x142, lo), (0x142, hi)]
        ∧ u.out = .ans r 0x142 lo .ok 0 :: d.out ∧ { u with regs := d.regs, out := d.out, holdWr := d.holdWr } = d)
    ∧ GivesSome (.lowWordRead r 0x142 (BitVec.ofNat 16 lo)) s (fun u =>
        u.out = .ans r 0x142 lo .ok (d.reg 0x142 lo) :: d.out ∧ tget u.holdRd none key = some (d.reg 0x142 hi)
        ∧ { u with holdRd := d.holdRd, out := d.out } = d)
    ∧ (tget d.holdRd none key = some v → Gives (.highWordRead r 0x142 (BitVec.ofNat 16 hi)) s (d.answer r 0x142 hi .ok v))
    ∧ (tget d.holdRd none key = none → GivesSome (.highWordRead r 0x142 (BitVec.ofNat 16 hi)) s (fun u =>
        u.out.head? = some (.ans r 0x142 hi .ok (d.reg 0x142 hi))))

/-- R85 to R87, R136: disturbances. One node of a configuration bit changes; one node of a flip-flop leaves Q alone; a transient is kept for
the next capture of the flip-flop it feeds where one can come while it lasts, and is harmless elsewhere; one bit of a stored row changes. -/
def Obligations.Disturbances : Prop :=
  ∀ (s : State) (i : Isl) (f : Fin 4608) (b : BitVec 12) (c : Fin 4800) (k : Fin 64) (m : MemIx) (row : Fin 512) (col : Fin 144),
    let d := s.dev
    let x := d.frame i.val f.val
    let key := (i.val * 4800 + c.val) * 64 + k.val
    Gives (.configNodeUpset i f b false) s (d.setFrame i.val f.val { x with badA := x.badA ^^^ BitVec.twoPow 4096 b.toNat })
    ∧ Gives (.configNodeUpset i f b true) s (d.setFrame i.val f.val { x with badB := x.badB ^^^ BitVec.twoPow 4096 b.toNat })
    ∧ (d.ffUpset.contains key = false → Gives (.ffNodeUpset i c k) s { d with ffUpset := d.ffUpset ++ [key] })
    ∧ Gives (.combinationalTransient i c k false) s d
    ∧ (mayCapture d i.val c.val k.val = true → d.transients.contains key = false →
        Gives (.combinationalTransient i c k true) s { d with transients := d.transients ++ [key] })
    ∧ (mayCapture d i.val c.val k.val = false → Gives (.combinationalTransient i c k true) s d)
    ∧ Gives (.blockMemoryUpset i m row col) s
        (d.setRow (i.val * 96 + m.val) row.val (d.row (i.val * 96 + m.val) row.val ^^^ BitVec.twoPow 144 col.val))

/-- R136, R139, R142, R143, R156, R162, R184: the services of a block memory and a slice: the write-back of a corrected half, the patrol,
the debug access with its end, the clearing of the counts, the flush of a ring, and the accumulator. -/
def Obligations.MemoryServices : Prop :=
  ∀ (s : State) (r : Req) (i : Isl) (m : MemIx) (row : Fin 512) (h : Fin 2) (a : SliceIx) (v : Word),
    let d := s.dev
    let k := i.val * 96 + m.val
    let x := d.bram k
    let o := m.val * 0x40
    let hit := row.val * 2 + h.val
    let dec := decodeHalf (halfData (d.row k row.val) h.val) (halfChk (d.row k row.val) h.val)
    let acc := R.ARS_ACC + a.val * 0x40
    (x.writeBack.contains hit = true → dec.2 = 1 → portBClocked d i.val m.val = false →
      Gives (.eccWriteBack i m row h) s
        ((d.setBram k { x with writeBack := x.writeBack.filter (· ≠ hit) }).setRow k row.val
          (setHalf (d.row k row.val) h.val dec.1 (checkByte dec.1))))
    ∧ (x.ecc = true → portBClocked d i.val m.val = false → x.writeBack = [] → x.dbgBusy = false →
      d.fld i.val (R.MEM_PATROL + o) 0 16 ≠ 0 → (decodeRow true (d.row k x.patrolRow)).2 = (0, 0) →
      Gives (.memPatrolRead i m) s (d.setBram k { x with patrolRow := (x.patrolRow + 1) % 512 }))
    ∧ (admits d r i.val (R.MEM_DBG_CTL + o) = true → d.flag i.val (R.MEM_DBG_CTL + o) 12 = true → portBClocked d i.val m.val = false →
        x.outOfService = false → x.writeBack = [] →
      (x.ecc = false → GivesSome (.memDbgRead r i m row) s (fun t =>
        t.reg128 i.val (R.MEM_DBG_DATA + o) = (d.row k row.val).setWidth 128
        ∧ t.reg i.val (R.MEM_DBG_XDATA + o) = ((d.row k row.val).extractLsb' 128 16).setWidth 32
        ∧ t.flag i.val (R.MEM_DBG_CTL + o) 12 = true ∧ t.fld i.val (R.MEM_DBG_CTL + o) 16 4 = 0))
      ∧ (undrained d i.val m.val row.val = false → x.ecc = false → GivesSome (.memDbgWrite r i m row true) s (fun t =>
        t.row k row.val = (d.reg i.val (R.MEM_DBG_XDATA + o)).setWidth 16 ++ d.reg128 i.val (R.MEM_DBG_DATA + o)
        ∧ (∀ q, q ≠ row.val → q < 512 → t.row k q = d.row k q)
        ∧ t.flag i.val (R.MEM_DBG_CTL + o) 12 = true ∧ t.fld i.val (R.MEM_DBG_CTL + o) 16 4 = 0)))
    ∧ (x.dbgBusy = true → GivesSome (.memDbgTimeout i m) s (fun t =>
        t.flag i.val (R.MEM_DBG_CTL + o) 12 = true ∧ t.fld i.val (R.MEM_DBG_CTL + o) 16 4 = Status.timeout.code
        ∧ (t.bram k).dbgBusy = false ∧ OnlyRegs d t [(i.val, R.MEM_DBG_CTL + o)]))
    ∧ (admits d r i.val (R.MEM_STATUS + o) = true → GivesSome (.memClrCounts r i m) s (fun t => t.reg i.val (R.MEM_ECC_COUNT + o) = 0))
    ∧ (admits d r i.val (R.QCT_CTL + o) = true → (d.isl i.val).state = .feathered → GivesSome (.qctFlush r i m) s (fun t =>
        (t.bram k).level = 0 ∧ (t.bram k).rd = 0 ∧ (t.bram k).wr = 0 ∧ (t.bram k).pushes = []))
    ∧ (isPass (writeGate d r i.val acc) = true →
      (midStroke d i.val = true → Gives (.arsAccRead r i a) s { d with stateWait := d.stateWait ++ [(i.val, .cmd r acc none)] })
      ∧ (midStroke d i.val = false → stateServed d i.val = true → strokeMode d i.val = true →
        GivesSome (.arsAccRead r i a) s (fun t =>
          t.out = .ans r i.val acc .ok ((d.slice (i.val * 48 + a.val)).acc.extractLsb' 0 32) :: d.out)
        ∧ ((∀ j ∈ [1, 2, 3], tget d.holdWr 0 (holdKey r i.val (acc + 4 * j)) = 0) →
          GivesSome (.arsAccWrite r i a v) s (fun t => (t.slice (i.val * 48 + a.val)).acc = v.setWidth 128))))

/-! ### Strokes -/

/-- R212, R217, R219, R235, R236, R259: the steps of a stroke of a stroke-mode island with no replay and no region command. At step 1 an
island that has met a bound feathers at its count, one that lacks words stays there, and any other presents the words of its stroke XI ports
in the order they came and starts the settle count (step 2). When that is over, the words that the design drives at its stroke XO ports are
taken (step 4). The settle monitor compares them once more: no change is noted nowhere, the first changed word with its stroke. With credit at
every XO port and room for the rows to be written, the count grows by one (steps 5 and 6). -/
def Obligations.StrokeSteps : Prop :=
  ∀ (s : State) (i : Isl) (xo : List (Nat × Nat × W128)) (p k : Nat),
    let d := s.dev
    let n := i.val
    let x := d.isl n
    let at_ (t : Dev) (ph : Nat) : Prop := (t.isl n).phase = ph ∧ (t.isl n).count = x.count
    strokeMode d n = true → islClocked d n = true → isRunning x.state = true → x.replay = none →
    (x.phase = 1 ∨ x.phase = 4 → x.prBusy = false → x.featheredByStandby = false → d.regions = [] →
      (mayStart d n = false → GivesSome (.strokeBegin i 0 []) s (fun t => (t.isl n).state = .feathered ∧ at_ t 5))
      ∧ (mayStart d n = true → logEn d n = false → xiLacking d n ≠ [] → GivesSome (.strokeBegin i 0 []) s (fun t => at_ t 1))
      ∧ (mayStart d n = true → logEn d n = false → xiLacking d n = [] →
          GivesSome (.strokeBegin i 0 []) s (fun t => at_ t 2 ∧ (t.isl n).monOn = t.flag n R.STK_MON_CTL 0
            ∧ ∀ q ∈ strokeXi d n, (t.xi n q).shown = ((d.xi n q).buf.take (xiCfg d n q).count).map (·.2)
                ∧ (t.xi n q).buf = (d.xi n q).buf.drop (xiCfg d n q).count)))
    ∧ (x.phase = 2 → x.armed = false → GivesSome (.settleDone i xo) s (fun t => at_ t 3
        ∧ ∀ q ∈ enabledXo d n, (xoCfg d n q).free = false → ∀ j < (xoCfg d n q).count, ∀ e,
            xo.find? (fun e => e.1 = q && e.2.1 = j) = some e → (j, e.2.2) ∈ (t.xo n q).last))
    ∧ (x.phase = 3 → x.monOn = true → x.monDone = false →
      (firstDiff d n xo = none → GivesSome (.settleMonitorSample i xo) s (fun t => (t.isl n).monDone = true ∧ t.regs = d.regs ∧ at_ t 3))
      ∧ (firstDiff d n xo = some (p, k) → d.flag n R.STK_EVENTS 3 = false →
          GivesSome (.settleMonitorSample i xo) s (fun t => (t.isl n).monDone = true
            ∧ t.flag n R.STK_EVENTS 3 = true ∧ t.reg n R.STK_MON_PORT = BitVec.ofNat 32 (p + 32 * k + 2 ^ 31)
            ∧ t.reg64 n R.STK_MON_STROKE = x.count ∧ at_ t 3)))
    ∧ (x.phase = 3 → x.monOn = false ∨ x.monDone = true → xoBlocked d n = [] → upWaits x = false →
      (undrainedWrites d n (designClocks d n x.count.toNat)).length ≤ preserveFree d n →
      GivesSome (.strokeCommit i 0) s (fun t => (t.isl n).count = x.count + 1 ∧ (t.isl n).phase = 4 ∧ (t.isl n).state = x.state))

/-- R212, R218, R219, R222: a word that arrives on a neighbour path in its turn joins its port's buffer; a stale one, and one of another
tenant, is discarded, counted and noted; acknowledgements and credits free the sender's account, and at step 4 the words that waited for
credit leave once no port of the island lacks it. -/
def Obligations.NeighbourPaths : Prop :=
  ∀ (s : State) (i src : Isl) (p : Fin 32) (tenant : Fin 16) (epoch : Byte) (tag : BitVec 16) (w : W128) (a c : Fin 81),
    let d := s.dev
    let n := i.val
    let g := xiCfg d n p.val
    let x := d.xi n p.val
    let y := d.xo n p.val
    let full : Bool := x.got + 1 = g.count
    let o := xiOff R.XCH_XI_DISCARDS p.val
    let word : Instr := .neighbourWord i src p tenant epoch tag false w
    (pathOpen d n = true → g.en = true →
      (g.peer = tenant.val → d.epochOf n src.val = epoch.toNat → g.free = false → tag.toNat = x.expect % 65536 → x.got + 1 ≤ g.count →
        GivesSome word s (fun t =>
          t.xi n p.val = { x with buf := x.buf ++ [(x.expect, w)], got := if full then 0 else x.got + 1,
                                  expect := if full then x.expect + 1 else x.expect } ∧ t.regs = d.regs))
      ∧ (g.peer = tenant.val → d.epochOf n src.val ≠ epoch.toNat → GivesSome word s (fun t =>
          t.islands = d.islands ∧ t.fld n o 16 8 = min (d.fld n o 16 8 + 1) 255 ∧ t.flag n R.XCH_EVENTS 1 = true
          ∧ OnlyRegs d t [(n, o), (n, R.XCH_EVENTS)]))
      ∧ (g.peer ≠ tenant.val → GivesSome word s (fun t =>
          t.islands = d.islands ∧ t.fld n o 0 16 = min (d.fld n o 0 16 + 1) 65535 ∧ t.flag n R.XCH_EVENTS 0 = true
          ∧ t.flag n R.XCH_DENIED_PORTS p.val = true)))
    ∧ (pathOpen d n = false → Gives word s d)
    ∧ ((xoCfg d n p.val).en = true → (xoCfg d n p.val).free = false →
        let freed := d.setXo n p.val { y with undel := y.undel - a.val, outst := y.outst - c.val }
        (strokeMode d n = false ∨ (d.isl n).phase ≠ 3 ∨ xoBlocked freed n ≠ [] → Gives (.neighbourAck i p a c) s freed)
        ∧ (strokeMode d n = true → (d.isl n).phase = 3 → xoBlocked freed n = [] → GivesSome (.neighbourAck i p a c) s (fun t =>
            ∀ q ∈ enabledXo d n, (t.xo n q).toSend = [] ∧ (t.xo n q).outst = (freed.xo n q).outst
              ∧ (t.xo n q).undel = (freed.xo n q).undel + (freed.xo n q).toSend.length)))

/-- R234, R274: a wait of the threshold is noted once with the ports that lack words; 65,536 strokes without another close end the open
log block.
R236, R237, R240: feather sets the writer's own bound to the next stroke, resume to all ones, a write of a bound commits it; start runs
a LOADED island of the writer's own at its count, is BAD_STATE elsewhere, and DENIED to another principal.
R238: a region command of one channel whose islands all stand FEATHERED at its N ends: it leaves the list and its channel learns OK
and N. -/
def Obligations.StrokeControl : Prop :=
  (∀ (s : State) (i : Isl),
      let d := s.dev
      let n := i.val
      let x := d.isl n
      let head := d.fld n R.CAT_LOG_HEAD 0 24
      (stalled d n = true → x.phase = 1 → x.waitReported = false → d.fld n R.STK_STALL_CFG 0 16 ≠ 0 → stallFrozen d n = false →
        d.flag n R.STK_EVENTS 2 = false → GivesSome (.stallDetect i) s (fun t =>
          t.flag n R.STK_EVENTS 2 = true ∧ t.flag n R.ISL_SIG_CAUSE 1 = true ∧ (t.isl n).waitReported = true
          ∧ (∀ p < 32, t.flag n R.STK_STALL_IN p = (xiLacking d n).contains p) ∧ t.reg n R.STK_STALL_OUT = 0))
      ∧ (65536 ≤ x.log.sinceClose → logEn d n = true → 1 < d.fld n R.CAT_LOG_SIZE 0 24 → logRoom d n = true →
        overfull x.log = false → GivesSome (.logBlockPeriodicClose i) s (fun t =>
          (t.isl n).log.openRecs = [] ∧ (t.isl n).log.sinceClose = 0
          ∧ (t.isl n).log.staging = x.log.staging ++ (t.isl n).log.staging.drop x.log.staging.length
          ∧ ((t.isl n).log.staging.drop x.log.staging.length).map (fun b => (b.num, b.recs, b.covered, b.bad))
              = [(head, x.log.openRecs, x.count.toNat, none)]
          ∧ t.fld n R.CAT_LOG_HEAD 0 24 = (head + 1) % d.fld n R.CAT_LOG_SIZE 0 24)))
  ∧ (∀ (s : State) (r : Req) (i : Isl) (v : Word),
      let d := s.dev
      let n := i.val
      let x := d.isl n
      let own := if r.tenant = 0 then R.STK_HOLD else R.STK_LIMIT
      let other := if r.tenant = 0 then R.STK_LIMIT else R.STK_HOLD
      let commit (o : Nat) (c : Instr) : Prop :=
        isPass (regGate d r n o) = true → isRunning x.state = true → x.phase = 2 → GivesSome c s (fun t =>
          t.reg64 n o = tget d.holdWr 0 (holdKey r n (o + 4)) ++ v ∧ OnlyRegs d t [(n, o), (n, o + 4)] ∧ t.islands = d.islands
          ∧ t.out.head? = some (.ans r n o .ok 0))
      (admits d r n R.STK_CTL = true →
        (isRunning x.state = true → x.phase = 2 ∨ x.phase = 3 →
          Gives (.stkFeather r i) s ((d.setReg64 n own (x.count + 1)).answer r n R.STK_CTL .ok 0))
        ∧ (x.state = .feathered → x.prBusy = false → strokeMode d n = true → x.featheredByStandby = false → x.drainActive = false →
            x.count < d.reg64 n other → x.count < BitVec.allOnes 64 → GivesSome (.stkResume r i) s (fun t =>
              t.reg64 n own = BitVec.allOnes 64 ∧ (t.isl n).state = .running ∧ (t.isl n).phase = 1 ∧ (t.isl n).count = x.count
              ∧ (t.isl n).atLimit = false ∧ (t.isl n).atHold = false))
        ∧ (r.tenant = d.owner n → x.state = .loaded → strokeMode d n = true → GivesSome (.stkStart r i) s (fun t =>
            (t.isl n).state = .running ∧ (t.isl n).phase = 1 ∧ (t.isl n).count = x.count ∧ t.out.head? = some (.ans r n R.STK_CTL .ok 0)))
        ∧ (r.tenant = d.owner n → x.state ≠ .loaded → Gives (.stkStart r i) s (d.answer r n R.STK_CTL .badState 0))
        ∧ (r.tenant ≠ d.owner n → GivesSome (.stkStart r i) s (fun t =>
            t.islands = d.islands ∧ t.engines = d.engines ∧ t.out.head? = some (.ans r n R.STK_CTL .denied 0))))
      ∧ commit R.STK_LIMIT (.stkLimitWrite r i v) ∧ commit R.STK_HOLD (.stkHoldWrite r i v))
  ∧ (∀ (s : State) (c : RegionCmd) (k : Nat) (n : W64),
      let d := s.dev
      d.regions = [c] → c.crew = false → c.op ≠ .catchAt → c.origin = .channel k → c.n = some n → c.ended = none →
      chanWaits d (k % 65536) (k / 65536) = true → d.finished = [] → d.xtrgWait = [] →
      (∀ i ∈ c.islands, (d.isl i).state = .feathered ∧ strokeMode d i = true ∧ (d.isl i).count = n) →
      Gives .regionComplete s { d with regions := [], out := .complete c.origin .ok n :: d.out, finished := [⟨c.origin, .ok, n⟩] })

/-! ### Power and the whole device -/

/-- R189 to R191, R208: a request is stored and clk_clamped says that it names more than f_close; a limit is stored, never above f_grade
(700, 800 or 900 MHz by the speed grade of the fuses, 700 where they hold none of the three, log entry 30); t_FCHG after a change the island runs at the least of request, limit, f_close and f_grade, halved for each throttle in
force, never below 25 MHz.
R194, R210, R609: a DPLL setting that leaves the DPLL in range is stored, and a change of the feedback takes the lock; one that does not is
answered BAD_STATE and changes nothing; a DPLL that another principal's island has claimed refuses the write; lock, and its loss, are what
locked reads. -/
def Obligations.ClockControl : Prop :=
  (∀ (s : State) (r : Req) (i : Isl) (v : Word),
      let d := s.dev
      let n := i.val
      let x := d.isl n
      let grade := if d.fld 0x141 R.FUS_DEV 0 2 = 2 then 800 else if d.fld 0x141 R.FUS_DEV 0 2 = 3 then 900 else 700
      let base := min (min (d.fld n R.ISL_CLK_REQ 0 12) (d.fld n R.ISL_CLK_LIMIT 0 12)) (min x.setup.fClose grade)
      (admits d r n R.ISL_CLK_REQ = true → Gives (.islClkReqWrite r i v) s
        (((d.setReg n R.ISL_CLK_REQ (v &&& 0xFFF#32)).setIsl n { x with clkClamped := decide (x.setup.fClose < v.toNat % 4096) }).answer r n R.ISL_CLK_REQ .ok 0))
      ∧ (admits d r n R.ISL_CLK_LIMIT = true → Gives (.islClkLimitWrite r i v) s
        ((d.setReg n R.ISL_CLK_LIMIT (BitVec.ofNat 32 (min (v.toNat % 4096) grade))).answer r n R.ISL_CLK_LIMIT .ok 0))
      ∧ (x.throttleOc = false → x.throttleTh = false → Gives (.clockChangeDone i) s (d.setIsl n { x with fEff := max 25 base }))
      ∧ (x.throttleOc ≠ x.throttleTh → Gives (.clockChangeDone i) s (d.setIsl n { x with fEff := max 25 (base / 2) }))
      ∧ (x.throttleOc = true → x.throttleTh = true → Gives (.clockChangeDone i) s (d.setIsl n { x with fEff := max 25 (base / 4) })))
  ∧ (∀ (s : State) (r : Req) (k : Fin 8) (w : Fin 3) (v : Word) (g : Fin 24),
      let d := s.dev
      let o := 0x10 * k.val
      let ctl := R.PWR_DPLL_CTL + o
      let stat := R.PWR_DPLL_STATUS + o
      let off := ctl + 4 * w.val
      let newCtl := if w = 0 then v &&& 0x3F01#32 else d.reg 0x146 ctl
      let newFrac := if w = 1 then v &&& 0xFFFFFF#32 else d.reg 0x146 (ctl + 4)
      let newDiv := if w = 2 then v &&& 0x1FFF1FFF#32 else d.reg 0x146 (ctl + 8)
      let f := 100 * (bitsOf newCtl.toNat 8 6 * 2 ^ 24 + bitsOf newFrac.toNat 0 24)
      let a := bitsOf newDiv.toNat 0 13
      let b := bitsOf newDiv.toNat 16 13
      let inRange : Prop := 2000 * 2 ^ 24 ≤ f ∧ f ≤ 4800 * 2 ^ 24 ∧ 4 ≤ a ∧ a ≤ 4096 ∧ 4 ≤ b ∧ b ≤ 4096
        ∧ a * 2 ^ 24 ≤ f ∧ f ≤ 600 * a * 2 ^ 24 ∧ b * 2 ^ 24 ≤ f ∧ f ≤ 600 * b * 2 ^ 24
      let mine : Prop := ∀ t, dpllClaimant d k.val = some t → t = r.tenant
      (admits d r 0x146 off = true →
        (mine → newCtl.getLsbD 0 = false ∨ inRange → GivesSome (.dpllWrite r k w v) s (fun t =>
          t.reg 0x146 ctl = newCtl ∧ t.reg 0x146 (ctl + 4) = newFrac ∧ t.reg 0x146 (ctl + 8) = newDiv
          ∧ (t.flag 0x146 stat 0 = if w = 2 then d.flag 0x146 stat 0 else false)
          ∧ OnlyRegs d t [(0x146, ctl), (0x146, ctl + 4), (0x146, ctl + 8), (0x146, stat)]
          ∧ t.out = .ans r 0x146 off .ok 0 :: d.out ∧ { t with regs := d.regs, out := d.out } = d))
        ∧ (mine → newCtl.getLsbD 0 = true → ¬inRange → Gives (.dpllWrite r k w v) s (d.answer r 0x146 off .badState 0))
        ∧ (¬mine → GivesSome (.dpllWrite r k w v) s (fun t => t.out.head? = some (.ans r 0x146 off .denied 0)
            ∧ OnlyRegs d t [(0x146, R.NOC_EVENTS)])))
      ∧ (d.flag 0x146 ctl 0 = true → Gives (.dpllLock k) s (d.setReg 0x146 stat (d.reg 0x146 stat ||| 1#32)))
      ∧ (d.flag 0x146 ctl 0 = false → Gives (.dpllLock k) s d)
      ∧ (g.val / 2 = k.val → Gives (.groupClockSourceLost g) s (d.setReg 0x146 stat (d.reg 0x146 stat &&& ~~~1#32)))
      ∧ (16 ≤ g.val → Gives (.groupClockSourceLost g) s d))

/-- R197 to R199, R513: a sleep command puts an island to SLEEP, emulated while its principal is attached; a running island refuses. Gating
loses everything but the ISL and PWR registers, the owner tag and the epoch. Wake undoes an emulated sleep, returns an island that slept
from IDLE to IDLE, and queues any other for the Cox, whose answer then waits; the reload ends LOADED at count 0, or zeroised where the entry
in the cache granule does not verify or has another hash, and whoever waited learns which.
R204, R205: a request starts entry and feathers an island that waits at step 1; once nothing is in progress DRAM goes to
self-refresh, the links go off and dev_state reads Standby; exit returns each slice to the state it left and dev_state to Run.
R200, R551, R611, R644: device reset keeps the battery's content, the fuses and the log, and drives CFG_DONE low or
THERMTRIP_N high; a lost rail loses its quarter or the device; a thermal trip stops every island and drives THERMTRIP_N; a release of the
reset pin with no valid Cox image enters recovery with no load. -/
def Obligations.PowerStates : Prop :=
  (∀ (s : State) (r : Req) (i : Isl),
      let d := s.dev
      let n := i.val
      let x := d.isl n
      let emu := d.flag 0x143 (R.DBG_ATTACHED + 0x20 * d.owner n) 0
      (admits d r n R.ISL_PWR_CMD = true →
        (x.prBusy = false → x.drainActive = false →
          x.state = .idle ∨ (x.state = .loaded ∧ x.cacheValid = true) ∨ (x.state = .feathered ∧ x.cacheValid = true) →
          GivesSome (.sleep r i) s (fun t =>
            t.isl n = { x with state := .sleep, sleptFrom := x.state, sleepEmulated := emu, powerGated := false, waking := false,
                               wireRegs := if emu then x.wireRegs else [] }
            ∧ OnlyRegs d t [(n, R.ISL_SIG_CAUSE)] ∧ t.flag n R.ISL_SIG_CAUSE 0 = true ∧ t.out.head? = some (.ans r n R.ISL_PWR_CMD .ok 0)))
        ∧ (x.state = .running ∨ (x.state = .loaded ∧ x.cacheValid = false) →
            Gives (.sleep r i) s (d.answer r n R.ISL_PWR_CMD .badState 0))
        ∧ (x.state = .sleep → x.waking = false → x.sleepEmulated = true → x.sleptFrom ≠ .sleep → GivesSome (.wake r i) s (fun t =>
            t.isl n = { x with state := x.sleptFrom, sleepEmulated := false } ∧ OnlyRegs d t [(n, R.ISL_SIG_CAUSE)]
            ∧ t.flag n R.ISL_SIG_CAUSE 0 = true))
        ∧ (x.state = .sleep → x.waking = false → x.sleepEmulated = false → x.powerGated = true → x.sleptFrom = .idle →
            GivesSome (.wake r i) s (fun t => (t.isl n).state = .idle ∧ t.owner n = 0 ∧ t.flag n R.ISL_SIG_CAUSE 0 = true))
        ∧ (x.state = .sleep → x.waking = false → x.sleepEmulated = false → x.powerGated = true → x.sleptFrom ≠ .idle → coxState d = 1 →
            Gives (.wake r i) s { d.setIsl n { x with waking := true } with
              wakeQueue := d.wakeQueue ++ [n], wakeWait := d.wakeWait ++ [(n, .cmd r R.ISL_PWR_CMD (some 2))] }))
      ∧ (x.state = .sleep → x.sleepEmulated = false → x.powerGated = false → d.noc.outst = [] → d.noc.inject = [] →
          GivesSome (.sleepGated i) s (fun t =>
            (t.isl n).state = .sleep ∧ (t.isl n).powerGated = true ∧ (t.isl n).count = 0 ∧ (∀ c < 4800, t.ff n c = 0)
            ∧ (∀ m < 96, ∀ k < 512, t.row (96 * n + m) k = 0) ∧ t.owner n = d.owner n ∧ t.epoch n = d.epoch n
            ∧ (∀ o < 0x1000, t.reg n o = d.reg n o) ∧ ∀ o, 0x1000 ≤ o → o < 0x9000 → t.reg n o = regReset n o))
      ∧ (x.state = .sleep → x.waking = true → d.load = none → d.wakeQueue.head? = some n →
          let told (t : Dev) (st : Status) : Prop := ∀ q off v, (n, .cmd q off v) ∈ d.wakeWait → .ans q n off st 0 ∈ t.out
          (∀ l, cacheEntry d n = some l → cacheHash l = x.hash → GivesSome (.wakeReloadDone i true) s (fun t =>
            (t.isl n).state = .loaded ∧ (t.isl n).count = 0 ∧ (t.isl n).hash = x.hash ∧ (t.isl n).cacheValid = true ∧ told t .ok))
          ∧ (∀ ok, ok = false ∨ (∀ l, cacheEntry d n = some l → cacheHash l ≠ x.hash) → GivesSome (.wakeReloadDone i ok) s (fun t =>
            (t.isl n).state = .idle ∧ t.owner n = 0 ∧ t.flag 0x141 R.COX_EVENTS 5 = true ∧ told t .authFail))))
  ∧ (∀ (s : State) (i : Isl) (x : Island),
      let d := s.dev
      (fnD0 d 0 = false → d.flag 0x146 R.PWR_DEV_CTL 1 = true → inStandby d = false → d.standbyEntering = false → d.load = none →
        d.regions = [] → d.islands = [(i.val, x)] → x.state = .running → x.phase = 1 → x.setup.groupId = 0 →
        GivesSome (.standbyRequest none 0) s (fun t => t.standbyEntering = true ∧ t.standbyEmulated = d.flag 0x143 R.DBG_ATTACHED 0
          ∧ (t.isl i.val).state = .feathered ∧ (t.isl i.val).featheredByStandby = true ∧ (t.isl i.val).count = x.count))
      ∧ (d.standbyEntering = true → d.standbyEmulated = false → d.load = none → d.regions = [] → d.islands = [] → d.noc.outst = [] →
          d.noc.inject = [] → (∀ e ∈ d.links, linkState d e.1 ≠ 2) →
          GivesSome .standbyEntered s (fun t => t.standbyEntering = false ∧ t.fld 0x146 R.PWR_DEV_STATE 0 2 = 1
            ∧ (∀ n < 32, linkState t n = 0)
            ∧ ∀ n < 8, t.dram n = if (d.dram n).state = 2 ∨ (d.dram n).state = 3 then { d.dram n with state := 4, before := (d.dram n).state }
                else d.dram n))
      ∧ (fnD0 d 0 = true → inStandby d = true → d.islands = [] →
          GivesSome (.standbyExit none 0) s (fun t => t.standbyEntering = false ∧ t.standbyEmulated = false
            ∧ t.fld 0x146 R.PWR_DEV_STATE 0 2 = 0
            ∧ ∀ n < 8, t.dram n = if d.standbyEmulated = false ∧ (d.dram n).state = 4 then { d.dram n with state := (d.dram n).before }
                else d.dram n)))
  ∧ (∀ (s : State) (r : Fin 6) (u : StartUp),
      let d := s.dev
      let kept (t : Dev) : Prop := t.battery = d.battery ∧ t.tenants = d.tenants ∧ t.fuseKey = d.fuseKey
        ∧ t.evlog.first = d.evlog.first ∧ t.evlog.circ = d.evlog.circ ∧ t.evlog.next = d.evlog.next
        ∧ t.islands = [] ∧ t.engines = [] ∧ t.load = none ∧ t.catches = [] ∧ t.noc = {} ∧ coxState t = 0
        ∧ (∀ o, 0x1000 ≤ o → o < 0x1124 → t.reg 0x141 o = d.reg 0x141 o)
        ∧ ∀ n off, off < 0x10000 → n ≠ 0x141 →
            t.reg n off = if n = 0x145 ∧ off < 0xF000 then d.reg n off else regReset n off
      GivesSome .powerOnResetAssert s (fun t => kept t ∧ t.thermTrip = d.thermTrip ∧ t.out.head? = some (.pin 1 false))
      ∧ GivesSome .vccAuxLoss s (fun t => kept t ∧ t.thermTrip = false ∧ t.out.head? = some (.pin 3 true))
      ∧ (r.val < 4 → r.val ∉ d.lostQuarters → Gives (.railLoss r) s { d with lostQuarters := d.lostQuarters ++ [r.val] })
      ∧ (r.val = 4 → Gives (.railLoss r) s { d.resetRegs 0x145 0 0xF000 with lost := true, evlog := {} })
      ∧ (r.val = 5 → Gives (.railLoss r) s { d with lost := true })
      ∧ (d.thermTrip = false → d.catches = [] → d.load = none → GivesSome .thermalTrip s (fun t => t.thermTrip = true
          ∧ t.flag 0x146 R.PWR_ALARM 9 = true ∧ (∀ i : Isl, t.flag i.val R.ISL_SIG_CAUSE 6 = true ∧ islClocked t i.val = false)
          ∧ t.islands = d.islands ∧ .pin 3 false ∈ t.out))
      ∧ (coxState d = 0 → u.imageOk = false → d.evlog.copyPending = none → GivesSome (.powerOnResetRelease u) s (fun t =>
          coxState t = 2 ∧ t.load = d.load ∧ t.fld 0x142 R.CFG_STATUS 6 3 = u.mode.toNat ∧ t.devId = u.crew.toNat ∧ t.lost = false
          ∧ t.lostQuarters = [] ∧ t.engines = d.engines ∧ t.islands = d.islands))
      ∧ (coxState d ≠ 0 → Gives (.powerOnResetRelease u) s d))

/-- R200, R201, R209, R210, R643: an overcurrent throttles every island of its quarter, and no other, unless the limit gives no protection; a
hot sensor throttles the four islands it serves; each sets its alarm and the islands' source 6; release lifts the throttle. A supply out of
range clears its bank's ok bit, and is an event where a loaded island uses the bank and the supply was in range. A sample stores each rail's
and each sensor's reading, and each island's current, its power at its quarter's voltage, and the temperature of its sensor. -/
def Obligations.SensingAndProtection : Prop :=
  ∀ (s : State) (q : Fin 4) (n : Fin 64) (b : Fin 30) (mv : BitVec 12) (rails : List (Nat × Nat × Nat)) (temps currents : List (Nat × Nat)),
    let d := s.dev
    let served (i : Isl) : Prop := i.val % 16 / 2 = n.val % 8 ∧ i.val / 32 = n.val / 8
    let st := R.IO_BANK_STATUS + 0x10 * b.val
    let current (i : Nat) : Nat := ((currents.find? (fun e => e.1 = i)).map (·.2)).getD (d.fld i R.PWR_ISL_CURRENT 0 16)
    (d.fld 0x146 (R.PWR_EMERG_CFG + 4 * q.val) 0 16 < 6000 → GivesSome (.quarterOvercurrent q) s (fun t =>
      t.flag 0x146 R.PWR_ALARM (2 + q.val) = true
      ∧ ∀ i : Isl, (quarterOf i.val = q.val → t.isl i.val = { d.isl i.val with throttleOc := true } ∧ t.flag i.val R.ISL_SIG_CAUSE 6 = true)
        ∧ (quarterOf i.val ≠ q.val → t.isl i.val = d.isl i.val)))
    ∧ (6000 ≤ d.fld 0x146 (R.PWR_EMERG_CFG + 4 * q.val) 0 16 → Gives (.quarterOvercurrent q) s d)
    ∧ GivesSome (.overcurrentRelease q) s (fun t => { t with islands := d.islands } = d
      ∧ ∀ i : Isl, t.isl i.val = if quarterOf i.val = q.val then { d.isl i.val with throttleOc := false } else d.isl i.val)
    ∧ GivesSome (.thermalThrottle n) s (fun t => t.flag 0x146 R.PWR_ALARM 7 = true ∧ t.flag 0x146 R.PWR_THERM_STATUS 25 = true
      ∧ ∀ i : Isl, (served i → t.isl i.val = { d.isl i.val with throttleTh := true } ∧ t.flag i.val R.ISL_SIG_CAUSE 6 = true)
        ∧ (¬served i → t.isl i.val = d.isl i.val))
    ∧ GivesSome (.thermalThrottleRelease n) s (fun t => OnlyRegs d t [(0x146, R.PWR_THERM_STATUS)]
      ∧ ∀ i : Isl, (served i → t.isl i.val = { d.isl i.val with throttleTh := false }) ∧ (¬served i → t.isl i.val = d.isl i.val))
    ∧ (vccioOk b.val mv.toNat = false → GivesSome (.vccioOutOfRange b mv) s (fun t =>
        t.flag 0x142 st 12 = false ∧ t.fld 0x142 st 0 12 = mv.toNat ∧ OnlyRegs d t [(0x142, st), (0x142, R.IO_EVENTS)]
        ∧ (d.flag 0x142 st 12 = true → (bankUser d b.val).isSome = true → t.flag 0x142 R.IO_EVENTS b.val = true)
        ∧ (d.flag 0x142 st 12 = false ∨ bankUser d b.val = none → t.reg 0x142 R.IO_EVENTS = d.reg 0x142 R.IO_EVENTS)))
    ∧ (vccioOk b.val mv.toNat = true → Gives (.vccioOutOfRange b mv) s d)
    ∧ GivesSome (.powerSample rails temps currents) s (fun t =>
        (∀ k < 11, ∀ cur volt, rails.reverse.find? (fun e => e.1 = k) = some (k, cur, volt) →
          t.fld 0x146 (R.PWR_RAIL + 4 * k) 0 16 = min cur 65535 ∧ t.fld 0x146 (R.PWR_RAIL + 4 * k) 16 12 = min volt 4095)
        ∧ (∀ k < 64, ∀ temp, temps.reverse.find? (fun e => e.1 = k) = some (k, temp) → t.fld 0x146 (R.PWR_TS + 4 * k) 0 16 = temp % 65536)
        ∧ ∀ i : Isl, t.fld i.val R.PWR_ISL_CURRENT 0 16 = min (current i.val) 65535
          ∧ t.reg i.val R.PWR_ISL_POWER = BitVec.ofNat 32
              (min (current i.val * t.fld 0x146 (R.PWR_RAIL + 4 * quarterOf i.val) 16 12 / 1000) 65535)
          ∧ t.fld i.val R.PWR_ISL_TEMP 0 16 = t.fld 0x146 (R.PWR_TS + 4 * (i.val / 32 * 8 + i.val % 16 / 2)) 0 16)

/-! ### Catch, restore and the input log -/

/-- R253 to R260, R264, R278: once the region of a catch is quiet at N, each island copies itself to its shadow nodes with the next catch_id
of its owner, and the image's provisional header and directory wait to be written at its place; resume returns the bound it held and the
island goes on CATCHING; when the last row is drained the sealed section waits to be written and the island leaves CATCHING; the answer to the
last write of the final header completes the catch OK with N, and a destination's error ends it with that status; a stroke held for the
preserve buffer commits once there is room.
R269 to R271: a restore whose sections verify leaves its island FEATHERED at the image's stroke with the image's flip-flops, the
issuer's bound there; one that does not verify leaves it FEATHERED at stroke 0 and ends AUTH_FAIL. -/
def Obligations.CatchesAndRestores : Prop :=
  (∀ (s : State) (i : Isl) (c : CatchCmd) (g : RegionCmd) (b rnd : W64) (k addr cid lat : Nat) (h : Shadow) (ent : ImgEnt) (p : Pkt)
        (o : Outst),
      let d := s.dev
      let n := i.val
      let x := d.isl n
      let other := if c.tenant = 0 then R.STK_LIMIT else R.STK_HOLD
      let own := if c.tenant = 0 then R.STK_HOLD else R.STK_LIMIT
      (d.catches = [c] → c.restore = false → c.crew = false → c.islands = [n] → c.origin = .channel k →
        (c.copied = false → quiet d n = true → catchRegion d c = some g → regionDone d g = true → g.ended = none → logEn d n = false →
          GivesSome (.catchShadowCopy 0) s (fun t =>
            (∃ w, (t.isl n).shadow = some w ∧ w.sec.n = x.count ∧ w.sec.hash = x.hash ∧ (∀ q < 4800, tget w.sec.ffs 0 q = d.ff n q)
              ∧ w.catchId = (tget d.catchIds 0 (d.owner n) + 1) % 2 ^ 32 ∧ tget t.catchIds 0 (d.owner n) = w.catchId)
            ∧ (t.isl n).drainActive = true ∧ (t.isl n).count = x.count ∧ t.ffs = d.ffs ∧ t.regs = d.regs
            ∧ ∃ z m, t.catches = [z] ∧ z.copied = true ∧ z.images = [m] ∧ m.tenant = d.owner n ∧ m.addr = roundUp c.base 4096
              ∧ m.id = tget t.catchIds 0 (d.owner n) ∧ m.ents.map (·.isl) = [n]
              ∧ t.sealQ = (writeHead { t with sealQ := d.sealQ } z m false).sealQ))
        ∧ (c.copied = true → c.resumed = false → c.stay = false → c.ended = [] → catchRegion d c = some g → g.saved = [(n, b)] →
            strokeMode d n = true → x.state = .feathered → x.prBusy = false → x.featheredByStandby = false → x.drainActive = true →
            x.count < b → x.count < d.reg64 n other →
            GivesSome (.catchResume 0) s (fun t => (t.isl n).state = .catching ∧ (t.isl n).count = x.count ∧ (t.isl n).phase = 1
              ∧ t.reg64 n own = b ∧ t.catches = [{ c with resumed := true }]))
        ∧ (c.copied = true → c.resumed = true → c.ended = [] → x.shadow = some h → x.state = .catching →
            strokeMode d n = true → c.images = [⟨d.owner n, addr, cid, rnd, [ent]⟩] → ent.isl = n → drained d n = true →
            GivesSome (.drainDone i .ok) s (fun t =>
              (t.isl n).shadow = none ∧ (t.isl n).drainActive = false ∧ (t.isl n).state = .running ∧ (t.isl n).count = x.count
              ∧ t.catches = [{ c with ended := [n], images := [⟨d.owner n, addr, cid, rnd, [{ ent with drained := true, ue := !h.sec.ue.isEmpty }]⟩] }]
              ∧ t.sealQ = (sealWrite d (quarterOf n) (d.owner n) c.tenant (addr + ent.off)
                  (sealUnits (sealKey d (quarterOf n) (d.owner n)) (imgIv rnd 1) (sectionPlain h.sec)) true (.image c.origin [n])).sealQ))
        ∧ (c.copied = true → c.resumed = true → c.bad = none → x.drainActive = false → chanWaits d (k % 65536) (k / 65536) = true →
            isRsp p.cmd = true → Arrives d p p.cmd → 0x160 ≤ p.dest → p.dest < 0x164 → outstOf d p = some o → d.sealQ = [] →
            d.sealOut = [(p.dest, p.tag, .image c.origin [n])] →
            (p.cmd = 0x30 → c.final = true → c.ended = [n] → c.images = [⟨d.owner n, addr, cid, rnd, [ent]⟩] → ent.isl = n →
              GivesSome (.rsp p lat) s (fun t => t.catches = [] ∧ t.sealOut = []
                ∧ t.reg64 n R.CAT_LAST_STROKE = c.n ∧ t.reg n R.CAT_LAST_ID = BitVec.ofNat 32 cid ∧ t.flag n R.CAT_EVENTS 0 = true
                ∧ t.finished = d.finished ++ [⟨c.origin, .ok, c.n⟩]))
            ∧ (p.cmd ≠ 0x30 → GivesSome (.rsp p lat) s (fun t => (t.isl n).shadow = none ∧ t.catches = []
                ∧ t.flag p.dest R.CAT_SEAL_ERR 1 = true ∧ t.finished = d.finished ++ [⟨c.origin, statusOf (p.cmd - 0x30), 0⟩]))))
      ∧ (x.preserveHold = true → strokeMode d n = true → islClocked d n = true → isRunning x.state = true → x.phase = 3 →
          x.monOn = false ∨ x.monDone = true → xoBlocked d n = [] → upWaits x = false →
          (undrainedWrites d n (designClocks d n x.count.toNat)).length ≤ preserveFree d n →
          GivesSome (.preserveHoldEnd i 0) s (fun t => (t.isl n).count = x.count + 1 ∧ (t.isl n).phase = 4 ∧ (t.isl n).state = x.state)))
  ∧ (∀ (s : State) (i : Isl) (c : CatchCmd) (m : CatchImage) (sec : ImgSection) (k : Nat) (q : Fin 4800) (w : W64),
      let d := s.dev
      let n := i.val
      let own := if c.tenant = 0 then R.STK_HOLD else R.STK_LIMIT
      d.catches = [c] → c.restore = true → c.image = some m → c.islands = [n] → m.sections = [sec] → d.regions = [] →
      c.origin = .channel k → chanWaits d (k % 65536) (k / 65536) = true → (d.isl n).state = .restoring → sealBusy d c.use = false → c.bad = none →
      (sec.tagOk = true → sec.ffs = [(q.val, w)] → GivesSome (.restoreDone 0) s (fun t =>
        (t.isl n).state = .feathered ∧ (t.isl n).count = sec.n ∧ (t.isl n).phase = 5 ∧ t.reg64 n own = sec.n
        ∧ t.reg64 n R.CAT_LAST_STROKE = sec.n ∧ (∀ j < 4800, t.ff n j = if j = q.val then w else 0) ∧ t.catches = []
        ∧ t.finished = d.finished ++ [⟨c.origin, .ok, m.n⟩]))
      ∧ (sec.tagOk = false → GivesSome (.restoreDone 0) s (fun t =>
          (t.isl n).state = .feathered ∧ (t.isl n).count = 0 ∧ t.reg64 n own = 0 ∧ t.flag (0x160 + quarterOf n) R.CAT_SEAL_ERR 0 = true
          ∧ t.catches = [] ∧ t.finished = d.finished ++ [⟨c.origin, .authFail, 0⟩])))

/-- R272 to R277, R279: once its writes have been answered, a written block leaves its staging buffer; a failed one is held and written again
where hold_on_error is set, else logging stops; CAT_LOG_CTL and CAT_LOG_TAIL take effect as written, enabling only LOADED or FEATHERED with
two blocks or more; the block that a replay reads continues the sequence, and one that failed or does not verify stops the replay. -/
def Obligations.InputLog : Prop :=
  ∀ (s : State) (r : Req) (i : Isl) (v : Word) (b : LogBlk) (rest : List LogBlk) (e st : Status) (rp : Replay) (q : Nat) (blk : LogBlock)
      (rec : LogRec),
    let d := s.dev
    let n := i.val
    let x := d.isl n
    let l := x.log
    let size := d.fld n R.CAT_LOG_SIZE 0 24
    let still : Prop := x.state = .loaded ∨ x.state = .feathered
    let idle : Prop := l.closeDue = none ∧ overfull l = false
    (sealBusy d (.log n b.num) = false →
      (l.failed = none → l.staging = b :: rest →
        (b.bad = none → idle → Gives (.logBlockWriteDone i .ok) s (d.setIsl n { x with log := { l with staging := rest } }))
        ∧ (b.bad.getD .ok ≠ st → Gives (.logBlockWriteDone i st) s d)
        ∧ (b.bad = some e → d.flag n R.CAT_LOG_CTL 3 = true → Gives (.logBlockWriteDone i e) s
            (d.setIsl n { x with logHold := true, log := { l with staging := rest, failed := some b, failedSt := e } }))
        ∧ (b.bad = some e → d.flag n R.CAT_LOG_CTL 3 = false → GivesSome (.logBlockWriteDone i e) s (fun t =>
            logEn t n = false ∧ (t.isl n).log.openRecs = [] ∧ (t.isl n).log.staging = [] ∧ t.flag n R.CAT_EVENTS 9 = true
            ∧ t.flag n R.ISL_SIG_CAUSE 2 = true)))
      ∧ (l.failed = some b →
          (b.bad = none → idle → Gives (.logBlockWriteDone i .ok) s (d.setIsl n { x with logHold := false, log := { l with failed := none } }))
          ∧ Gives (.logRetry i) s (sealWrite (d.setIsl n { x with log := { l with failed := some { b with bad := none } } }) (quarterOf n)
              (d.owner n) (d.owner n) ((d.reg64 n R.CAT_LOG_BASE).toNat + b.num * 4096) b.units true (.log n b.num))))
    ∧ (admits d r n R.CAT_LOG_CTL = true → l.failed = none →
        (still → logEn d n = false → 1 < size → Gives (.logEnable r i v) s
          ((d.setReg n R.CAT_LOG_CTL ((v &&& 0xA#32) ||| 1#32)).answer r n R.CAT_LOG_CTL .ok 0))
        ∧ (¬still ∨ size ≤ 1 → Gives (.logEnable r i v) s (d.answer r n R.CAT_LOG_CTL .badState 0))
        ∧ (still → l.openRecs = [] → Gives (.logDisable r i v) s ((d.setReg n R.CAT_LOG_CTL (v &&& 0xA#32)).answer r n R.CAT_LOG_CTL .ok 0))
        ∧ (still → logEn d n = true → v.getLsbD 0 = true → 1 < size → l.openRecs ≠ [] → logRoom d n = true → overfull l = false →
            GivesSome (.logClose r i v) s (fun t => (t.isl n).log.openRecs = []
            ∧ (t.isl n).log.staging.map (fun b => (b.num, b.recs, b.covered, b.bad)) = l.staging.map (fun b => (b.num, b.recs, b.covered, b.bad))
                ++ [(d.fld n R.CAT_LOG_HEAD 0 24, l.openRecs, x.count.toNat, none)]
            ∧ t.reg n R.CAT_LOG_CTL = v &&& 0xB#32)))
    ∧ (admits d r n R.CAT_LOG_TAIL = true → idle → GivesSome (.logTailWrite r i v) s (fun t =>
        t.reg n R.CAT_LOG_TAIL = v &&& 0xFFFFFF#32 ∧ OnlyRegs d t [(n, R.CAT_LOG_TAIL)] ∧ (logBlocked t n = false → (t.isl n).logHold = false)
        ∧ (t.isl n).log = l))
    ∧ (x.replay = some rp → rp.reading = true → sealBusy d (.replay n) = false → 1 < size →
        (rp.nextSeq = some q → rp.readBad = none → blk.tagOk = true → blk.island = rp.srcIsland → blk.device = rp.srcDevice →
          blk.num = rp.nextBlk → blk.recs = [rec] → rec.seq = q →
          Gives (.logBlockReadDone i .ok blk) s (d.setIsl n { x with replay := some { rp with
            reading := false, recs := rp.recs ++ [rec], covered := blk.covered + 1, nextSeq := some ((q + 1) % 2 ^ 32), nextBlk := (rp.nextBlk + 1) % size } }))
        ∧ (rp.readBad.getD .ok ≠ st → Gives (.logBlockReadDone i st blk) s d)
        ∧ (rp.readBad ≠ none ∨ blk.tagOk = false → x.state = .feathered → GivesSome (.logBlockReadDone i (rp.readBad.getD .ok) blk) s (fun t =>
            t.flag n R.CAT_EVENTS 4 = true ∧ t.flag n R.ISL_SIG_CAUSE 2 = true
            ∧ t.isl n = { x with atLimit := true, replay := some { rp with reading := false } }
            ∧ t.reg64 n R.STK_LIMIT = if x.count < d.reg64 n R.STK_LIMIT then x.count else d.reg64 n R.STK_LIMIT)))

/-! ### Signals and the event log -/

/-- R586 to R589: an idle, enabled, asserted source becomes pending for its target, in directed mode the one its class names; with none
it stays idle; a pending source whose condition falls is withdrawn; a claim takes a pending source for its own target and answers it, or
0xFFF; done returns a held source to idle.
R585, R586, R590: the mode and the settings of groups, members and sources are stored as written with nothing pending; a member, a
group principal or a source's group that crosses principals is answered BAD_STATE and sets cfg_refused. -/
def Obligations.Signals : Prop :=
  (∀ (s : State) (r : Req) (k : Fin 4095) (j : Fin 530) (v : Word) (g : Nat),
      let d := s.dev
      let n := k.val
      let res := R.SIG_CLAIM_RESULT + 0x40 * j.val
      let mine : Prop := (j.val ≠ 528 ∨ r.node = 0x141) ∧ v.toNat % 4096 = n
      ((d.sig n).st = 0 → sigEn d n = true → sigAsserted d n = true →
        (sigDirected d = true → directTarget d n = j.val → tgtEnabled d j.val = true → j.val ≠ 529 →
          Gives (.signalDeliver k) s (d.setSig n { st := 1, tgt := j.val }))
        ∧ (sigDirected d = true → tgtEnabled d (directTarget d n) = false → Gives (.signalDeliver k) s d)
        ∧ (sigDirected d = false → sigGroup d n = g → grpEnabled d g = true → grpNext d g = some j.val → j.val ≠ 529 →
            Gives (.signalDeliver k) s { d.setSig n { st := 1, tgt := j.val } with grpLast := tput d.grpLast 0 g (j.val + 1) })
        ∧ (sigDirected d = false → grpEnabled d (sigGroup d n) = false → d.flag 0x144 R.SIG_EVENTS 0 = false →
            GivesSome (.signalDeliver k) s (fun t => t.sigs = d.sigs ∧ t.flag 0x144 R.SIG_EVENTS 0 = true
              ∧ OnlyRegs d t [(0x144, R.SIG_EVENTS)])))
      ∧ ((d.sig n).st ≠ 0 ∨ sigEn d n = false ∨ sigAsserted d n = false → Gives (.signalDeliver k) s d)
      ∧ ((d.sig n).st = 1 → sigAsserted d n = false → Gives (.signalWithdraw k) s (d.setSig n {}))
      ∧ ((d.sig n).st ≠ 1 → Gives (.signalWithdraw k) s d)
      ∧ (admits d r 0x144 (R.SIG_CLAIM + 0x40 * j.val) = true → mine →
          ((d.sig n).st = 1 → (d.sig n).tgt = j.val → Gives (.sigClaim r j v) s
            (((d.setSig n { st := 2, tgt := j.val }).setReg 0x144 res (BitVec.ofNat 32 n)).answer r 0x144 (R.SIG_CLAIM + 0x40 * j.val) .ok 0))
          ∧ ((d.sig n).st ≠ 1 ∨ (d.sig n).tgt ≠ j.val → Gives (.sigClaim r j v) s
              ((d.setReg 0x144 res 0xFFF#32).answer r 0x144 (R.SIG_CLAIM + 0x40 * j.val) .ok 0)))
      ∧ (admits d r 0x144 (R.SIG_DONE + 0x40 * j.val) = true → mine →
          ((d.sig n).st = 2 → (d.sig n).tgt = j.val → sigEn d n = false → Gives (.sigDone r j v) s
            ((d.setSig n {}).answer r 0x144 (R.SIG_DONE + 0x40 * j.val) .ok 0))
          ∧ ((d.sig n).st ≠ 2 ∨ (d.sig n).tgt ≠ j.val → GivesSome (.sigDone r j v) s (fun t =>
              t.sigs = d.sigs ∧ t.flag 0x144 (R.SIG_TGT_STATUS + 0x40 * j.val) 30 = true
              ∧ OnlyRegs d t [(0x144, R.SIG_TGT_STATUS + 0x40 * j.val)]))))
  ∧ (∀ (s : State) (r : Req) (k : Fin 4095) (j : Fin 530) (g : Fin 64) (v : Word),
      let d := s.dev
      let held := tget d.holdWr 0 (holdKey r 0x144 (R.SIG_TGT_GRP + 8 * j.val + 4))
      let groups : BitVec 64 := held ++ v
      let allowed (q : Nat) : Prop := q = srcPrin d k.val ∨ q = 0
      let refused (c : Instr) (o : Nat) : Prop := GivesSome c s (fun t => t.flag 0x144 R.SIG_EVENTS 1 = true ∧ t.sigs = d.sigs
        ∧ OnlyRegs d t [(0x144, R.SIG_EVENTS)] ∧ t.out.head? = some (.ans r 0x144 o .badState 0))
      (∀ e ∈ d.sigs, e.2.st ≠ 1) →
      (admits d r 0x144 R.SIG_MODE = true →
        Gives (.sigModeWrite r v) s ((d.setReg 0x144 R.SIG_MODE (v &&& 1#32)).answer r 0x144 R.SIG_MODE .ok 0))
      ∧ (isPass (regGate d r 0x144 (R.SIG_TGT_GRP + 8 * j.val)) = true →
          ((∀ q < 64, groups.getLsbD q = true → grpPrin d q = tgtPrin d j.val) → GivesSome (.sigTgtGrpWrite r j v) s (fun t =>
            t.reg64 0x144 (R.SIG_TGT_GRP + 8 * j.val) = groups ∧ t.sigs = d.sigs
            ∧ t.out.head? = some (.ans r 0x144 (R.SIG_TGT_GRP + 8 * j.val) .ok 0)))
          ∧ ((∃ q < 64, groups.getLsbD q = true ∧ grpPrin d q ≠ tgtPrin d j.val) →
              refused (.sigTgtGrpWrite r j v) (R.SIG_TGT_GRP + 8 * j.val)))
      ∧ (admits d r 0x144 (R.SIG_SRC_CFG + 4 * k.val) = true →
          let ok : Prop := allowed (grpPrin d (v.toNat % 64)) ∧ allowed (tgtPrin d (v.toNat / 64 % 1024))
          ((d.sig k.val).st ≠ 1 → ok → Gives (.sigSrcCfgWrite r k v) s
            ((d.setReg 0x144 (R.SIG_SRC_CFG + 4 * k.val) (v &&& 0x1FFFF#32)).answer r 0x144 (R.SIG_SRC_CFG + 4 * k.val) .ok 0))
          ∧ (¬ok → refused (.sigSrcCfgWrite r k v) (R.SIG_SRC_CFG + 4 * k.val)))
      ∧ (admits d r 0x144 (R.SIG_GRP_CFG + 8 * g.val) = true →
          (v.toNat % 16 = grpPrin d g.val ∨ grpUsed d g.val = false → Gives (.sigGrpCfgWrite r g v) s
            ((d.setReg 0x144 (R.SIG_GRP_CFG + 8 * g.val) (v &&& 0x8000000F#32)).answer r 0x144 (R.SIG_GRP_CFG + 8 * g.val) .ok 0))
          ∧ (v.toNat % 16 ≠ grpPrin d g.val → grpUsed d g.val = true → refused (.sigGrpCfgWrite r g v) (R.SIG_GRP_CFG + 8 * g.val))))

/-- R597 to R603: a record within its budget takes the next slot of the first-kept area, then of the circulating area, then the place of
that area's oldest, with the next seq; one beyond its budget is counted and not stored; the end of a flash copy is noted, and waits
while a load reads the flash; an engine's
record is stored with a class of 12 or above only; a window's end reports what was suppressed and starts budgets afresh; clear empties both
areas but for its own record. -/
def Obligations.EventLog : Prop :=
  ∀ (s : State) (r : Req) (e : Ev) (v q : Word) (o : LogSlot) (rest : List LogSlot) (ok : Bool) (k : Nat) (n : Nat),
    let d := s.dev
    let l := d.evlog
    let key := (budgetOf d e).1
    let used : Tab Nat := tput l.used 0 key (tget l.used 0 key + 1)
    let within : Prop := (budgetOf d e).2 = 255 ∨ tget l.used 0 key < (budgetOf d e).2
    let own (code sev : Nat) (p0 p1 p2 : Word) (tag : Nat) : Ev := ⟨0x145, 0, code, sev, p0, p1, p2, 0, tag, d.dtime⟩
    (e.sev ≠ 5 → e.node ≠ 0x145 →
      (within → l.first.length < 255 → Gives (.eventRecord e) s
        { d with evlog := { l with used := used, first := l.first ++ [⟨l.next, e⟩], next := l.next + 1 } })
      ∧ (within → 256 ≤ l.first.length → l.circ.length < 1792 → Gives (.eventRecord e) s
          { d with evlog := { l with used := used, circ := l.circ ++ [⟨l.next, e⟩], next := l.next + 1 } })
      ∧ (within → 256 ≤ l.first.length → l.circ = o :: rest → 1792 ≤ l.circ.length → l.copying = none → d.flag 0x145 R.LOG_EVENTS 1 = true →
          Gives (.eventRecord e) s { d with evlog := { l with used := used, circ := rest ++ [⟨l.next, e⟩], next := l.next + 1 } })
      ∧ (¬within → d.flag 0x145 R.LOG_EVENTS 2 = true → Gives (.eventRecord e) s
          { d with evlog := { l with suppressed := tput l.suppressed 0 key (tget l.suppressed 0 key + 1) } }))
    ∧ (flashLoading d = true → Gives (.flashCopyDone ok) s d)
    ∧ (flashLoading d = false → l.copying = some q → l.copyLost = 0 → GivesSome (.flashCopyDone ok) s (fun t =>
        t.evlog = { l with copying := l.copyNext, copyNext := none } ∧ t.reg 0x145 R.LOG_FLASH_SEQ = q
        ∧ t.flag 0x145 R.LOG_EVENTS (if ok then 3 else 4) = true ∧ OnlyRegs d t [(0x145, R.LOG_FLASH_SEQ), (0x145, R.LOG_EVENTS)]))
    ∧ (isPass (regGate d r 0x145 R.LOG_WR) = true →
        (0xC000 ≤ v.toNat % 65536 → v.toNat / 65536 % 16 < 5 → r.tenant = e.tag → e.tag < 16 → e.node = r.node % 1024 → r.node < 256 → e.sub = r.unit % 4 →
          e.code = v.toNat % 65536 → e.sev = v.toNat / 65536 % 16 → e.time = d.dtime → within → l.first.length < 255 →
          (∀ j < 4, tget d.holdWr 0 (holdKey r 0x145 (R.LOG_WR + 16 + 4 * j)) = [e.p0, e.p1, e.p2, e.p3].getD j 0) →
          GivesSome (.logWr r v) s (fun t => t.evlog = { l with used := used, first := l.first ++ [⟨l.next, e⟩], next := l.next + 1 }
            ∧ t.regs = d.regs ∧ t.out.head? = some (.ans r 0x145 R.LOG_WR .ok 0)))
        ∧ (v.toNat % 65536 < 0xC000 → GivesSome (.logWr r v) s (fun t => t.evlog = l ∧ t.flag 0x145 R.LOG_EVENTS 5 = true)))
    ∧ (l.suppressed = [] → GivesSome .logWindowEnd s (fun t =>
        t.evlog = { l with used := [], rates := t.evlog.rates } ∧ (∀ j < 512, tget t.evlog.rates 0x100000#32 j = d.reg 0x145 (R.LOG_RATE + 4 * j))
        ∧ { t with evlog := l } = d))
    ∧ (l.suppressed = [(k, n)] → 8192 ≤ k → k < 8448 → l.first.length < 255 → GivesSome .logWindowEnd s (fun t =>
        t.evlog.first = l.first ++ [⟨l.next, own 1 1 (BitVec.ofNat 32 ((k / 16 - 512) * 4096 + 0xFFF)) (BitVec.ofNat 32 n)
          (BitVec.ofNat 32 (k % 16)) (k % 16)⟩] ∧ t.evlog.suppressed = [] ∧ t.evlog.used = []))
    ∧ (admits d r 0x145 R.LOG_CTL = true →
        (l.copying = none → Gives (.logClear r) s
          ({ d with evlog := { l with first := [⟨l.next, own 3 0 (BitVec.ofNat 32 l.next.toNat) 0 0 0⟩], circ := [], next := l.next + 1 } }.answer
            r 0x145 R.LOG_CTL .ok 0))
        ∧ (l.copying = some q → Gives (.logClear r) s (d.answer r 0x145 R.LOG_CTL .badState 0)))
    ∧ (admits d r 0x145 R.LOG_RD_SEQ = true → r.node ≠ 0x140 → Gives (.logRdSeq r v) s
        ({ d with evlog := { l with sel := tput l.sel 0 (r.node * 32) v } }.answer r 0x145 R.LOG_RD_SEQ .ok 0))

/-! ### DRAM controllers -/

/-- R366 to R374, R384: an ACTIVE channel performs the request it issues and answers it: a read with the units stored, a whole burst
written with the request's units; promotion marks a request; a page timeout closes its row; a partition slot serves its tenant's request of
its bank group, moves on by one, and slot 0 takes the shares and the lend mask afresh; disturbed bits are stored with the burst.
R363, R365, R371, R374 to R376, R380, R382: a refresh goes to the device and takes its temperature report; patrol reads the next burst,
leaves its row as an access without a hint does, writes a correction back, and remembers a burst it cannot correct; the Cox alone starts a zero-fill, one at a time; a commit of a legal set
of interleave registers takes effect at its end, also for requests not yet injected, and an illegal one is answered BAD_STATE. -/
def Obligations.DramService : Prop :=
  (∀ (s : State) (n : DramIx) (sub : Fin 2) (busy : List Nat) (q : DramReq) (k bank b : Nat) (pattern : BitVec 640),
      let d := s.dev
      let x := d.dram n.val
      let part := d.flag (0x100 + n.val) R.DDR_PART 0
      let c := q.loc / 64
      let key := dramBank d n.val c
      let close : Bool := part || q.pkt.page = 2 || (q.pkt.page = 0 && d.flag (0x100 + n.val) R.DDR_PAGE_CFG 0)
      let rows := tput x.rows 0 key (if close then 0 else dramRow d n.val c + 1)
      let alone : Prop := x.queue = [q] ∧ x.state = 2 ∧ q.todo = [sub.val] ∧ subOf c = sub.val ∧ dramHeld d q.pkt.tenant = false
        ∧ key ∉ busy ∧ q.ue = false ∧ q.got = []
      let read : Prop := q.pkt.cmd = 1 ∧ q.pkt.len = 1 ∧ q.len = 16 ∧ q.loc % 16 = 0 ∧ tget x.errs 0 c = 0
      (alone → part = false →
        (read → Gives (.dramIssue n sub busy) s
          ((d.setDram n.val { x with rows := rows, queue := [] }).respond (0x100 + n.val) q.pkt .ok [tget x.data 0 (q.loc / 16)]))
        ∧ (q.pkt.cmd = 8 → q.pkt.len = 4 → q.len = 64 → q.loc % 64 = 0 → q.pkt.data.length = 4 →
            GivesSome (.dramIssue n sub busy) s (fun t =>
              (∀ u, tget (t.dram n.val).data 0 u = if u / 4 = c then q.pkt.data.getD (u % 4) 0 else tget x.data 0 u)
              ∧ tget (t.dram n.val).errs 0 c = 0 ∧ (t.dram n.val).queue = [] ∧ (t.dram n.val).rows = rows)))
      ∧ (x.queue[k]? = some q → Gives (.requestPromotion n k) s (d.setDram n.val { x with queue := x.queue.set k { q with promoted := true } }))
      ∧ (d.fld (0x100 + n.val) R.DDR_PAGE_CFG 4 12 ≠ 0 →
          Gives (.pageOpenTimeout n bank) s (d.setDram n.val { x with rows := tput x.rows 0 bank 0 }))
      ∧ (d.fld (0x100 + n.val) R.DDR_PAGE_CFG 4 12 = 0 → Gives (.pageOpenTimeout n bank) s d)
      ∧ (part = true →
          (x.slot ≠ 0 → x.queue = [] → Gives (.partitionSlot n busy) s (d.setDram n.val { x with slot := (x.slot + 1) % 64 }))
          ∧ (x.slot = 0 → x.queue = [] → GivesSome (.partitionSlot n busy) s (fun t =>
              (t.dram n.val).slot = 1 ∧ (t.dram n.val).lend = d.fld (0x100 + n.val) R.DDR_PART 16 16
              ∧ (∀ j < 16, tget (t.dram n.val).shares 0 j = d.fld (0x100 + n.val) (R.DDR_SLOT + 4 * j) 0 8)
              ∧ ((t.dram n.val).refreshing = true ↔ x.refreshing = false ∧ framesPerRefresh d n.val ≤ x.frames)))
          ∧ (alone → read → x.slot ≠ 0 → x.refreshing = false → slotTenant d n.val x.slot = some q.pkt.tenant →
              subBurst c / 64 % 8 = x.slot % 8 → GivesSome (.partitionSlot n busy) s (fun t =>
                t.dram n.val = { x with rows := rows, queue := [], slot := (x.slot + 1) % 64 }
                ∧ t.out = (d.respond (0x100 + n.val) q.pkt .ok [tget x.data 0 (q.loc / 16)]).out)))
      ∧ Gives (.dramError n b pattern) s (d.setDram n.val { x with errs := tput x.errs 0 b (tget x.errs 0 b ^^^ pattern) }))
  ∧ (∀ (s : State) (r : Req) (n : DramIx) (rank : Fin 2) (hot : Bool) (v : Word) (l : List (Nat × Nat × Nat × Nat)) (p : Nat),
      let d := s.dev
      let x := d.dram n.val
      let node := 0x100 + n.val
      let per := dramGiB d n.val * 2 ^ 23
      let b := burstAt (x.patrolPos / per) (x.patrolPos % per)
      (x.state = 1 ∨ x.state = 2 ∨ x.state = 3 → d.flag node R.DDR_PART 0 = false → x.trn = false →
        GivesSome (.refresh n rank hot 0) s (fun t => t.dram n.val = { x with hot := hot } ∧ .dramCmd n.val 16 rank.val 0 ∈ t.out
          ∧ t.flag node R.DDR_STATUS 4 = ((hot && d.flag node R.DDR_REF_CFG 4) || d.flag node R.DDR_REF_CFG 5)
          ∧ OnlyRegs d t [(node, R.DDR_STATUS), (node, R.DDR_EVENTS)]))
      ∧ (x.state = 0 ∨ x.state = 4 → Gives (.refresh n rank hot 0) s d)
      ∧ (patrolOn d n.val = true → x.patrolPos + 1 < 2 * per →
          (tget x.errs 0 b = 0 → Gives (.dramPatrolRead n) s
              ((afterAccess d n.val b 0).updDram n.val (fun y => { y with patrolPos := x.patrolPos + 1 })))
          ∧ (errGroups (tget x.errs 0 b) = [p] → tget x.errs 0 b ≠ 0 → GivesSome (.dramPatrolRead n) s (fun t =>
              tget (t.dram n.val).errs 0 b = 0 ∧ burstData (t.dram n.val) b = burstData x b ∧ (t.dram n.val).state = 2
              ∧ (t.dram n.val).patrolPos = x.patrolPos + 1
              ∧ t.fld node R.DDR_ECC_COUNT 0 16 = min (d.fld node R.DDR_ECC_COUNT 0 16 + 1) 65535 ∧ t.flag node R.DDR_EVENTS 0 = true))
          ∧ (1 < (errGroups (tget x.errs 0 b)).length → errSyms (tget x.errs 0 b) ≤ 8 → poisonIx d n.val b = none →
              poisonFree d n.val = some p → GivesSome (.dramPatrolRead n) s (fun t =>
                t.reg node (R.DDR_POISON + 4 * p) = BitVec.ofNat 32 (b + 2 ^ 31) ∧ (t.dram n.val).state = 2
                ∧ (t.dram n.val).data = x.data ∧ (t.dram n.val).errs = x.errs ∧ t.flag node R.DDR_EVENTS 1 = true)))
      ∧ (admits d r node R.DDR_ZF_CMD = true →
          (r.node = 0x141 → x.zf = none → Gives (.zeroFill r n v) s
            ((d.setDram n.val { x with zf := some (v.toNat % 1024) }).answer r node R.DDR_ZF_CMD .ok 0))
          ∧ (r.node = 0x141 → x.zf = some p → Gives (.zeroFill r n v) s (d.answer r node R.DDR_ZF_CMD .badState 0))
          ∧ (r.node ≠ 0x141 → GivesSome (.zeroFill r n v) s (fun t => t.drams = d.drams
              ∧ t.out.head? = some (.ans r node R.DDR_ZF_CMD .denied 0))))
      ∧ (admits d r 0x100 R.DDR_ISET_CTL = true → d.isetNext = none →
          (isetsLegal d (isetRegs d) = true → Gives (.isetCommit r) s
            (({ d with isetNext := some (isetRegs d) }.setReg 0x100 R.DDR_ISET_CTL 2).answer r 0x100 R.DDR_ISET_CTL .ok 0))
          ∧ (isetsLegal d (isetRegs d) = false → Gives (.isetCommit r) s
              ((d.setReg 0x100 R.DDR_ISET_CTL 0xD0).answer r 0x100 R.DDR_ISET_CTL .badState 0)))
      ∧ (d.isetNext = some l → d.unfilled = [] → d.fills = [] → Gives .isetCommitDone s
          ({ d with isets := l, isetNext := none, noc := { d.noc with
            flight := [], flightOld := d.noc.flightOld ++ d.noc.flight.map (fun h => (h, d.isets)) } }.setReg 0x100 R.DDR_ISET_CTL 0))
      ∧ (d.isetNext = none → Gives .isetCommitDone s d))

/-- R377 to R379: each command of DDR_CTL in the state that allows it, and BAD_STATE elsewhere; a parity alert freezes an ACTIVE channel,
whose queued requests are kept, and its command in error may have written one burst at a wrong place.
R381: in TRAINING a primitive is performed and its status reads done with OK: what it samples stands in the result, a write pattern
stands in the burst it names, the delays stored are applied; in DOWN only a NOP is, and any other reads BAD_STATE; in ACTIVE the apply waits
for the next refresh. -/
def Obligations.DramModes : Prop :=
  (∀ (s : State) (r : Req) (n : DramIx),
      let d := s.dev
      let x := d.dram n.val
      let node := 0x100 + n.val
      let goes (c : Instr) (y : Dram) : Prop := Gives c s ((d.setDram n.val y).answer r node R.DDR_CTL .ok 0)
      let bad (c : Instr) : Prop := Gives c s (d.answer r node R.DDR_CTL .badState 0)
      (admits d r node R.DDR_CTL = true →
        (x.state = 0 → goes (.ddrInit r n) { x with state := 1 }) ∧ (x.state ≠ 0 → bad (.ddrInit r n))
        ∧ (x.state = 1 → goes (.ddrActivate r n) { x with state := 2 }) ∧ (x.state ≠ 1 → bad (.ddrActivate r n))
        ∧ (x.oos = true → (x.state = 2 ∧ x.queue = []) ∨ x.state = 3 → goes (.ddrTrain r n) { x with state := 1, kept := [] })
        ∧ (x.oos = false → bad (.ddrTrain r n))
        ∧ (x.state = 3 → goes (.ddrResume r n) { x with state := 2, kept := [], queue := [] }) ∧ (x.state ≠ 3 → bad (.ddrResume r n))
        ∧ (x.state = 1 → goes (.ddrShutdown r n) { x with state := 0, data := [], errs := [], rows := [], trn := false })
        ∧ (x.state ≠ 1 → bad (.ddrShutdown r n)))
      ∧ (x.state = 2 → d.flag node R.DDR_DEV_CFG 9 = true → GivesSome (.caParityAlert n) s (fun t =>
          (t.dram n.val = { x with state := 3, kept := x.kept ++ x.queue, queue := [] }
            ∨ ∃ b v, t.dram n.val = putBurst { x with state := 3, kept := x.kept ++ x.queue, queue := [] } b v)
          ∧ t.flag node R.DDR_EVENTS 2 = true ∧ t.flag node R.DDR_EVENTS 3 = true ∧ t.fld node R.DDR_FRZ_INFO 0 4 = 2
          ∧ t.flag node R.DDR_FRZ_INFO 31 = true ∧ t.reg64 node R.DDR_FRZ_ADDR = 0))
      ∧ (x.state ≠ 2 → Gives (.caParityAlert n) s d))
  ∧ (∀ (s : State) (r : Req) (n : DramIx) (v : Word) (res : W128),
      let d := s.dev
      let x := d.dram n.val
      let node := 0x100 + n.val
      let done (c : Instr) (op : Nat) (P : Dev → Prop) : Prop :=
        (x.state = 1 ∨ op = 0 → GivesSome c s (fun t => t.fld node R.DDR_TRN_CMD 0 4 = op ∧ t.fld node R.DDR_TRN_CMD 7 5 = 1
          ∧ t.flag node R.DDR_EVENTS 4 = true ∧ t.out.head? = some (.ans r node R.DDR_TRN_CMD .ok 0) ∧ P t))
        ∧ (x.state = 0 → op ≠ 0 → GivesSome c s (fun t => t.fld node R.DDR_TRN_CMD 7 5 = 27 ∧ t.drams = d.drams
            ∧ OnlyRegs d t [(node, R.DDR_TRN_CMD)]))
      let result (w : Nat) (t : Dev) : Prop := (t.reg128 node R.DDR_TRN_RESULT).toNat = res.toNat % 2 ^ w ∧ t.dram n.val = x
      let sent (op : Nat) (t : Dev) : Prop := .dramCmd n.val op (v.toNat / 16 % 4) (d.reg node R.DDR_TRN_ARG).toNat ∈ t.out
      admits d r node R.DDR_TRN_CMD = true → x.trn = false →
      done (.trnNop r n v) 0 (fun t => t.dram n.val = x)
      ∧ done (.mrw r n v) 1 (fun t => sent 1 t ∧ t.dram n.val = x)
      ∧ done (.mrr r n v res) 2 (fun t => sent 2 t ∧ result 80 t)
      ∧ done (.mpc r n v) 3 (fun t => sent 3 t ∧ t.dram n.val = x)
      ∧ done (.wlSample r n v res) 4 (result 10)
      ∧ done (.rdPattern r n v res) 5 (result 40)
      ∧ (dramAddr d n.val ((d.reg node R.DDR_TRN_ARG).toNat % 2 ^ 31 * 64) = none →
          done (.wrRdCmp r n v res) 6 (fun t => ∀ u, tget (t.dram n.val).data 0 u =
            if u / 4 = (d.reg node R.DDR_TRN_ARG).toNat % 2 ^ 31 then d.reg128 node R.DDR_TRN_PAT else tget x.data 0 u))
      ∧ done (.caSample r n v res) 7 (result 14)
      ∧ done (.dlyApply r n v) 8 (fun t => t.dram n.val = { x with dlyOn := x.dly })
      ∧ (x.state = 2 → GivesSome (.dlyApply r n v) s (fun t => t.dram n.val = { x with trn := true } ∧ t.fld node R.DDR_TRN_CMD 7 5 = 0)))

/-! ### Serial lanes -/

/-- R392, R393, R399, R411, R412: loss of signal and loss of lock set their bits, with their events, and end; a PLL setting in range
relocks its group, one out of range is BAD_STATE; lock reads when it is reached; loss of a reference unlocks both groups it serves, and
every lane of an unlocked group loses lock.
R396, R400, R401, R404, R405, R408, R409: the checker gains and loses sync; an inverted bit is counted; a test mode is stored for whom
it belongs to and refused elsewhere; the taps change together; a slip moves the word boundary by one bit; a mode is written only while the
attached island is IDLE and no tenant channel is mapped; at a word boundary the lane sends the FIFO's word and takes the one received. -/
def Obligations.LaneMonitors : Prop :=
  (∀ (s : State) (r : Req) (g : LaneIx) (n : LinkIx) (q p : Fin 4) (v : Word),
      let d := s.dev
      let node := 0x110 + g.val / 9
      let o := g.val % 9 * 0x80
      let st := R.LANE_STATUS + o
      let ev := R.LANE_EVENTS + o
      let unlocked (t : Dev) (k : Nat) : Prop := t.reg (0x110 + k) R.LANE_PLL_STATUS = 0
        ∧ ∀ j < 9, t.flag (0x110 + k) (R.LANE_STATUS + j * 0x80) 1 = true ∧ t.flag (0x110 + k) (R.LANE_STATUS + j * 0x80) 2
            = (d.flag (0x110 + k) (R.LANE_STATUS + j * 0x80) 1 && d.flag (0x110 + k) (R.LANE_STATUS + j * 0x80) 2)
      let legal := pllLegal (fVco d n.val) (v.toNat % 8) (v.getLsbD 3)
      (d.flag node st 0 = false → GivesSome (.losAssert g) s (fun t => t.flag node st 0 = true ∧ t.flag node ev 0 = true
        ∧ (d.fld node (R.LANE_TEST_CTL + o) 8 2 ≠ 1 → t.flag node st 1 = true)))
      ∧ (d.flag node st 0 = true → Gives (.losAssert g) s d)
      ∧ (d.flag node st 0 = true → Gives (.losDeassert g) s
          ((d.setReg node st (d.reg node st &&& ~~~1#32)).setReg node ev (d.reg node ev ||| 2#32)))
      ∧ (d.flag node st 1 = false → GivesSome (.lolAssert g) s (fun t =>
          t.flag node st 1 = true ∧ t.flag node st 2 = false ∧ t.flag node ev 2 = true))
      ∧ (d.flag node st 1 = true → d.flag node R.LANE_PLL_STATUS 0 = true → d.flag node st 0 = false →
          Gives (.lolDeassert g) s (d.setReg node st (d.reg node st &&& ~~~2#32)))
      ∧ (admits d r (0x110 + n.val) R.LANE_PLL_CFG = true →
          (legal = true → GivesSome (.pllApply r n v) s (fun t =>
            t.reg (0x110 + n.val) R.LANE_PLL_CFG = (d.reg (0x110 + n.val) R.LANE_PLL_CFG &&& ~~~0x3F#32) ||| (v &&& 0x3F#32)
            ∧ unlocked t n.val ∧ t.out.head? = some (.ans r (0x110 + n.val) R.LANE_PLL_CFG .ok 0)))
          ∧ (legal = false → Gives (.pllApply r n v) s (d.answer r (0x110 + n.val) R.LANE_PLL_CFG .badState 0)))
      ∧ (d.flag (0x110 + n.val) R.LANE_GRP_CFG 2 = d.flag (0x110 + refPartner n.val) R.LANE_GRP_CFG 2 →
          d.flag (0x110 + n.val) R.LANE_PLL_STATUS 0 = false → GivesSome (.pllLock n) s (fun t =>
            t.flag (0x110 + n.val) R.LANE_PLL_STATUS 0 = true
            ∧ t.fld (0x110 + n.val) R.LANE_PLL_STATUS 16 15 = pllVco d n.val / 262144 % 32768 ∧ OnlyRegs d t [(0x110 + n.val, R.LANE_PLL_STATUS)]))
      ∧ GivesSome (.laneRefLoss q p) s (fun t => unlocked t (8 * q.val + 2 * p.val) ∧ unlocked t (8 * q.val + 2 * p.val + 1)))
  ∧ (∀ (s : State) (r : Req) (g : LaneIx) (n : LinkIx) (v : Word) (w rxw : W128),
      let d := s.dev
      let node := 0x110 + g.val / 9
      let o := g.val % 9 * 0x80
      let st := R.LANE_STATUS + o
      let x := d.lane g.val
      let test := R.LANE_TEST_CTL + o
      let k := d.fld node test 10 5
      let count := d.fld node (R.LANE_INJ_COUNT + o) 0 32
      let ctl := R.LANE_CTL + o
      let coef := R.LANE_TX_COEF + o
      let all : W128 := BitVec.ofNat 128 (2 ^ laneFw d (g.val / 9) - 1)
      let freed := (x.rxFreed.filter (· > 1)).map (· - 1)
      (d.fld node test 4 3 ≠ 0 → d.flag node st 1 = false → d.flag node st 2 = false → 64 ≤ x.chkRun →
        GivesSome (.prbsSync g) s (fun t => t.flag node st 2 = true ∧ t.lane g.val = { x with chkMiss := 0 } ∧ OnlyRegs d t [(node, st)]))
      ∧ (d.flag node st 2 = true → 16 ≤ popCount64 x.chkMiss → GivesSome (.prbsLoss g) s (fun t =>
          t.flag node st 2 = false ∧ t.flag node (R.LANE_EVENTS + o) 3 = true
          ∧ t.lane g.val = { x with chk := 0, chkHave := 0, chkRun := 0, chkMiss := 0 }))
      ∧ (d.fld node test 0 3 ≠ 0 → k ≠ 0 → 2 ^ k ≤ x.genBits → GivesSome (.injPeriodic g) s (fun t =>
          t.lane g.val = { x with injPeriodic := x.injPeriodic + 1, genBits := x.genBits - 2 ^ k }
          ∧ t.fld node (R.LANE_INJ_COUNT + o) 0 32 = min (count + 1) (2 ^ 32 - 1) ∧ OnlyRegs d t [(node, R.LANE_INJ_COUNT + o)]))
      ∧ (admits d r node test = true →
          let same (u : Word) : Prop := testRefused d (g.val / 9) r.tenant = false ∧ u.toNat % 8 < 6 ∧ u.toNat / 16 % 8 < 6
            ∧ u.toNat / 256 % 4 ≠ 3 ∧ (u.toNat / 1024 % 32 = 0 ∨ 6 ≤ u.toNat / 1024 % 32)
            ∧ u.toNat % 8 = d.fld node test 0 3 ∧ u.toNat / 16 % 8 = d.fld node test 4 3
          let stored (t : Dev) : Prop := t.reg node test = (d.reg node test &&& ~~~0x7FF7#32) ||| (v &&& 0x7FF7#32)
            ∧ t.flag node st 3 = decide (v.toNat / 256 % 4 ≠ 0) ∧ t.out.head? = some (.ans r node test .ok 0)
          (same v → v.getLsbD 16 = false → v.getLsbD 17 = false → GivesSome (.testModeWrite r g v) s (fun t => stored t ∧ t.lane g.val = x))
          ∧ (same v → GivesSome (.injSingle r g v) s (fun t => stored t ∧ t.lane g.val = { x with injSingle := true }))
          ∧ (same v → GivesSome (.chkClear r g v) s (fun t => stored t ∧ t.reg64 node (R.LANE_PRBS_ERR + o) = 0
              ∧ t.reg64 node (R.LANE_PRBS_BITS + o) = 0))
          ∧ (testRefused d (g.val / 9) r.tenant = true ∨ 6 ≤ v.toNat % 8 ∨ v.toNat / 256 % 4 = 3 →
              Gives (.testModeWrite r g v) s (d.answer r node test .badState 0)))
      ∧ (admits d r node ctl = true → GivesSome (.rxSlip r g v) s (fun t =>
          t.lane g.val = { x with slip := (x.slip + 1) % laneFw d (g.val / 9) }
          ∧ t.reg node ctl = (d.reg node ctl &&& ~~~0x1F#32) ||| (v &&& 0x1F#32) ∧ OnlyRegs d t [(node, ctl)]))
      ∧ (admits d r node coef = true →
          let c := v.toNat % 16
          let m := v.toNat / 256 % 32
          let training : Prop := d.fld node R.LANE_GRP_CFG 0 2 = 1 ∧ d.flag node R.LNK_CFG 2 = true
          (m ≤ 24 → ¬training → Gives (.txCoefWrite r g v) s
            ((d.setReg node coef (BitVec.ofNat 32 (c + m * 256 + (63 - c - m) * 65536))).answer r node coef .ok 0))
          ∧ (24 < m ∨ training → Gives (.txCoefWrite r g v) s (d.answer r node coef .badState 0)))
      ∧ (admits d r (0x110 + n.val) R.LANE_GRP_CFG = true →
          ((d.isl (laneIsland n.val)).state = .idle → tenantMapped d n.val = false → v.toNat % 4 = d.fld (0x110 + n.val) R.LANE_GRP_CFG 0 2 →
            v.getLsbD 2 = d.flag (0x110 + refPartner n.val) R.LANE_GRP_CFG 2 → Gives (.laneModeWrite r n v) s
              ((d.setReg (0x110 + n.val) R.LANE_GRP_CFG ((d.reg (0x110 + n.val) R.LANE_GRP_CFG &&& ~~~0xF#32) ||| (v &&& 0xF#32))).answer r
                (0x110 + n.val) R.LANE_GRP_CFG .ok 0))
          ∧ ((d.isl (laneIsland n.val)).state ≠ .idle ∨ tenantMapped d n.val = true →
              Gives (.laneModeWrite r n v) s (d.answer r (0x110 + n.val) R.LANE_GRP_CFG .badState 0)))
      ∧ (d.fld node R.LANE_GRP_CFG 0 2 ≠ 2 → d.fld node test 0 3 = 0 → d.fld node test 4 3 = 0 → d.fld node test 8 2 = 0 →
          Gives (.laneWordClock g rxw) s d)
      ∧ (d.fld node R.LANE_GRP_CFG 0 2 = 2 → lanesTested d = false → d.fld 0x146 R.PWR_DEV_STATE 0 2 = 0 →
          inIsland (d.isl (laneIsland (g.val / 9))).state = true → d.fld node test 8 2 = 0 →
          (laneSends d g.val = true → d.flag node ctl 1 = false → d.flag node ctl 2 = false → d.fld node test 0 3 = 0 → x.tx = [(1, w)] →
            GivesSome (.laneWordClock g rxw) s (fun t => t.out = .laneWord g.val w :: d.out
              ∧ t.lane g.val = { x with tx := [], txFreed := x.txFreed ++ [2], rxFreed := freed }))
          ∧ (laneSends d g.val = false → d.flag node ctl 1 = true → d.flag node ctl 3 = false → d.flag node st 1 = false →
              d.flag node st 5 = false → d.fld node test 4 3 = 0 → x.rx.length + freed.length < 16 → x.slip = 0 →
              GivesSome (.laneWordClock g rxw) s (fun t => t.out = d.out
                ∧ t.lane g.val = { x with tx := x.tx.map (fun e => (e.1 - 1, e.2)), rx := x.rx ++ [(2, rxw &&& all)], rxFreed := freed,
                                          rxAt := 0, rxPrev := rxw &&& all }))))

/-! ### Links and device time -/

/-- R416 to R424: a good flit of the number expected is taken, its units delivered and its acknowledgement owed; one of another number, or
a bad one, is discarded and brings a nak; a good CTRL flit frees what it acknowledges, and its nak replays, its swap request moves a lane, its
time request is answered, its time response is a sample; a slot replays, sends a CTRL flit that is due, or the next stroke flit; the timers
replay, and send a CTRL flit.
R431, R433, R435 to R438: a stroke acknowledgement received on a mapped channel goes to the channel's port, and one of another tenant is
discarded with map_error; a tunnelled request goes to its destination under a proxy's tag, a stale one does not; the response goes back to
the original source; a proxy's timeout frees its record and keeps its tag out of use. After a packet the flits of the next are passed on. -/
def Obligations.LinkTraffic : Prop :=
  (∀ (s : State) (n : LinkIx) (f g : Flit) (p : LinkPkt) (u : W128),
      let d := s.dev
      let node := 0x110 + n.val
      let x := d.link n.val
      let good : Prop := flitByte f 34 ++ flitByte f 35 = crc16 f ∧ flitVc f < 9
      let pay := (flitPay f).toNat
      let oldest := (x.txSeq + 4096 - x.replay.length) % 4096
      let k := (flitSeq f + 4096 - oldest) % 4096
      let left := if k ≤ x.replay.length then x.replay.drop k else x.replay
      let resent (t : Dev) (l : List Flit) : Prop := (t.link n.val).replay = l ∧ (t.link n.val).resend = l.length
        ∧ t.flag node R.LNK_EVENTS 5 = true ∧ t.fld node R.LNK_RETRIES 0 32 = min (d.fld node R.LNK_RETRIES 0 32 + 1) (2 ^ 32 - 1)
      let control (t : Dev) : Prop := (∃ u0 u1, t.out = .flit n.val (mkFlit (linkFec d n.val) x.rxSeq 0 u0 u1) :: d.out
          ∧ u0.getLsbD 0 = x.nakDue ∧ u0.getLsbD 1 = x.swapDue.isSome ∧ u0.getLsbD 2 = x.reqDue ∧ u0.getLsbD 3 = x.rspDue.isSome)
        ∧ (t.link n.val).nakDue = false ∧ (t.link n.val).swapDue = none ∧ (t.link n.val).reqDue = false ∧ (t.link n.val).rspDue = none
        ∧ (t.link n.val).owed = 0 ∧ (t.link n.val).replay = x.replay ∧ t.regs = d.regs
      let due : Prop := x.nakDue = true ∨ x.swapDue ≠ none ∨ x.reqDue = true ∨ x.rspDue ≠ none ∨ 16 ≤ x.owed
      linkState d n.val = 2 →
      (lanesTested d = false → linkFec d n.val = false →
        (good → flitVc f = 1 → flitSeq f = x.rxSeq → tget x.asm [] 1 = [] → (flitSlot f 0).getLsbD 63 = true →
          GivesSome (.flitReceive n f) s (fun t => (t.link n.val).rxSeq = (x.rxSeq + 1) % 4096 ∧ (t.link n.val).owed = x.owed + 1
            ∧ (t.link n.val).ignoring = false ∧ (t.link n.val).rxq = x.rxq ++ [(1, [flitSlot f 0], tget x.asmFlits 0 1 + 1)]
            ∧ t.reg64 node R.LNK_RX_FLITS = d.reg64 node R.LNK_RX_FLITS + 1))
        ∧ (good → flitVc f ≠ 0 → flitSeq f ≠ x.rxSeq → x.ignoring = false →
            Gives (.flitReceive n f) s (d.setLink n.val { x with ignoring := true, nakDue := true }))
        ∧ (flitByte f 34 ++ flitByte f 35 ≠ crc16 f → flitVc f ≠ 0 → x.ignoring = false → GivesSome (.flitReceive n f) s (fun t =>
            t.link n.val = { x with ignoring := true, nakDue := true } ∧ OnlyRegs d t [(node, R.LNK_CRC_ERRS)]
            ∧ t.fld node R.LNK_CRC_ERRS 0 32 = min (d.fld node R.LNK_CRC_ERRS 0 32 + 1) (2 ^ 32 - 1)))
        ∧ (good → flitVc f = 0 →
            GivesSome (.ackCredit n f) s (fun t => (t.link n.val).replay = left
              ∧ ∀ c < 8, creditOf (t.link n.val) (c + 1) = min (vcBuffer (c + 1)) (creditOf x (c + 1) + bitsOf pay (16 + 8 * c) 8))
            ∧ (pay.testBit 0 = true → left ≠ [] → GivesSome (.nak n f) s (fun t => resent t left))
            ∧ (pay.testBit 1 = true → bitsOf pay 8 4 < 8 → GivesSome (.swapReq n f) s (fun t =>
                t.fld node R.LNK_STATUS 8 4 = bitsOf pay 8 4))
            ∧ (pay.testBit 2 = true → GivesSome (.timeReq n f) s (fun t => (t.link n.val).rspDue = some (d.dtime <<< 8)))
            ∧ (pay.testBit 3 = true → upstream d = some n.val → timeOn d n.val = true → x.samples.length < 15 →
                GivesSome (.timeRsp n f) s (fun t => t.dtime = d.dtime ∧ (t.link n.val).samples = x.samples ++
                  [((BitVec.ofNat 64 (bitsOf pay 160 64) - x.t1).toInt - (d.dtime <<< 8 - BitVec.ofNat 64 (bitsOf pay 96 64)).toInt) / 2]))))
      ∧ (0 < x.resend → x.replay[x.replay.length - x.resend]? = some g →
          Gives (.flitTransmit n) s ((d.setLink n.val { x with resend := x.resend - 1 }).emit (.flit n.val g)))
      ∧ (x.resend = 0 → due → GivesSome (.flitTransmit n) s control)
      ∧ (x.resend = 0 → ¬due → x.replay.length < 64 → 0 < creditOf x 1 → x.curStroke = none → x.strokeQ = [p] → p.vc = 1 → p.units = [u] →
          p.tenant < 16 → GivesSome (.flitTransmit n) s (fun t =>
            let y := mkFlit (linkFec d n.val) x.txSeq 1 u 0
            t.out = .flit n.val y :: d.out ∧ (t.link n.val).replay = x.replay ++ [y] ∧ (t.link n.val).txSeq = (x.txSeq + 1) % 4096
            ∧ creditOf (t.link n.val) 1 = creditOf x 1 - 1 ∧ (t.link n.val).strokeQ = [] ∧ (t.link n.val).curStroke = none
            ∧ t.reg64 node R.LNK_TX_FLITS = d.reg64 node R.LNK_TX_FLITS + 1))
      ∧ (x.replay ≠ [] → GivesSome (.replayTimer n) s (fun t => resent t x.replay))
      ∧ GivesSome (.ctrlTimer n) s control)
  ∧ (∀ (s : State) (n : LinkIx) (u hdr : W128) (k dest : Nat) (q : Fin 7) (tag : Fin 1024),
      let d := s.dev
      let node := 0x110 + n.val
      let x := d.link n.val
      let w := d.reg node (R.LNK_TX_MAP + 8 * bitsOf u.toNat 0 10)
      let owedOf (vc : Nat) : Tab Nat := tput x.creditDue 0 vc (tget x.creditDue 0 vc + k)
      let h := q.val
      let addr := bitsOf hdr.toNat 64 52
      let fresh := tunnelFresh d n.val u
      let moved (vc : Nat) (y : LinkSt) : LinkSt := { y with rxq := [], creditDue := owedOf vc }
      let req : Pkt := ⟨reHdr hdr dest node (bitsOf hdr.toNat 20 6) ((freeProxy d n.val h).getD 0) (d.epoch node), [], false⟩
      let passed (t : Dev) (vc : Nat) : Dev := passFlits t n.val vc
      (x.rxq = [(1, [u], k)] → u.getLsbD 63 = true →
        (mapValid w = true → mapTenant w = bitsOf u.toNat 26 4 → Gives (.linkStrokeUnit n) s
          (passed ((d.setLink n.val (moved 1 x)).emit (.pkt ⟨mkHdr (mapIsl w) node 0x19 0 0 0 (bitsOf u.toNat 26 4) (d.epoch node) 1 0 false
            (mapPort w + bitsOf u.toNat 10 8 * 32 + bitsOf u.toNat 18 8 * 2 ^ 13), [], false⟩)) 1))
        ∧ (mapValid w = false ∨ mapTenant w ≠ bitsOf u.toNat 26 4 → GivesSome (.linkStrokeUnit n) s (fun t =>
            t.link n.val = (passed (d.setLink n.val (moved 1 x)) 1).link n.val ∧ t.flag node R.LNK_EVENTS 8 = true ∧ OnlyRegs d t [(node, R.LNK_EVENTS)])))
      ∧ (1 ≤ h → x.rxq = [(2 + h, [u, hdr], k)] → hdr.getLsbD 63 = true → (freeProxy d n.val h).isSome = true →
          (fresh = true → deviceOf addr = d.devId → destOf d addr = some dest → Gives (.tunnelRequest n q) s (passed
            { d.setLink n.val { moved (2 + h) x with proxies := x.proxies ++ [((freeProxy d n.val h).getD 0, ⟨bitsOf u.toNat 6 6, hdr⟩)] } with
              noc := { d.noc with inject := d.noc.inject ++ [(node, 0, req)] } } (2 + h)))
          ∧ (fresh = false → GivesSome (.tunnelRequest n q) s (fun t => t.noc = d.noc ∧ t.flag node R.LNK_EVENTS 12 = true
              ∧ (t.link n.val).tunnelQ.length = x.tunnelQ.length + 1 ∧ (t.link n.val).proxies = x.proxies)))
      ∧ (x.rxq = [(2, [u, hdr], k)] →
          (fresh = true → Gives (.tunnelResponse n) s (passed ((d.setLink n.val (moved 2 x)).emit (.pkt ⟨reHdr hdr (bitsOf hdr.toNat 0 10) node
            (bitsOf hdr.toNat 20 6) (bitsOf hdr.toNat 26 10) (d.epoch node), [], false⟩)) 2))
          ∧ (fresh = false → GivesSome (.tunnelResponse n) s (fun t => t.link n.val = (passed (d.setLink n.val (moved 2 x)) 2).link n.val ∧ t.flag node R.LNK_EVENTS 12 = true
              ∧ OnlyRegs d t [(node, R.LNK_EVENTS)])))
      ∧ (x.proxies.any (fun e => e.1 = tag.val) = false → Gives (.proxyTimeout n tag) s d)
      ∧ (x.proxies.any (fun e => e.1 = tag.val) = true → d.noc.inject.any (fun e => e.1 = node && e.2.2.rr && e.2.2.tag = tag.val) = false →
          GivesSome (.proxyTimeout n tag) s (fun t => t.link n.val = { x with proxies := x.proxies.filter (fun e => e.1 ≠ tag.val) }
            ∧ t.noc.quarantine = d.noc.quarantine ++ [(node, 0, tag.val)] ∧ t.flag node R.NOC_EVENTS 6 = true)))

/-- R425 to R430: training starts on an enabled link and discards what it held, on command or from FAILED by itself; link down turns it off
and unmaps its channels; statistics clear; a good training frame confirms its lane and is kept, its request sets the lane's taps, and this
end's frame answers it; training or recovery that ends well brings
the link UP with its initial credit or its replay, and one that ends badly fails it.
R443: a follower asks its upstream link for the time, and notes holdover while that is not UP; the master's device time is set, never
back, by a write, which a follower refuses. -/
def Obligations.LinkStateAndTime : Prop :=
  (∀ (s : State) (r : Req) (n : LinkIx) (j : Fin 9) (f : BitVec 288) (bad : List Nat),
      let d := s.dev
      let node := 0x110 + n.val
      let x := d.link n.val
      let b (k : Nat) : Nat := (flitByte (f.setWidth 320) k).toNat
      let training (t : Dev) : Prop := linkState t n.val = 1 ∧ t.link n.val = { proxies := x.proxies } ∧ .linkTrain n.val ∈ t.out
      let failed (t : Dev) : Prop := linkState t n.val = 5 ∧ t.link n.val = { proxies := x.proxies } ∧ t.flag node R.LNK_EVENTS 2 = true
      let stats : List Nat := [R.LNK_RETRIES, R.LNK_CRC_ERRS, R.LNK_FEC_CORR, R.LNK_FEC_UNCORR, R.LNK_TX_FLITS, R.LNK_TX_FLITS + 4,
        R.LNK_RX_FLITS, R.LNK_RX_FLITS + 4]
      (admits d r node R.LNK_CTL = true →
        (mayTrain d n.val = true → GivesSome (.linkTrain r n) s (fun t => training t ∧ t.out.head? = some (.ans r node R.LNK_CTL .ok 0)))
        ∧ (mayTrain d n.val = false → Gives (.linkTrain r n) s (d.answer r node R.LNK_CTL .badState 0))
        ∧ GivesSome (.linkDown r n) s (fun t => linkState t n.val = 0 ∧ t.link n.val = { proxies := x.proxies }
            ∧ ∀ k ∈ d.linkChans, k / 2048 = n.val → k % 2048 < 2048 →
                mapValid (t.reg node ((if k % 2 = 0 then R.LNK_TX_MAP else R.LNK_RX_MAP) + 8 * (k / 2 % 1024))) = false)
        ∧ GivesSome (.clearStats r n) s (fun t => (∀ o ∈ stats, t.reg node o = 0) ∧ OnlyRegs d t (stats.map (fun o => (node, o)))
            ∧ t.links = d.links))
      ∧ (linkState d n.val = 5 → d.flag node R.LNK_CFG 3 = true → mayTrain d n.val = true → GivesSome (.autoRetrain n) s training)
      ∧ (linkState d n.val = 1 →
          (flitByte (f.setWidth 320) 34 ++ flitByte (f.setWidth 320) 35 = crc16 (f.setWidth 320) → b 0 = 0x7E → b 1 = 0x81 → b 3 = j.val →
            GivesSome (.trainingFrame n j f) s (fun t => j.val ∈ (t.link n.val).lanesOk ∧ (∀ i ∈ x.lanesOk, i ∈ (t.link n.val).lanesOk)
              ∧ (t.link n.val).peer = some f
              ∧ (d.flag node R.LNK_CFG 2 = true → 128 ≤ b 9 → b 9 % 16 ≤ 15 → b 10 % 32 ≤ 24 →
                  t.fld node (laneOff R.LANE_TX_COEF (9 * n.val + j.val)) 0 4 = b 9 % 16
                  ∧ t.fld node (laneOff R.LANE_TX_COEF (9 * n.val + j.val)) 8 5 = b 10 % 32)
              ∧ ∃ ph i taps, t.out = .trainFrame n.val j.val (trainFrame d n.val j.val ph i taps) :: d.out ∧ 3 ≤ ph ∧ ph ≤ 5 ∧ i < 3))
          ∧ (b 0 ≠ 0x7E ∨ b 3 ≠ j.val → Gives (.trainingFrame n j f) s d)
          ∧ (x.peer = none → GivesSome (.trainingDone n true [] [] []) s failed)
          ∧ GivesSome (.trainingDone n false [] [] []) s failed
          ∧ (x.peer = some f → pllLocked d n.val = true → (∀ i < 9, i ∈ x.lanesOk) → b 5 % 64 ≠ d.devId → b 6 = devEpoch d (b 5 % 64) →
              b 7 = lpEpoch d (b 5 % 64) (b 4 % 32) → (b 8 % 2 = 1 ↔ d.flag node R.LNK_CFG 1 = true) →
              GivesSome (.trainingDone n true [] [] []) s (fun t => linkState t n.val = 2
                ∧ (∀ c < 8, creditOf (t.link n.val) (c + 1) = vcBuffer (c + 1)) ∧ (t.link n.val).replay = [] ∧ (t.link n.val).txSeq = 0
                ∧ t.fld node R.LNK_PEER_INFO 0 6 = b 5 % 64 ∧ t.flag node R.LNK_PEER_INFO 31 = true ∧ t.flag node R.LNK_EVENTS 0 = true)))
      ∧ (linkState d n.val = 3 →
          (2 ≤ bad.length → GivesSome (.recoveryDone n bad []) s failed)
          ∧ (pllLocked d n.val = true → GivesSome (.recoveryDone n [] []) s (fun t => linkState t n.val = 2
              ∧ t.link n.val = { x with resend := x.replay.length, nakDue := true, ignoring := true } ∧ t.flag node R.LNK_EVENTS 0 = true))))
  ∧ (∀ (s : State) (r : Req) (n : LinkIx) (v : Word),
      let d := s.dev
      let node := 0x110 + n.val
      let w : W64 := tget d.holdWr 0 (holdKey r 0x142 (R.CRW_DTIME_SET + 4)) ++ v
      (upstream d = some n.val → timeOn d n.val = true →
        (linkState d n.val = 2 → GivesSome (.timeExchange n) s (fun t => t.link n.val = { d.link n.val with reqDue := true }
          ∧ t.flag node R.LNK_STATUS 13 = false ∧ OnlyRegs d t [(node, R.LNK_STATUS)]))
        ∧ (linkState d n.val ≠ 2 → GivesSome (.timeExchange n) s (fun t => t.links = d.links ∧ t.flag node R.LNK_STATUS 13 = true
            ∧ t.flag 0x142 R.CRW_EVENTS 2 = true)))
      ∧ (upstream d ≠ some n.val → Gives (.timeExchange n) s d)
      ∧ (isPass (regGate d r 0x142 R.CRW_DTIME_SET) = true →
          (isMaster d = true → d.dtime ≤ w → GivesSome (.dtimeSet r v) s (fun t => t.dtime = w
            ∧ t.out = .ans r 0x142 R.CRW_DTIME_SET .ok 0 :: d.out ∧ { t with regs := d.regs, out := d.out, holdWr := d.holdWr, dtime := d.dtime } = d))
          ∧ (isMaster d = false ∨ w < d.dtime → GivesSome (.dtimeSet r v) s (fun t => t.dtime = d.dtime ∧ t.regs = d.regs
              ∧ t.out = .ans r 0x142 R.CRW_DTIME_SET .badState 0 :: d.out))))

/-! ### Configuration, boot flash and scrubbing -/

/-- R490 to R504: each section that a load in progress takes has its effect and moves the load to the next: the header states the length, a
manifest its hashes, a container and an encrypted section open, frames are written into an island that is taken for the section's principal,
memory content and set-up are kept for the end, links and START masks are noted. A stream that ends behind a section, before its trailer,
aborts with reason 10. -/
def Obligations.LoadSections : Prop :=
  ∀ (s : State) (l : LoadSt) (hdr : W128) (body : List W128) (i : Isl),
    let d := s.dev
    let n := i.val
    let w := bodyWord body 0
    let fin := l.pos + 1 + body.length
    let prin := boxPrin l
    let free : Prop := (d.isl n).state = .idle ∧ (d.isl n).prBusy = false ∧ (d.isl n).zeroising = false ∧ entitled d prin n = true
      ∧ (∀ t ∈ l.taken, t.isl ≠ n) ∧ wf w 0 8 = n
    let taken (typ : Nat) (t : Dev) : Prop := goesOn d t fin [n] (fun k => k.taken = l.taken ++ [⟨n, true, prin, l.pos, [(typ, body)]⟩])
      ∧ t.owner n = prin % 16 ∧ (t.isl n).prBusy = true ∧ (t.isl n).state = .idle
    (takes d l 1 hdr body → body.length = 2 → wf w 0 16 = 1 → wf w 24 8 = stepLetter d → w.getLsbD 16 = l.partialLoad →
      GivesSome (.streamHeader hdr body) s (fun t => goesOn d t fin [] (fun k => k.total = wf (bodyWord body 1) 0 64 ∧ k.hdr = hdr :: body)))
    ∧ (takes d l 2 hdr body → l.boxes = [] → manifestBad d prin l.hdr body body.length true = none →
        GivesSome (.manifest hdr body true) s (fun t => goesOn d t fin [] (fun k => k.hashes = some (manifestHashes body) ∧ k.taken = l.taken)))
    ∧ (d.load = some l → hdr.getLsbD (64 + d.devId) = true → headBad d l 3 hdr [w] false = none → 1 < wf hdr 32 32 →
        l.limit.any (fun m => m ≤ l.pos + 2) = false →
        GivesSome (.tenantContainer hdr [w]) s (fun t => goesOn d t (l.pos + 2) [] (fun k =>
          k.boxes = { typ := 3, off := l.pos, stop := l.pos + 1 + wf hdr 32 32, prin := wf w 0 4, head := [hdr, w] } :: l.boxes)))
    ∧ (takes d l 4 hdr body → l.boxes = [] → 2 < body.length → GivesSome (.encrypted hdr body true) s (fun t =>
        (∃ k, t.load = some k ∧ k.pos = l.pos + 2 ∧ k.boxes = [{ typ := 4, off := l.pos, stop := l.pos + body.length, prin := prin }])
        ∧ t.islands = d.islands))
    ∧ (takes d l 5 hdr body → free → 0 < wf w 21 13 → wf w 8 13 + wf w 21 13 ≤ 4608 → body.length = 1 + 32 * wf w 21 13 → prin < 16 →
        GivesSome (.frameWrite hdr body) s (fun t => taken 5 t ∧ ∀ j < wf w 21 13,
          (t.frame n (wf w 8 13 + j)).bits = BitVec.ofNat 4096 (wordsNum ((body.drop (1 + 32 * j)).take 32))))
    ∧ (takes d l 6 hdr body → free → memTarget body < 96 → wf w 16 12 + wf w 28 13 ≤ 512 → w.getLsbD 41 = false →
        body.length = 1 + wf w 28 13 → GivesSome (.memoryInit hdr body) s (fun t => taken 6 t))
    ∧ (takes d l 7 hdr body → free → body.length = 75 + preloadDue body → GivesSome (.islandSetup hdr body) s (fun t => taken 7 t))
    ∧ (takes d l 8 hdr body → w.getLsbD 0 = true → body.length = 4 + wf w 12 10 → (∀ e ∈ mapEntries body, entitled d prin (wf e 11 8) = true) →
        GivesSome (.linkSetup hdr body) s (fun t => goesOn d t fin [] (fun k => k.links = l.links ++ [(prin, l.pos, body)])))
    ∧ (takes d l 9 hdr body → body.length = 2 → (∀ j ∈ maskIslands (startMask body), entitled d prin j = true) →
        GivesSome (.start hdr body) s (fun t => goesOn d t fin [] (fun k => k.starts = l.starts ++ [(prin, l.pos, startMask body)])))
    ∧ (d.load = some l → l.limit = some fin → l.boxes = [] → hdr.getLsbD (64 + d.devId) = true → headBad d l 9 hdr body false = none →
        body.length = 2 → wf hdr 32 32 = 2 → (coverBy l 9 (hdr :: body)).isSome = true → (∀ j ∈ maskIslands (startMask body), entitled d 0 j = true) →
        l.taken = [] → l.boot = false → l.origin = none → GivesSome (.start hdr body) s (fun t =>
          t.load = none ∧ t.fld 0x142 R.CFG_ABORT 0 4 = 10 ∧ t.reg64 0x142 R.CFG_ABORT_OFF = BitVec.ofNat 64 fin ∧ t.islands = d.islands))

/-- R504 to R511, R523: a trailer whose length and CRC are right ends the load: an island it took is LOADED with the load's hash; a wrong CRC
aborts it, and so does the command; a boot load runs again from the source that MODE names; a write of the cache register makes every entry
invalid.
R516, R518 to R520, R351: a flash command is taken while none runs and no load reads the flash, and its end gives its bytes, programs,
erases or fails; the scrub unit reads each frame, passes a clean one and repairs the node that differs from a frame whose code verifies. -/
def Obligations.LoadsEndFlashScrub : Prop :=
  (∀ (s : State) (r : Req) (l : LoadSt) (hdr : W128) (body : List W128) (i : Isl) (secs : Sections) (e0 e1 : BitVec 512) (v : Word) (off : Nat),
      let d := s.dev
      let n := i.val
      let w := bodyWord body 0
      let ends (k : LoadSt) : Prop := d.load = some k ∧ k.boxes = [] ∧ hdr.getLsbD (64 + d.devId) = true ∧ headBad d k 10 hdr body false = none
        ∧ body.length = 1 ∧ wf hdr 32 32 = 1 ∧ wf w 32 96 = 0 ∧ k.total = k.pos + 2 ∧ k.boot = false ∧ k.origin = none
      let t1 : Taken := ⟨n, true, boxPrin l, off, secs⟩
      let d0 := d.setReg64 0x142 R.CFG_WORDS (BitVec.ofNat 64 (l.pos + 2))
      (ends l → BitVec.ofNat 32 (wf w 0 32) = ~~~ l.crc → l.hashes = some [] → l.links = [] → l.starts = [] →
        (l.taken = [] → GivesSome (.crcTrailer hdr body) s (fun t => t.load = none ∧ t.fld 0x142 R.CFG_STATUS 0 3 = 0
          ∧ t.flag 0x142 R.CFG_EVENTS 0 = true ∧ t.islands = d.islands))
        ∧ (l.taken = [t1] → l.partialLoad = false → (d.isl n).state = .idle →
            loadFlaw d0 (applyTaken { d0 with load := none } t1) { l with outer := [], pos := l.pos + 2 } = none →
            GivesSome (.crcTrailer hdr body) s (fun t => t.load = none ∧ (t.isl n).state = .loaded ∧ (t.isl n).prBusy = false
              ∧ (t.isl n).hash = hashSections none secs ∧ t.flag 0x142 R.CFG_EVENTS 0 = true)))
      ∧ (ends l → BitVec.ofNat 32 (wf w 0 32) ≠ ~~~ l.crc → l.taken = [] → GivesSome (.crcTrailer hdr body) s (fun t =>
          t.load = none ∧ t.fld 0x142 R.CFG_ABORT 0 4 = 4 ∧ t.flag 0x142 R.CFG_ABORT 31 = true ∧ t.fld 0x142 R.CFG_STATUS 0 3 = 3
          ∧ t.flag 0x142 R.CFG_EVENTS 1 = true ∧ t.islands = d.islands))
      ∧ (admits d r 0x142 R.CFG_CTL = true →
          (d.load = some l → l.taken = [] → l.boot = false → l.origin = none → GivesSome (.cfgAbortCmd r) s (fun t =>
            t.load = none ∧ t.fld 0x142 R.CFG_ABORT 0 4 = 11 ∧ t.reg64 0x142 R.CFG_ABORT_OFF = BitVec.ofNat 64 l.pos ∧ t.islands = d.islands))
          ∧ (d.load = none → Gives (.cfgAbortCmd r) s (d.answer r 0x142 R.CFG_CTL .ok 0))
          ∧ (loadRefused d = true → Gives (.bootRerun r e0 e1) s (d.answer r 0x142 R.CFG_CTL .badState 0))
          ∧ (loadRefused d = false → d.fld 0x142 R.CFG_STATUS 6 2 = 2 → d.flag 0x141 R.FUS_POLICY 2 = false →
              GivesSome (.bootRerun r e0 e1) s (fun t => t.load = some { source := 2, boot := true } ∧ t.fld 0x142 R.CFG_STATUS 0 3 = 1)))
      ∧ (admits d r 0x142 R.CFG_CACHE_CFG = true →
          (granMapped d (v.toNat % 1024) = true → Gives (.cacheCfgWrite r v) s (d.answer r 0x142 R.CFG_CACHE_CFG .badState 0))
          ∧ (granMapped d (v.toNat % 1024) = false → GivesSome (.cacheCfgWrite r v) s (fun t => t.cfgCache = []
              ∧ t.reg 0x142 R.CFG_CACHE_CFG = v &&& 0x800003FF#32 ∧ ∀ j, (t.isl j).cacheValid = false))))
  ∧ (∀ (s : State) (r : Req) (n : Byte) (op a len : Nat) (data : List Byte) (q : Fin 4) (f : Fin 4607) (l : Fin 64),
      let d := s.dev
      let cmd := R.CFG_FLASH_CMD
      let busy : Prop := d.flashCmd.isSome = true ∨ ∃ k, d.load = some k ∧ k.source = 1
      let adr := (d.reg 0x142 R.CFG_FLASH_ADDR).toNat
      let go (c : Instr) (o m : Nat) : Prop :=
        (¬busy → GivesSome c s (fun t => t.flashCmd = some (o, adr, m + 1) ∧ t.fld 0x142 cmd 0 4 = o ∧ t.fld 0x142 cmd 16 8 = m
          ∧ t.flag 0x142 cmd 9 = false ∧ OnlyRegs d t [(0x142, cmd)] ∧ t.out.head? = some (.ans r 0x142 cmd .ok 0)))
        ∧ (busy → Gives c s (d.answer r 0x142 cmd .badState 0))
      let ended (t : Dev) (st b : Nat) : Prop := t.flashCmd = none ∧ t.flag 0x142 cmd 9 = true ∧ t.fld 0x142 cmd 12 4 = st
        ∧ t.flag 0x142 R.CFG_EVENTS b = true
      let node := 0x164 + q.val
      let i := islandAt q.val l.val
      let x := d.frame i f.val
      let next : Word := BitVec.ofNat 32 (l.val + (f.val + 1) * 64 + 2 ^ 24)
      let here : Prop := d.flag node R.SCB_CTL 0 = true ∧ inStandby d = false ∧ d.fld node R.SCB_STATUS 0 6 = l.val
        ∧ d.fld node R.SCB_STATUS 6 13 = f.val ∧ scrubbed d i = true
      (admits d r 0x142 cmd = true →
        go (.flashRead r n) 1 n.toNat ∧ go (.flashProgram r n) 2 n.toNat ∧ go (.erase4k r) 3 0 ∧ go (.erase64k r) 4 0 ∧ go (.readId r) 5 0)
      ∧ (d.flashCmd = some (op, a, len) → len ≤ 256 →
          GivesSome (.flashCmdDone true data) s (fun t => ended t 10 4)
          ∧ (op = 1 → GivesSome (.flashCmdDone false data) s (fun t => ended t 0 3 ∧ ∀ k < len, flashByte t k = data.getD k 0xFF))
          ∧ (op = 2 → (∀ k < len, flashByte d k &&& ~~~(data.getD k 0xFF) = 0) → GivesSome (.flashCmdDone false data) s (fun t => ended t 0 3
              ∧ .flashOp (a / 2 ^ 31) 2 (a % 2 ^ 31) ((List.range len).map (flashByte d)) ∈ t.out))
          ∧ (op = 2 → (∃ k < len, flashByte d k &&& ~~~(data.getD k 0xFF) ≠ 0) → GivesSome (.flashCmdDone false data) s (fun t => ended t 11 4))
          ∧ (op = 3 ∨ op = 4 → GivesSome (.flashCmdDone false data) s (fun t => ended t 0 3 ∧ .flashOp (a / 2 ^ 31) op (a % 2 ^ 31) [] ∈ t.out))
          ∧ (op = 5 → GivesSome (.flashCmdDone false data) s (fun t => ended t 0 3
              ∧ t.reg 0x142 R.CFG_FLASH_ID = BitVec.ofNat 32 (ofBytes (data.take 4)))))
      ∧ (d.flashCmd = none → Gives (.flashCmdDone true data) s d)
      ∧ (d.flag node R.SCB_CTL 0 = false → Gives (.scrubFrame q) s d)
      ∧ (here →
          (x.badA = 0 → x.badB = 0 → x.refBadA = 0 → x.refBadB = 0 → Gives (.scrubFrame q) s
            ((d.asked node i 0x21 1 0 (regAddr d i 0) []).setReg node R.SCB_STATUS next))
          ∧ (frameCode (x.bits ^^^ x.badA) ≠ frameCode x.bits → x.badB = 0 → x.refBadA = 0 → x.refBadB = 0 →
              GivesSome (.scrubFrame q) s (fun t => t.frame i f.val = { x with badA := 0, badB := 0 } ∧ t.flag node R.SCB_EVENTS 0 = true
                ∧ t.reg node R.SCB_STATUS = next
                ∧ t.fld node R.SCB_REPAIRS 0 32 = min (d.fld node R.SCB_REPAIRS 0 32 + popFrame x.badA) (2 ^ 32 - 1)))))

/-- R60, R61, R64, R353: once an evicted island has feathered and nothing of it is outstanding it is erased under a new epoch, which every table takes; the end
of its erasure leaves it IDLE with owner 0, hash 0 and its new epoch, and ends the eviction with the tenant's entry gone; a granule whose
last part is filled reads zero and is no longer blocked. -/
def Obligations.Eviction : Prop :=
  ∀ (s : State) (t : Fin 16) (i : Isl) (w : Wipe) (n : DramIx) (g lo len : Nat),
    let d := s.dev
    let k := i.val
    let x := d.dram n.val
    let tables (u : Dev) : Prop := ∀ m ∈ allNodes, u.epochOf m k = nextEpoch d k
    ((∀ v ∈ d.wipes, v.quiet = true) → Gives (.evictionQuiet t) s d)
    ∧ (d.wipes = [w] → w.quiet = false → w.tenant = t.val → w.islands = [k] → w.grans = [] → w.vfs = [] → w.blocks = [] → w.kind = .evict true →
        (w.stopped = true → unitsBusy d k = false → d.fills = [] → GivesSome (.evictionQuiet t) s (fun u =>
          u.wipes = [{ w with quiet := true, zeroing := [k], filling := [] }] ∧ u.isl k = { d.isl k with zeroising := true } ∧ tables u))
        ∧ (w.stopped = true → unitsBusy d k = true → Gives (.evictionQuiet t) s d)
        ∧ (w.stopped = false → evictFeathered d k = false → Gives (.evictionQuiet t) s d))
    ∧ ((d.isl k).zeroising = false → Gives (.islandZeroised i) s d)
    ∧ ((d.isl k).zeroising = true → (d.isl k).state = .evicting →
        let clean (u : Dev) : Prop := (u.isl k).state = .idle ∧ u.owner k = 0 ∧ (u.isl k).hash = 0 ∧ (u.isl k).count = 0
          ∧ (u.isl k).zeroising = false ∧ u.epoch k = d.epochOf 0x141 k ∧ (∀ c < 4800, u.ff k c = 0) ∧ ∀ f < 4608, u.frame k f = {}
        (d.wipes = [] → GivesSome (.islandZeroised i) s clean)
        ∧ (d.wipes = [w] → w.kind = .evict true → w.tenant = t.val → w.next = none → w.origin = none → w.quiet = true → w.zeroing = [k] →
            w.filling = [] → w.grans = [] → w.vfs = [] → GivesSome (.islandZeroised i) s (fun u => clean u ∧ u.wipes = []
              ∧ entryOf u t.val = none ∧ rootHeld u t.val = false ∧ u.flag 0x141 R.COX_EVENTS 6 = true)))
    ∧ (x.zf = none → Gives (.zfDone n) s d)
    ∧ (x.zf = some g → g < 1024 → x.state = 2 → d.fills = [(n.val, g)] → d.wipes = [] → granRange d g = some (lo, len) → granChannels d g = [n.val] → fillWaits d n.val g = false →
        GivesSome (.zfDone n) s (fun u => (u.dram n.val).zf = none ∧ u.fills = [] ∧ zfMasked u n.val g = false ∧ g ∉ u.unfilled
          ∧ (∀ a, lo ≤ 16 * a → 16 * a < lo + len → tget (u.dram n.val).data 0 a = 0)
          ∧ (∀ a, 16 * a < lo ∨ lo + len ≤ 16 * a → tget (u.dram n.val).data 0 a = tget x.data 0 a)
          ∧ u.flag (0x100 + n.val) R.DDR_EVENTS 6 = true))

/-! ### Crew-wide commands -/

/-- R445, R446: a command that its slot accepts goes out: its first message, with its op, argument and id, to every device of the mask, and
the slot is busy; a busy slot answers BAD_STATE; a command that a tenant may not give, or whose region table lies in memory of this device
that its issuer may not read, ends DENIED.
R238, R446, R447: the answers of a command's only device move it on: its count decides N and sends SET, AT_N ends it OK with N, or sends
COPY for a catch, COPIED releases it, DONE and ACK end it; a refusal ends it with that status, and a device that stays silent leaves it
PARTIAL. A message from anywhere but the controller and the link ports is denied. -/
def Obligations.CrewCommandsAndAnswers : Prop :=
  (∀ (s : State) (r : Req) (t : Fin 16) (tab : List CrewEnt) (flag : Bool),
      let d := s.dev
      let o := R.CRW_CMD_CTL + 0x40 * t.val
      let mask := d.reg64 0x142 (R.CRW_CMD_DEVS + 0x40 * t.val)
      let arg := d.reg64 0x142 (R.CRW_CMD_ARG + 0x40 * t.val)
      let ent (v : Nat) : CrewEnt := (tab.find? (fun e => e.dev = v)).getD { dev := v }
      let id := (d.crewId + 1) % 2 ^ 16
      let starts (c : Instr) (op kind phase : Nat) (stay replay : Bool) (f : Nat → CrewEnt) : Prop := GivesSome c s (fun u =>
        (∃ k, crewCmd u t.val = some k ∧ k.op = op ∧ k.id = id ∧ k.phase = phase ∧ k.devs = bitsIn mask ∧ k.answered = [])
        ∧ (∀ v ∈ bitsIn mask, ∃ m, .crew v kind m ∈ u.out ∧ m.src = d.devId ∧ m.slot = t.val ∧ m.op = op ∧ m.id = id ∧ m.n = arg
            ∧ m.mask = (f v).mask ∧ m.base = (f v).base ∧ m.limit = (f v).limit ∧ m.stay = stay ∧ m.replay = replay)
        ∧ u.flag 0x142 o 5 = true ∧ u.fld 0x142 o 0 4 = op ∧ u.islands = d.islands ∧ u.out.head? = some (.ans r 0x142 o .ok 0))
      let denied (c : Instr) : Prop := GivesSome c s (fun u => crewCmd u t.val = none ∧ u.fld 0x142 o 8 4 = 3
        ∧ u.reg64 0x142 (R.CRW_CMD_RESULT + 0x40 * t.val) = 0 ∧ u.islands = d.islands)
      let busy (c : Instr) : Prop := d.flag 0x142 o 5 = true → Gives c s (d.answer r 0x142 o .badState 0)
      admits d r 0x142 o = true →
      (d.flag 0x142 o 5 = false → mask ≠ 0 → tableHidden d t.val = false →
        ((∀ v ∈ bitsIn mask, (ent v).mask ≠ 0) →
          starts (.crwFeather r t tab) 1 1 1 false false ent ∧ starts (.crwResume r t tab) 2 1 4 false false ent
          ∧ starts (.crwLimit r t tab) 3 1 1 false false ent ∧ starts (.crwStep r t tab) 4 1 1 false false ent
          ∧ starts (.crwCatch r t tab flag) 5 1 1 flag false ent)
        ∧ starts (.crwRestore r t tab flag) 6 9 5 false flag ent
        ∧ (t.val = 0 ∨ bitsOf arg.toNat 0 4 = t.val → starts (.crwEvict r t tab) 7 9 5 false false ent)
        ∧ (t.val = 0 → starts (.crwSetEpoch r t) 8 9 5 false false (fun v => { dev := v })))
      ∧ (d.flag 0x142 o 5 = false → tableHidden d t.val = true → crewCmd d t.val = none →
          denied (.crwFeather r t tab) ∧ denied (.crwResume r t tab) ∧ denied (.crwLimit r t tab) ∧ denied (.crwStep r t tab)
          ∧ denied (.crwCatch r t tab flag) ∧ denied (.crwRestore r t tab flag) ∧ denied (.crwEvict r t tab))
      ∧ (d.flag 0x142 o 5 = false → t.val ≠ 0 → crewCmd d t.val = none →
          denied (.crwSetEpoch r t) ∧ (bitsOf arg.toNat 0 4 ≠ t.val → denied (.crwEvict r t tab)))
      ∧ busy (.crwFeather r t tab) ∧ busy (.crwResume r t tab) ∧ busy (.crwLimit r t tab) ∧ busy (.crwStep r t tab)
      ∧ busy (.crwCatch r t tab flag) ∧ busy (.crwRestore r t tab flag) ∧ busy (.crwEvict r t tab) ∧ busy (.crwSetEpoch r t))
  ∧ (∀ (s : State) (r : Req) (m : CrewMsg) (c : CrewCmd) (e : CrewEnt) (t : Fin 16),
      let d := s.dev
      let o := R.CRW_CMD_CTL + 0x40 * t.val
      let told (u : Dev) (kind : Nat) : Prop := ∃ w, .crew e.dev kind w ∈ u.out ∧ w.id = c.id ∧ w.slot = t.val ∧ w.src = d.devId
      let ended (u : Dev) (st : Status) (n : W64) : Prop := crewCmd u t.val = none ∧ u.fld 0x142 o 8 4 = st.code ∧ u.flag 0x142 o 5 = false
        ∧ u.reg64 0x142 (R.CRW_CMD_N + 0x40 * t.val) = n
        ∧ u.reg64 0x142 (R.CRW_CMD_RESULT + 0x40 * t.val) = if st = .ok then BitVec.ofNat 64 (2 ^ e.dev) else 0
      (r.node = 0x142 → crewCmd d t.val = some c → m.slot = t.val → c.id = m.id → c.ents = [e] → e.dev = m.src → e.dev < 64 → c.devs = [e.dev] →
        c.answered = [] → c.finished = [] → c.good = [] → c.refusals = [] → c.origin = none → m.st = .ok →
        (c.phase = 1 → c.op = 1 → c.counts = [] → GivesSome (.countMsg r m) s (fun u =>
          crewCmd u t.val = some { c with phase := 2, counts := [(m.src, m.n)], n := m.n } ∧ told u 3))
        ∧ (c.phase = 2 → c.op ≠ 5 → GivesSome (.atN r m) s (fun u => ended u .ok c.n))
        ∧ (c.phase = 2 → c.op = 5 → GivesSome (.atN r m) s (fun u => told u 5 ∧ ∃ k, crewCmd u t.val = some k ∧ k.phase = 3 ∧ k.n = c.n))
        ∧ (c.phase = 3 → GivesSome (.copied r m) s (fun u => told u 7 ∧ ∃ k, crewCmd u t.val = some k ∧ k.phase = 4 ∧ k.n = c.n))
        ∧ (c.phase = 4 → GivesSome (.doneMsg r m) s (fun u => ended u .ok c.n))
        ∧ (c.phase = 5 → c.op = 8 → m.op ≠ 10 → GivesSome (.ack r m) s (fun u => ended u .ok c.n))
        ∧ (c.phase = 1 ∨ c.phase = 2 ∨ c.phase = 3 ∨ c.phase = 4 → GivesSome (.crewPhaseTimeout t none) s (fun u =>
            ended u .partly c.n ∧ u.flag 0x142 R.CRW_EVENTS 1 = true)))
      ∧ (r.node = 0x142 → crewCmd d t.val = some c → m.slot = t.val → c.id = m.id → c.ents = [e] → e.dev = m.src → c.op ≤ 5 → c.phase = 1 →
          c.finished = [] → c.origin = none → m.st = .badState → GivesSome (.doneMsg r m) s (fun u => ended u .badState c.n))
      ∧ (r.node = 0x142 → m.op = 10 → Gives (.ack r m) s
          ({ d with epochWait := d.epochWait.filter (fun q => q ≠ (m.src, bitsOf m.n.toNat 8 16, bitsOf m.n.toNat 24 8)) }.answer r 0x142 R.CRW_MSG .ok 0))
      ∧ (r.node < 256 → ∀ i ∈ ([.collect r m, .countMsg r m, .setMsg r m, .atN r m, .copyMsg r m, .copied r m, .msgRelease r m, .doneMsg r m,
            .msgEvict r m, .msgSetEpoch r m, .epoch r m, .ack r m] : List Instr),
          GivesSome i s (fun u => { u with regs := d.regs, out := d.out } = d ∧ u.out.head? = some (.ans r 0x142 R.CRW_MSG .denied 0)
            ∧ u.flag 0x142 R.CRW_EVENTS 4 = true ∧ OnlyRegs d u [(0x142, R.NOC_EVENTS), (0x142, R.CRW_EVENTS)])))

/-- R238, R239, R241, R442, R446: on a device of the mask COLLECT feathers an island that waits at step 1 and reports its count, or DONE
refuses; SET sets the bound to N and releases what is below; COPY takes the shadow copy; RELEASE lets the bounds go; RESTORE and EVICT begin
what they name, or DONE refuses; SET_EPOCH and EPOCH change the crew epoch table; each is acknowledged. -/
def Obligations.CrewMembers : Prop :=
  ∀ (s : State) (r : Req) (m : CrewMsg) (i : Isl) (c : RegionCmd) (k : CatchCmd) (g : RegionCmd) (b : W64) (img : CatchImage) (st : Status)
      (e : TenEntry),
    let d := s.dev
    let n := i.val
    let x := d.isl n
    let own := if r.tenant = 0 then R.STK_HOLD else R.STK_LIMIT
    let other := if r.tenant = 0 then R.STK_LIMIT else R.STK_HOLD
    let from_ : Origin := .message m.src m.slot m.id
    let tells (u : Dev) (kind : Nat) (w : CrewMsg) : Prop := .crew m.src kind { w with src := d.devId, slot := m.slot, id := m.id } ∈ u.out
    let acked (u : Dev) (op : Nat) : Prop := .crew m.src 11 { src := d.devId, slot := m.slot, id := m.id, op := op, n := m.n } ∈ u.out
    let v := bitsOf m.n.toNat 0 6
    let t := bitsOf m.n.toNat 0 4
    let p := bitsOf m.n.toNat 8 16 - 0x110
    r.node = 0x142 →
    (d.regions = [] → d.catches = [] →
      (m.op = 1 → bitsIn m.mask = [n] → r.tenant = 0 ∨ d.owner n = r.tenant → x.state = .running → x.phase = 1 → strokeMode d n = true →
        x.prBusy = false → GivesSome (.collect r m) s (fun u => (u.isl n).state = .feathered ∧ (u.isl n).count = x.count
          ∧ u.reg64 n own = x.count ∧ tells u 2 { src := 0, n := x.count } ∧ u.regions.map (fun c => (c.origin, c.n, c.counted)) = [(from_, none, true)]))
      ∧ (m.op ≠ 5 → m.mask = 0 → Gives (.collect r m) s
          ((d.emit (.crew m.src 8 { src := d.devId, slot := m.slot, id := m.id, n := 0, st := .badState })).answer r 0x142 R.CRW_MSG .ok 0)))
    ∧ (d.regions = [c] → c.origin = from_ → c.ended = none → c.islands = [n] → c.tenant = r.tenant → strokeMode d n = true →
        x.state = .feathered → x.prBusy = false → x.featheredByStandby = false → x.drainActive = false →
        (c.n = none → x.count = m.n → GivesSome (.setMsg r m) s (fun u => (u.isl n).state = .feathered ∧ u.reg64 n own = m.n
          ∧ u.regions.map (·.n) = [some m.n]))
        ∧ (c.n = none → x.count < m.n → x.count < d.reg64 n other → GivesSome (.setMsg r m) s (fun u => (u.isl n).state = .running ∧ u.reg64 n own = m.n
            ∧ u.regions.map (·.n) = [some m.n]))
        ∧ (d.catches = [] → c.saved = [(n, b)] → ¬b ≤ x.count → x.count < d.reg64 n other → GivesSome (.msgRelease r m) s (fun u =>
            u.regions = [] ∧ u.reg64 n own = b ∧ (u.isl n).state = .running)))
    ∧ (d.catches = [k] → k.restore = false → k.origin = from_ → k.copied = false → k.islands = [n] → quiet d n = true →
        catchRegion d k = some g → regionDone d g = true → g.ended = none → logEn d n = false → GivesSome (.copyMsg r m) s (fun u =>
          (u.isl n).shadow.isSome = true ∧ (u.isl n).drainActive = true ∧ u.catches.map (·.copied) = [true] ∧ tells u 6 { src := 0 }))
    ∧ (m.n = allOnes64 →
        (restoreRefused d r.tenant img (img.sections.map (·.island)) = none → img.sections.map (·.island) = [n] → GivesSome (.msgRestore r m img) s
          (fun u => (u.isl n).state = .restoring ∧ u.catches.length = d.catches.length + 1 ∧ acked u m.op))
        ∧ (restoreRefused d r.tenant img (img.sections.map (·.island)) = some st → Gives (.msgRestore r m img) s
            ((d.emit (.crew m.src 8 { src := d.devId, slot := m.slot, id := m.id, n := 0, st := st })).answer r 0x142 R.CRW_MSG .ok 0)))
    ∧ (r.tenant = 0 ∨ r.tenant = t →
          (entryOf d t = none → Gives (.msgEvict r m) s
            ((d.emit (.crew m.src 8 { src := d.devId, slot := m.slot, id := m.id, n := 0, st := .badState })).answer r 0x142 R.CRW_MSG .ok 0))
          ∧ (entryOf d t = some e → coxReady d = true → tenantBusy d t = false → GivesSome (.msgEvict r m) s (fun u =>
              (∀ j ∈ bitsIn e.islands, (d.isl j).state ≠ .idle → (u.isl j).state = .evicting) ∧ acked u m.op
                ∧ u.wipes.map (fun w => (w.tenant, w.islands, w.quiet))
                    = d.wipes.map (fun w => (w.tenant, w.islands, w.quiet)) ++ [(t, bitsIn e.islands, false)])))
    ∧ (r.tenant = 0 → coxReady d = true → (∀ j, mayTrain d j = false) → GivesSome (.msgSetEpoch r m) s (fun u =>
        u.fld 0x142 (R.CRW_DEV_EPOCH + 4 * v) 0 8 = bitsOf m.n.toNat 8 8 ∧ OnlyRegs d u [(0x142, R.CRW_DEV_EPOCH + 4 * v)] ∧ acked u m.op))
    ∧ (nodeKind (bitsOf m.n.toNat 8 16) = some .link → (∀ j, mayTrain d j = false) → GivesSome (.epoch r m) s (fun u =>
          lpEpoch u v p = bitsOf m.n.toNat 24 8 ∧ OnlyRegs d u [(0x142, R.CRW_LP_EPOCH + 32 * v + p / 4 * 4)] ∧ acked u 10))

/-! ### The host interface -/

/-- R61, R462, R464, R467, R477 to R479: enable starts a DISABLED channel whose settings are legal, and which no eviction is taking, with
empty rings and phase 1, BAD_STATE otherwise; disable of a channel that holds nothing ends it, else it drains; reset abandons its descriptors; a channel not given to the
function is denied. A fetch reads up to 8 contiguous descriptors; NOP completes; the oldest finished descriptor's entry is written at cq_tail
while the ring has room, and a write that fails is an ERROR with cause 2. -/
def Obligations.HostChannels : Prop :=
  ∀ (s : State) (r : Req) (f : FnIx) (c : ChanIx) (j : Job) (idx : BitVec 16) (res : Status × Status × Nat × Nat),
    let d := s.dev
    let k := c.val
    let x := d.chan k
    let ctl := fnArea f.val R.HIF_CH_CTL
    let code (lo : Nat) : Nat := bitsOf x.cfg.toNat lo 4
    let legal : Prop := blockShut d f.val k = false ∧ x.sqBase.toNat % 64 = 0 ∧ x.cqBase.toNat % 64 = 0 ∧ code 0 ≤ 12 ∧ code 4 ≤ 12
      ∧ (x.cfg.getLsbD 19 = true → bitsOf x.cfg.toNat 8 11 < d.fld 0x140 (R.HIF_FN_VEC + 0x10 * f.val) 16 12)
    let n := min (min 8 ((x.sqTail + x.sqSize - x.sqHead) % x.sqSize)) (x.sqSize - x.sqHead)
    let tail := (x.cqTail + 1) % x.cqSize
    (admits d r 0x140 ctl = true →
      (selChan d f.val = some k →
        (x.state = 0 → legal → Gives (.hifChEnable r f) s ((d.setChan k { x with
          state := if chansRun d f.val then 1 else 2, sqTail := 0, sqHead := 0, cqTail := 0, cqHead := 0, phase := true, cqFull := false,
          done := 0, fetching := false, jobs := [] }).answer r 0x140 ctl .ok 0))
        ∧ (x.state ≠ 0 ∨ ¬legal → Gives (.hifChEnable r f) s (d.answer r 0x140 ctl .badState 0))
        ∧ (x.state = 1 ∨ x.state = 2 → Gives (.hifChDisable r f) s
            ((d.setChan k { x with state := if x.jobs = [] ∧ x.fetching = false then 0 else 3 }).answer r 0x140 ctl .ok 0))
        ∧ GivesSome (.hifChReset r f) s (fun t => t.chan k = { x with state := 0, jobs := [], fetching := false, cqFull := false }
            ∧ (∀ j, j ≠ k → t.chan j = d.chan j) ∧ t.regs = d.regs ∧ t.out = .ans r 0x140 ctl .ok 0 :: d.out))
      ∧ (selChan d f.val = none → ∀ i ∈ ([.hifChEnable r f, .hifChDisable r f, .hifChReset r f] : List Instr),
          GivesSome i s (fun t => t.chans = d.chans ∧ t.out.head? = some (.ans r 0x140 ctl .denied 0))))
    ∧ (chanFn d k = some f.val → chanRuns d k = true → hostLinkUp d = true → d.hostAccs = [] → fetchReady d f.val x = true →
        mayTag d f.val = true → hifRoom d = true → (takeTurn d 0 f.val k).isSome = true → GivesSome (.descriptorFetch c) s (fun t =>
          t.chan k = { x with fetching := true, sqHead := (x.sqHead + n) % x.sqSize }
          ∧ t.out = .hostRead f.val ((x.sqBase.toNat + 32 * x.sqHead) % 2 ^ 64) (32 * n) 0 :: d.out))
    ∧ (Serves d f.val k j → j.idx = idx.toNat →
        (jobOp j = 0 → j.result = none → Gives (.nopDesc c idx) s (d.setChan k { x with jobs := [endsWith j .ok] }))
        ∧ (j.result = some res → j.cmd = none →
          (x.cqRoom = false → Gives (.descriptorComplete c false) s (d.setChan k { x with cqFull := true }))
          ∧ (x.cqRoom = true → x.cfg.getLsbD 19 = false → GivesSome (.descriptorComplete c false) s (fun t =>
              t.chan k = { x with cqTail := tail, phase := if tail = 0 then !x.phase else x.phase, done := x.done + 1, jobs := [], cqFull := false,
                                  state := if x.state = 3 ∧ x.fetching = false then 0 else x.state }
              ∧ ∃ l, t.out = .hostWrite f.val (x.cqBase.toNat + 16 * x.cqTail) l :: d.out ∧ l.length = 16
                ∧ bitsOf (ofBytes l) 0 16 = idx.toNat ∧ bitsOf (ofBytes l) 16 4 = res.1.code ∧ bitsOf (ofBytes l) 24 8 = jobOp j
                ∧ bitsOf (ofBytes l) 20 4 = (if res.1 = .partly then res.2.1.code else 0)
                ∧ bitsOf (ofBytes l) 32 32 = res.2.2.1 % 2 ^ 32 ∧ bitsOf (ofBytes l) 64 32 = res.2.2.2 % 2 ^ 32
                ∧ (ofBytes l).testBit 127 = x.phase))
          ∧ (x.cqRoom = true → x.err = 0 → GivesSome (.descriptorComplete c true) s (fun t => (t.chan k).state = 4
              ∧ t.flag 0x140 (fnArea f.val R.HIF_FN_EVENTS) 3 = true ∧ (t.chan k).err = 0x8000002A#32))))

/-- R459, R469 to R472, R476: the parts of a copy and of a stream. A copy to the device reads a part up to the next 2 KiB of its device address
from the host and writes what the host answers; a copy to the host reads a part from the device. A stream learns its ring's space, moves at
most 128 entries, and a waiting one asks again. A host answer ends what it was read for, and one that fails, or does not come, sets host_abort.
A timeout ends a descriptor that waits. -/
def Obligations.HostTransfers : Prop :=
  ∀ (s : State) (f : FnIx) (c : ChanIx) (j : Job) (idx : BitVec 16) (a : HostAcc) (data : List Byte) (p : Pkt) (off n first : Nat),
    let d := s.dev
    let k := c.val
    let x := d.chan k
    let left := jobLen j - j.next
    let part (dev : Nat) : Nat := min left (2048 - (dev + j.next) % 2048)
    let prio := jobFld j 16 3
    let page := jobFld j 19 2
    let jobs (t : Dev) (l : List Job) : Prop := t.chan k = { x with jobs := l }
    let sent (m : Nat) : Job := { j with started := true, next := j.next + m, parts := j.parts ++ [(j.next, m)] }
    let turn (dir : Nat) : Prop := partReady x j dir = true ∧ (takeTurn d dir f.val k).isSome = true ∧ (dir = 0 → mayTag d f.val = true)
    (Serves d f.val k j → j.idx = idx.toNat →
      (jobOp j = 1 → turn 0 → GivesSome (.copyH2d c idx) s (fun t => jobs t [sent (part (jobB j))]
        ∧ t.out = .hostRead f.val ((jobA j + j.next) % 2 ^ 64) (part (jobB j)) 0 :: d.out
        ∧ t.hostAccs.map (·.use) = [.part k idx.toNat j.next]))
      ∧ (jobOp j = 2 → turn 1 → (destOf d ((jobA j + j.next) % 2 ^ 52)).isSome = true → GivesSome (.copyD2h c idx) s (fun t =>
          jobs t [sent (part (jobA j))]
          ∧ hifSent d t f.val 1 (part (jobA j) / 16) prio 0 page ((jobA j + j.next) % 2 ^ 52) [] (.copyOut k idx.toNat j.next (part (jobA j)))))
      ∧ (jobOp j = 3 → j.result = none → j.started = false → j.polling = false →
          (destOf d ((jobB j + 0x30) % 2 ^ 52)).isSome = true → GivesSome (.streamIn c idx) s (fun t =>
            jobs t [{ j with started := true, polling := true }]
            ∧ hifSent d t f.val 4 0 prio 1 page ((jobB j + 0x30) % 2 ^ 52) [] (.snap k idx.toNat)))
      ∧ (jobOp j = 3 → j.started = true → turn 0 → GivesSome (.streamIn c idx) s (fun t =>
          let m := 16 * min (min 128 j.est) (left / 16)
          jobs t [sent m] ∧ t.out = .hostRead f.val ((jobA j + j.next) % 2 ^ 64) m 0 :: d.out))
      ∧ (jobOp j = 4 → turn 1 → (destOf d (jobA j % 2 ^ 52)).isSome = true → GivesSome (.streamOut c idx) s (fun t =>
          jobs t [{ j with started := true, parts := [(j.next, 16 * min 128 (left / 16))] }]
          ∧ hifSent d t f.val 0x11 (min 128 (left / 16)) prio 1 page (jobA j % 2 ^ 52) [] (.pop k idx.toNat j.next)))
      ∧ (j.waiting = true → j.result = none → j.polling = false → (destOf d ((jobRing j + 0x30) % 2 ^ 52)).isSome = true →
          GivesSome (.streamPoll c idx) s (fun t => jobs t [{ j with started := true, polling := true }]
            ∧ hifSent d t f.val 4 0 prio 1 page ((jobRing j + 0x30) % 2 ^ 52) [] (.snap k idx.toNat)))
      ∧ (j.started = true → j.result = none → chanHeld d k = false → bitsOf x.timeout.toNat 0 16 ≠ 0 →
          (0x10 ≤ jobOp j → Gives (.channelTimeout c idx) s (d.setChan k { x with jobs := [endsWith j .timeout] }))
          ∧ (jobOp j = 3 ∨ jobOp j = 4 → j.waiting = true → Gives (.channelTimeout c idx) s
              (d.setChan k { x with jobs := [if j.moved = 0 then endsWith j .timeout else endsWith j .partly .timeout j.moved j.next] }))))
    ∧ (d.hostAccs = [a] → a.write = false → a.sent = true →
        (a.use = .fetch k first 1 → chanFn d k = some f.val → x.state = 1 →
          Gives (.hostCompletion a.tag 0 data) s ({ d with hostAccs := [] }.setChan k { x with
            fetching := false, jobs := x.jobs ++ [let y : Job := { idx := first, raw := BitVec.ofNat 256 (ofBytes (data.take 32)) }
                               { y with result := jobCheck d f.val y }] })
          ∧ (x.err = 0 → GivesSome (.hostCompletion a.tag 1 data) s (fun t => t.hostAccs = [] ∧ (t.chan k).state = 4
              ∧ (t.chan k).err = 0x8000001A#32 ∧ t.flag 0x140 R.HIF_EVENTS 3 = true)))
        ∧ (a.use = .part k idx.toNat off → x.jobs = [j] → j.idx = idx.toNat → jobOp j = 1 → j.parts = [(off, n)] → a.fn = f.val → d.hifUses = [] →
            (destOf d ((jobB j + off) % 2 ^ 52)).isSome = true → GivesSome (.hostCompletion a.tag 0 data) s (fun t => t.hostAccs = []
              ∧ t.chans = d.chans
              ∧ hifSent { d with hostAccs := [] } t f.val 8 (n / 16) prio 0 page ((jobB j + off) % 2 ^ 52) (unitsOf (n / 16) data) (.copyIn k idx.toNat off n)))
        ∧ (a.use = .noc p → Gives (.hostCompletion a.tag 0 data) s ({ d with hostAccs := [] }.respond 0x140 p .ok (readUnits p data))
            ∧ GivesSome (.hostTimeout a.tag) s (fun t => t.hostAccs = [] ∧ t.flag 0x140 R.HIF_EVENTS 3 = true
                ∧ (p.rr = true → d.epochOf 0x140 p.src = p.epoch → t.out.head? = some (.pkt ⟨mkHdr p.src 0x140 0x3A p.tag 0 p.prio p.tenant
                    (d.epoch 0x140) p.route 0 false p.addr, [], false⟩)))))
    ∧ (d.hostAccs = [] → Gives (.hostCompletion a.tag 0 data) s d ∧ Gives (.hostTimeout a.tag) s d)

/-- R468, R473 to R476: a control command at the head of a channel runs under a number of its own: a load begins, or is BAD_STATE where none
can; a region command on one island sets its issuer's bound as its sub-op says; a start runs a LOADED island; a catch feathers its island, a
restore makes it RESTORING, an eviction evicts; with crew = 1 the principal's slot sends it to every device, BAD_STATE while it is busy and
DENIED where the region table lies in memory of this device that the principal may not read; a
batch sends its first entry; a log read writes the records held from P on and ends. -/
def Obligations.HostControl : Prop :=
  ∀ (s : State) (f : FnIx) (c : ChanIx) (j : Job) (i : Isl) (e : CrewEnt) (img : CatchImage) (st : Status) (te : TenEntry) (v : Word) (a : BitVec 64),
    let d := s.dev
    let k := c.val
    let x := d.chan k
    let n := i.val
    let y := d.isl n
    let t := fnTenant d f.val
    let own := if t = 0 then R.STK_HOLD else R.STK_LIMIT
    let other := if t = 0 then R.STK_LIMIT else R.STK_HOLD
    let o : Origin := .channel (x.cmds * 65536 + k)
    let on : Job := { j with started := true, cmd := some x.cmds }
    let handed (u : Dev) (l : Job) : Prop := u.chan k = { x with cmds := x.cmds + 1, jobs := [l] }
    let b : W64 := BitVec.ofNat 64 (jobB j)
    let refused (q : Instr) (st : Status) : Prop := GivesSome q s (fun u => handed u (endsWith on st) ∧ u.islands = d.islands ∧ u.regs = d.regs)
    let holdsN (u : Dev) (m : W64) (l : Option W64) : Prop := handed u on ∧ u.reg64 n own = m ∧ u.regions.map (fun g => (g.origin, g.n)) = [(o, l)]
    let mine : Prop := bitsIn e.mask = [n] ∧ strokeMode d n = true ∧ y.prBusy = false ∧ y.featheredByStandby = false ∧ y.drainActive = false
      ∧ d.regions = [] ∧ (t = 0 ∨ d.owner n = t)
    let tabAt := jobA j % 2 ^ 52 + 64 * e.dev
    let hidden : Bool := deviceOf tabAt = d.devId && inDram tabAt && granOwner d (localAddr tabAt / 2 ^ 30) ≠ t
    let crew (q : Instr) (op kind : Nat) : Prop :=
      (d.flag 0x142 (crewReg R.CRW_CMD_CTL t) 5 = true → GivesSome q s (fun u => handed u (endsWith on .badState) ∧ u.regs = d.regs))
      ∧ (d.flag 0x142 (crewReg R.CRW_CMD_CTL t) 5 = false → jobP j = 2 ^ e.dev → e.dev < 64 → hidden = true → GivesSome q s (fun u =>
          handed u on ∧ u.finished = d.finished ++ [⟨o, .denied, 0⟩] ∧ u.islands = d.islands))
      ∧ (d.flag 0x142 (crewReg R.CRW_CMD_CTL t) 5 = false → jobP j = 2 ^ e.dev → e.dev < 64 → hidden = false → e.mask ≠ 0 → (op = 7 → t = 0 ∨ jobB j % 16 = t) →
          GivesSome q s (fun u => handed u on ∧ u.flag 0x142 (crewReg R.CRW_CMD_CTL t) 5 = true
            ∧ (∃ g, crewCmd u t = some g ∧ g.op = op ∧ g.origin = some o ∧ g.devs = [e.dev])
            ∧ ∃ m, .crew e.dev kind m ∈ u.out ∧ m.op = op ∧ m.mask = e.mask ∧ m.n = b))
    Serves d f.val k j → j.result = none → j.started = false → t < 16 →
    (∀ q ∈ ([(.cfgLoad c, 0x10, false), (.prLoad c, 0x11, true)] : List (Instr × Nat × Bool)), jobOp j = q.2.1 →
      (loadRefused d = true → refused q.1 .badState)
      ∧ (loadRefused d = false → GivesSome q.1 s (fun u => handed u on ∧ u.islands = d.islands ∧ u.load = some {
          source := 0, boot := d.awaitHost && !q.2.2, origin := some o, vf := if f.val = 0 then none else some t, partialLoad := q.2.2, limit := some (jobLen j / 16) })))
    ∧ (jobOp j = 0x12 → jobCrew j = false → mine →
        (jobSub j = 1 → y.state = .running → y.phase = 1 → GivesSome (.strokeFeather c .ok [e]) s (fun u =>
          holdsN u y.count (some y.count) ∧ (u.isl n).state = .feathered ∧ (u.isl n).count = y.count))
        ∧ (y.state = .feathered →
          (jobSub j = 2 → y.count < d.reg64 n other → y.count < BitVec.allOnes 64 → GivesSome (.strokeResume c .ok [e]) s (fun u =>
            handed u on ∧ u.reg64 n own = BitVec.allOnes 64 ∧ (u.isl n).state = .running ∧ (u.isl n).count = y.count))
          ∧ (jobSub j = 3 → y.count < b → y.count < d.reg64 n other → GivesSome (.strokeLimit c .ok [e]) s (fun u =>
              holdsN u b (some b) ∧ (u.isl n).state = .running))
          ∧ (jobSub j = 4 → y.count < y.count + b → y.count < d.reg64 n other → GivesSome (.strokeStep c .ok [e]) s (fun u =>
              holdsN u (y.count + b) (some (y.count + b)) ∧ (u.isl n).state = .running)))
        ∧ (jobSub j = 5 → d.owner n = t → y.state = .loaded → GivesSome (.strokeStart c .ok [e]) s (fun u => handed u on
            ∧ (u.isl n).state = .running ∧ (u.isl n).phase = 1 ∧ (u.isl n).count = y.count ∧ u.finished = d.finished ++ [⟨o, .ok, 0⟩]))
        ∧ (jobSub j = 5 → d.owner n ≠ t → refused (.strokeStart c .ok [e]) .denied)
        ∧ (jobSub j = 1 → st ≠ .ok → refused (.strokeFeather c st [e]) st))
    ∧ (jobOp j = 0x13 → jobCrew j = false →
        (mine → y.state = .running → y.phase = 2 → catchRefused d t [n] e.limit none = false → GivesSome (.catchDesc c .ok [e]) s (fun u =>
          holdsN u (y.count + 1) none ∧ u.catches = d.catches ++ [{
            restore := false, tenant := t, islands := [n], base := e.base, origin := o, stay := jobFlag j 5, crew := false }] ∧ (u.isl n) = y))
        ∧ (catchRefused d t (bitsIn e.mask) e.limit none = true → refused (.catchDesc c .ok [e]) .badState))
    ∧ (jobOp j = 0x14 → jobCrew j = false → jobP j = 0 →
        (restoreRefused d t img (img.sections.map (·.island)) = none → img.sections.map (·.island) = [n] →
          GivesSome (.restoreDesc c .ok [e] img []) s (fun u => handed u on ∧ (u.isl n).state = .restoring
            ∧ u.catches.length = d.catches.length + 1))
        ∧ (restoreRefused d t img (img.sections.map (·.island)) = some st → refused (.restoreDesc c .ok [e] img []) st))
    ∧ (jobOp j = 0x15 → jobCrew j = false → t = 0 ∨ t = jobB j →
        (entryOf d (jobB j) = none → refused (.evictDesc c []) .badState)
        ∧ (entryOf d (jobB j) = some te → coxReady d = true → tenantBusy d (jobB j) = false →
            GivesSome (.evictDesc c []) s (fun u => handed u on ∧ (∀ m ∈ bitsIn te.islands, (d.isl m).state ≠ .idle → (u.isl m).state = .evicting)
              ∧ u.wipes.map (fun w => (w.tenant, w.islands, w.quiet))
                  = d.wipes.map (fun w => (w.tenant, w.islands, w.quiet)) ++ [(jobB j, bitsIn te.islands, false)])))
    ∧ (jobCrew j = true →
        (∀ q ∈ ([(.strokeFeather c st [e], 1), (.strokeResume c st [e], 2), (.strokeLimit c st [e], 3), (.strokeStep c st [e], 4)] :
            List (Instr × Nat)), jobOp j = 0x12 → jobSub j = q.2 → crew q.1 q.2 1)
        ∧ (jobOp j = 0x13 → crew (.catchDesc c st [e]) 5 1) ∧ (jobOp j = 0x14 → crew (.restoreDesc c st [e] img []) 6 9)
        ∧ (jobOp j = 0x15 → crew (.evictDesc c [e]) 7 9))
    ∧ (jobOp j = 0x16 → jobLen j = 16 → inControl a.toNat = true → a.toNat % 4 = 0 → a.toNat < 2 ^ 52 → (destOf d a.toNat).isSome = true →
        GivesSome (.regBatch c .ok [(a, v, 1)]) s (fun u => u.chan k = { x with jobs := [{ j with started := true, batch := [(a.toNat, v, 1)] }] }
          ∧ hifSent d u f.val 0xB 1 (jobFld j 16 3) 1 (jobFld j 19 2) a.toNat [v.setWidth 128 <<< (8 * (a.toNat % 16))] (.batch k j.idx 0))
        ∧ GivesSome (.regBatch c .ok [(a, v, 0)]) s (fun u =>
            hifSent d u f.val 4 0 (jobFld j 16 3) 1 (jobFld j 19 2) a.toNat [] (.batch k j.idx 0)))
    ∧ (jobOp j = 0x17 →
        let l := ((logHeld d).filter (fun z => jobP j ≤ z.seq.toNat)).take (jobLen j / 32)
        (l = [] → Gives (.logRead c) s (d.setChan k { x with jobs := [endsWith j .ok .ok 0 (jobP j)] }))
        ∧ (∀ z, l.getLast? = some z → GivesSome (.logRead c) s (fun u =>
            u.chan k = { x with jobs := [endsWith j .ok .ok (32 * l.length) (z.seq.toNat + 1)] }
            ∧ u.out = .hostWrite f.val (jobB j % 2 ^ 64) (l.flatMap (fun z => toBytes (recNum (logFilter t z)) 32)) :: d.out)))

/-- R458, R460, R480 to R484, R609: the Owner's division of windows, blocks and vectors, refused where R458, R460 and R480 say; a vector whose
message may be sent is sent, else it is pending; a function's power state pauses its channels and returns them; a reset disables channels,
abandons their descriptors, clears windows' bases and puts the own device ID back; the link's events. -/
def Obligations.HostFunctions : Prop :=
  ∀ (s : State) (r : Req) (f : FnIx) (w : Fin 256) (b : Fin 64) (v : Word) (vec : Fin 2048) (d3 bme msix fmask pme vf : Bool) (rate width : Fin 5)
      (m : Word),
    let d := s.dev
    let hw := R.HIF_HWIN_FN + 0x10 * w.val
    let blk := R.HIF_BLK_MAP + 4 * b.val
    let fv := R.HIF_FN_VEC + 0x10 * f.val
    let q := vec.val
    let stored (d : Dev) (o : Nat) (rw v : Word) : Word := (d.reg 0x140 o &&& ~~~rw) ||| (v &&& rw)
    let pend (t : Dev) : Bool := t.flag 0x140 (pbaOff q) (q % 32)
    let runs := !d3 && bme && !inStandby d && !standbyStill d
    let cleared (t : Dev) (g : Nat) : Prop := (∀ c, chanFn d c = some g → t.chan c = { cmds := (d.chan c).cmds })
      ∧ (∀ w' < 256, d.flag 0x140 (R.HIF_HWIN_FN + 0x10 * w') 31 = true → d.fld 0x140 (R.HIF_HWIN_FN + 0x10 * w') 0 5 = g →
          t.reg64 0x140 (R.HIF_HWIN_BASE + 0x10 * w') = 0)
      ∧ t.reg 0x140 (fnArea g R.HIF_CREW_SEL) = BitVec.ofNat 32 d.devId ∧ fnStatus t g = 0
    let kept (t : Dev) : Prop := t.islands = d.islands ∧ t.engines = d.engines ∧ t.drams = d.drams
    (admits d r 0x140 hw = true → d.hostAccs = [] → Gives (.hwinFnWrite r w v) s
      (((d.setReg 0x140 hw (stored d hw 0x8000001F v)).setReg64 0x140 (R.HIF_HWIN_BASE + 0x10 * w.val) 0).answer r 0x140 hw .ok 0))
    ∧ (admits d r 0x140 blk = true →
        ((∀ e ∈ d.chans, e.2.state = 0) → (∀ k < 4, blockOk d (4 * b.val + k) (bitsOf v.toNat (8 * k) 5) = true) →
          (∀ z ∈ d.wipes, ∀ k < 4, z.blocks.contains (4 * b.val + k) = false) → Gives (.blkMapWrite r b v) s ((d.setReg 0x140 blk (stored d blk 0x1F1F1F1F v)).answer r 0x140 blk .ok 0))
        ∧ (∀ k < 4, d.fld 0x140 blk (8 * k) 5 ≠ bitsOf v.toNat (8 * k) 5 →
            blockOk d (4 * b.val + k) (bitsOf v.toNat (8 * k) 5) = false ∨ (∃ e ∈ d.chans, e.1 / 256 = 4 * b.val + k ∧ e.2.state ≠ 0)
              ∨ (∃ z ∈ d.wipes, z.blocks.contains (4 * b.val + k) = true) →
            Gives (.blkMapWrite r b v) s (d.answer r 0x140 blk .badState 0)))
    ∧ (admits d r 0x140 fv = true →
        (bitsOf v.toNat 0 11 % 64 = 0 → bitsOf v.toNat 0 11 + bitsOf v.toNat 16 12 ≤ 2048 → (fnStatus d f.val).getLsbD 3 = false →
          f.val = 0 ∨ d.vfEn = false → (∀ g < 17, g ≠ f.val → d.reg 0x140 (R.HIF_FN_VEC + 0x10 * g) = 0) →
          Gives (.fnVecWrite r f v) s ((d.setReg 0x140 fv (stored d fv 0xFFF07FF v)).answer r 0x140 fv .ok 0))
        ∧ (bitsOf v.toNat 0 11 % 64 ≠ 0 ∨ (fnStatus d f.val).getLsbD 3 = true → Gives (.fnVecWrite r f v) s (d.answer r 0x140 fv .badState 0)))
    ∧ (vecFn d q = some f.val →
        (vecClear d f.val q = true →
          ((d.vec q).timer.isSome = true → debugFrozen d (fnTenant d f.val) 6 = false → GivesSome (.moderationTimer vec) s (fun t =>
            t.vec q = {} ∧ pend t = false ∧ t.out.head? = some (.msix f.val q
              (d.reg 0x140 (R.HIF_MSIX_UPPER + 0x10 * q) ++ d.reg 0x140 (R.HIF_MSIX_ADDR + 0x10 * q)) (d.reg 0x140 (R.HIF_MSIX_DATA + 0x10 * q)))))
          ∧ (pend d = true → GivesSome (.msixDeliver vec) s (fun t => pend t = false ∧ t.out.head? = some (.msix f.val q
              (d.reg 0x140 (R.HIF_MSIX_UPPER + 0x10 * q) ++ d.reg 0x140 (R.HIF_MSIX_ADDR + 0x10 * q)) (d.reg 0x140 (R.HIF_MSIX_DATA + 0x10 * q))))))
        ∧ (vecClear d f.val q = false → Gives (.msixDeliver vec) s d
          ∧ ((d.vec q).timer.isSome = true → debugFrozen d (fnTenant d f.val) 6 = false → GivesSome (.moderationTimer vec) s (fun t =>
              t.vec q = {} ∧ pend t = true))))
    ∧ (f.val ≠ 0 → d.hostAccs = [] → GivesSome (.functionPowerChange f d3 bme msix fmask pme vf) s (fun t =>
        t.fld 0x140 (fnArea f.val R.HIF_FN_STATUS) 0 2 = (if d3 then 3 else 0) ∧ (fnStatus t f.val).getLsbD 2 = bme
        ∧ (fnStatus t f.val).getLsbD 3 = msix ∧ (fnStatus t f.val).getLsbD 4 = fmask ∧ t.pmeEn.contains f.val = pme ∧ t.vfEn = d.vfEn
        ∧ OnlyRegs d t [(0x140, fnArea f.val R.HIF_FN_STATUS)]
        ∧ ∀ c, chanFn d c = some f.val → (t.chan c) = { d.chan c with state :=
            if (d.chan c).state = 1 ∧ runs = false then 2 else if (d.chan c).state = 2 ∧ runs = true then 1 else (d.chan c).state }))
    ∧ (∀ i ∈ ([.perst, .hotReset] : List Instr), GivesSome i s (fun t => (∀ g < 17, cleared t g) ∧ t.vfEn = false ∧ kept t
        ∧ t.fld 0x140 R.HIF_BAR_CFG 8 8 = d.fld 0x140 R.HIF_BAR_CFG 0 8))
    ∧ GivesSome (.flr f) s (fun t => cleared t f.val ∧ kept t ∧ t.vfEn = d.vfEn
        ∧ ∀ c g, chanFn d c = some g → g ≠ f.val → t.chan c = d.chan c)
    ∧ GivesSome .vfEnableClear s (fun t => (∀ g, 1 ≤ g → g < 17 → cleared t g) ∧ kept t ∧ t.vfEn = false
        ∧ ∀ c, chanFn d c = some 0 → t.chan c = d.chan c)
    ∧ (hostLinkUp d = true → GivesSome .hostLinkDown s (fun t => t.fld 0x140 R.HIF_LINK 0 17 = 0 ∧ t.flag 0x140 R.HIF_EVENTS 0 = true
        ∧ OnlyRegs d t [(0x140, R.HIF_LINK), (0x140, R.HIF_EVENTS)]))
    ∧ (hostLinkUp d = false → Gives .hostLinkDown s d)
    ∧ (d.hostAccs = [] → GivesSome (.hostLinkUp rate width) s (fun t => hostLinkUp t = true ∧ t.fld 0x140 R.HIF_LINK 0 4 = rate.val + 1
        ∧ t.fld 0x140 R.HIF_LINK 4 5 = 2 ^ width.val ∧ OnlyRegs d t [(0x140, R.HIF_LINK)]))

/-! ### The Cox -/

/-- R534, R541, R546 to R549, R551, R552, R319: the mailbox. IDENTITY answers the identity block; a signed GRANT is entered under the lowest
free number; a session opens by a nonce and the grant key's signature; REVOKE drops the issuer's own grant; ATTEST answers a report, or writes a larger one
where its requester may write; COX_FW
programs an image that it may read and whose signature verifies; SYS_FW takes one whose hash is signed; READMIT gives a new epoch. A slot that is busy, and a Cox
that is neither ready nor in recovery, answer BAD_STATE. -/
def Obligations.CoxCommands : Prop :=
  ∀ (s : State) (r : Req) (slot : Fin 17) (x : CoxImage) (g : Grant) (nonce : BitVec 384) (tm : W64) (ok : Bool),
    let d := s.dev
    let k := slot.val
    let o := mbxOff k
    let buf := mbxBuf d k
    let ended (t : Dev) (st : Status) (n : Nat) : Prop := t.flag 0x141 o 6 = true ∧ t.fld 0x141 o 8 4 = st.code ∧ t.fld 0x141 (o + 4) 16 11 = n
      ∧ t.out.head? = some (.ans r 0x141 o .ok 0)
    let words (t : Dev) (v n : Nat) : Prop := ∀ i < n, t.reg 0x141 (o + 0x400 + 4 * i) = BitVec.ofNat 32 (v / 2 ^ (32 * i))
    let signedBy (c : Instr) (op p : Nat) (P : Dev → Prop) : Prop :=
      let w := (wrapperIn d k op p (keyHashOf d p) false).2
      GivesSome c s (fun t => (w = none → t.reg64 0x141 (counterOff p) = wrapCounter buf ∧ P t)
        ∧ ∀ st, w = some st → ended t st 0 ∧ t.roots = d.roots ∧ t.tenants = d.tenants ∧ t.grants = d.grants)
    let p := payload buf 0 1
    let gi := bytesAt buf 0 1
    let path := bytesAt buf 1 1
    let sig := Config.ecdsaOk g.key (Config.sha384 (nonce.toNat + g.counter.toNat * 2 ^ 384 + path * 2 ^ 448) 57) (BitVec.ofNat 768 (bytesAt buf 2 96))
    let rep := reportBody d k (bytesAt buf 0 48)
    let far := coxRefused d (if k = 16 then 0 else k) (mbxAddr d k) (rep.2 + 96)
    let node := bytesAt buf 0 2
    let roles := payload buf 0 4
    let ws := imageWords d k x.words
    let img := (wordsBytes ws).take (mbxXlen d k)
    admits d r 0x141 o = true →
    (d.flag 0x141 o 6 = false ∨ (coxState d ≠ 1 ∧ coxState d ≠ 2) →
      ∀ c ∈ ([.identity r slot, .tenantEntry r slot, .tenantKey r slot, .ownerKey r slot, .grant r slot, .sessionOpen r slot,
          .sessionResponse r slot, .revoke r slot, .attest r slot, .coxFw r slot x, .sysFw r slot x, .fuseProg r slot ok, .zeroiseK r slot,
          .zeroiseB r slot, .zeroiseD r slot, .readmit r slot, .bbInit r slot] : List Instr), Gives c s (d.answer r 0x141 o .badState 0))
    ∧ (d.flag 0x141 o 6 = true → coxState d = 1 → d.flag 0x141 R.COX_STATUS 10 = false →
      GivesSome (.identity r slot) s (fun t => ended t .ok 340 ∧ words t (identityBlock d) 85)
      ∧ (policy d 4 = true → GivesSome (.grant r slot) s (fun t => ended t .denied 0 ∧ t.grants = d.grants))
      ∧ (policy d 4 = false → policy d 5 = false → p ≤ 15 → d.grants = [] → payload buf 4 4 ≠ 0 → signedBy (.grant r slot) 5 p (fun t =>
          ended t .ok 1 ∧ t.fld 0x141 (o + 0x400) 0 8 = 0 ∧ ∃ x, t.grants = [(0, x)] ∧ x.prin = p ∧ x.paths = payload buf 1 1 % 4
            ∧ x.rights = payload buf 2 2 % 64 ∧ x.islands = BitVec.ofNat 256 (payload buf 8 32) ∧ x.sess = none ∧ x.nonce = none
            ∧ x.until_ = d.dtime + BitVec.ofNat 64 (payload buf 4 4 * 1000000000)))
      ∧ (grantAt d gi = some g → pathOk d k path g = true →
          GivesSome (.sessionOpen r slot) s (fun t => ended t .ok 48 ∧ words t (Config.nonce d.free).toNat 12 ∧ t.free = d.free + 1
            ∧ grantAt t gi = some { g with nonce := some (path, Config.nonce d.free, d.dtime) })
          ∧ (g.nonce = some (path, nonce, tm) → g.sess = none → pathGrant d path = none →
              GivesSome (.sessionResponse r slot) s (fun t => grantAt t gi = some { g with nonce := none, sess := if sig then some path else none }
                ∧ ended t (if sig then .ok else .authFail) 0)))
      ∧ (grantAt d gi = some g → g.prin = k → GivesSome (.revoke r slot) s (fun t => ended t .ok 0 ∧ grantAt t gi = none))
      ∧ (grantAt d gi = some g → g.prin ≠ k → GivesSome (.revoke r slot) s (fun t => ended t .badState 0 ∧ t.grants = d.grants))
      ∧ (rep.2 + 96 ≤ 1024 → GivesSome (.attest r slot) s (fun t => ended t .ok (rep.2 + 96) ∧ words t rep.1 (rep.2 / 4)))
      ∧ (1024 < rep.2 + 96 →
          (mbxXlen d k < rep.2 + 96 → GivesSome (.attest r slot) s (fun t => ended t .badState 0))
          ∧ (rep.2 + 96 ≤ mbxXlen d k →
              (∀ e, far = some e → GivesSome (.attest r slot) s (fun t => ended t e.2 0))
              ∧ (far = none → GivesSome (.attest r slot) s (fun t => ended t .ok 0))))
      ∧ (k = 0 →
          (∀ e, imageRead d k = some e → GivesSome (.coxFw r slot x) s (fun t => ended t e.2 0 ∧ ∀ a, a ∈ t.out → a ∈ d.out ∨ a ≠ .flashOp 0 2 0x100000 img))
          ∧ (imageRead d k = none → x.sigOk = true → coxCount d ≤ x.epoch → GivesSome (.coxFw r slot x) s (fun t => ended t .ok 0 ∧ .flashOp 0 2 0x100000 img ∈ t.out))
          ∧ (imageRead d k = none → x.sigOk = false → GivesSome (.coxFw r slot x) s (fun t => ended t .authFail 0 ∧ t.flag 0x141 R.COX_EVENTS 5 = true))
          ∧ (imageRead d k = none → x.sigOk = true → x.epoch < coxCount d → GivesSome (.coxFw r slot x) s (fun t => ended t .badState 0))
          ∧ (nodeKind node = some .sys → d.flag node R.SCL_SYS_ROLE 6 = true → GivesSome (.readmit r slot) s (fun t => ended t .ok 0
              ∧ t.reg node R.SCL_SYS_ROLE = 0x10#32 ∧ (t.eng (512 + (node - 0x150))).outOfService = false ∧ t.epoch node = nextEpoch d node
              ∧ ∀ m ∈ allNodes, t.epochOf m node = nextEpoch d node))
          ∧ (nodeKind node = some .isl → GivesSome (.readmit r slot) s (fun t => ended t .badState 0 ∧ t.epoch node = d.epoch node)))
      ∧ (k = 0 ∨ k = 16 → policy d 8 = false → (ownerHash d).isSome = true → bitsOf roles 14 17 = 0 → imageRead d k = none → signedBy (.sysFw r slot x) 10 0 (fun t =>
          (Config.sha384 (ofBytes img) img.length = BitVec.ofNat 384 (payload buf 8 48) →
            ended t .ok 0 ∧ t.reg 0x141 R.COX_SYS_FW = BitVec.ofNat 32 (payload buf 4 4 % 2 ^ 24 + 2 ^ 31)
            ∧ (∀ q < 14, roles.testBit q = true → tget t.roleImg (0, []) q = (x.entry, ws))
            ∧ (roles.testBit 31 = true → .flashOp 0 2 0x200000 img ∈ t.out))
          ∧ (Config.sha384 (ofBytes img) img.length ≠ BitVec.ofNat 384 (payload buf 8 48) →
              ended t .authFail 0 ∧ t.reg 0x141 R.COX_SYS_FW = d.reg 0x141 R.COX_SYS_FW ∧ t.roleImg = d.roleImg)))
      ∧ (k = 0 ∨ k = 16 → policy d 8 = false → (ownerHash d).isSome = true → bitsOf roles 14 17 = 0 → ∀ e, imageRead d k = some e →
          signedBy (.sysFw r slot x) 10 0 (fun t => ended t e.2 0 ∧ t.roleImg = d.roleImg)))

/-- R533, R543 to R545, R530, R531, R554: what a signed command does. A tenant entry that holds nothing is applied at once, one that gives
islands waits for their erasure; a root key goes to key memory, battery memory and the seal units; fuses take the bits programmed, a locked
field refuses, and the first Owner hash claims the device; zeroisation drops keys and grants (K), tenants and battery keys too (B), and erases
every island (D); BB_INIT sets the counters. A wrapper that is not accepted changes no asset. -/
def Obligations.CoxAssets : Prop :=
  ∀ (s : State) (r : Req) (slot : Fin 17) (te : TenEntry) (ok : Bool),
    let d := s.dev
    let k := slot.val
    let o := mbxOff k
    let buf := mbxBuf d k
    let ended (t : Dev) (st : Status) : Prop := t.flag 0x141 o 6 = true ∧ t.fld 0x141 o 8 4 = st.code ∧ t.out.head? = some (.ans r 0x141 o .ok 0)
    let signedBy (c : Instr) (op p : Nat) (hash : Option (BitVec 384)) (P : Dev → Prop) : Prop :=
      let w := (wrapperIn d k op p hash (op = 14)).2
      GivesSome c s (fun t => (w = none → (op ≠ 14 → t.reg64 0x141 (counterOff p) = wrapCounter buf) ∧ P t)
        ∧ ∀ st, w = some st → ended t st ∧ t.roots = d.roots ∧ t.tenants = d.tenants ∧ t.grants = d.grants ∧ t.battery = d.battery)
    let held (t : Dev) (p : Nat) (key : BitVec 256) : Prop := tget t.roots none p = some key ∧ tget t.battery.keys none p = some key
      ∧ t.flag 0x141 R.COX_EVENTS 8 = true ∧ ∀ n ∈ [0x160, 0x161, 0x162, 0x163], t.flag n R.CAT_SEAL_KEYS p = true
    let keyed (p : Nat) (t : Dev) : Prop :=
      (∀ key, unwrapIn d buf 0 = some key → held t p key ∧ ended t .ok) ∧ (unwrapIn d buf 0 = none → t.roots = d.roots ∧ ended t .authFail)
    let p := payload buf 0 1
    let e := entryIn buf
    let v := payload buf 4 (wrapLen buf - 4)
    let keyless (t : Dev) : Prop := t.roots = [] ∧ t.grants = [] ∧ t.flag 0x141 R.COX_EVENTS 6 = true
      ∧ ∀ n ∈ [0x160, 0x161, 0x162, 0x163], t.reg n R.CAT_SEAL_KEYS = 0
    let bare (t : Dev) : Prop := keyless t ∧ t.tenants = [] ∧ t.battery.keys = [] ∧ t.versions = []
      ∧ ∀ j < 32, t.reg 0x141 (R.COX_GMAP + 4 * j) = 0
    admits d r 0x141 o = true → d.flag 0x141 o 6 = true → coxState d = 1 →
    (d.flag 0x141 R.COX_STATUS 10 = false →
      ((ownerHash d).isSome = true → k = 0 ∨ k = 16 →
        (d.wipes = [] → entryRefused d (p % 16) e = false → entryOf d (p % 16) = none → e.granules = 0 →
          signedBy (.tenantEntry r slot) 2 0 (ownerHash d) (fun t =>
            (e.islands = 0 → entryOf t (p % 16) = some e ∧ tget t.versions 0 (p % 16) = e.version ∧ t.wipes = [] ∧ ended t .ok
              ∧ t.flag 0x141 R.COX_EVENTS 7 = true)
            ∧ (e.islands ≠ 0 → t.tenants = d.tenants ∧ t.flag 0x141 o 6 = false ∧ (∀ i ∈ bitsIn e.islands, (t.isl i).zeroising = true)
              ∧ t.wipes.map (fun w => (w.tenant, w.zeroing, w.next)) = [(p % 16, bitsIn e.islands, some e)])))
        ∧ (p = 0 → payload buf 4 4 = 0 → policy d 7 = true → ownerIdle d = true → signedBy (.ownerKey r slot) 4 0 (ownerHash d) (keyed 0))
        ∧ (p = 8 → fuseLock d 1 = true → signedBy (.fuseProg r slot ok) 11 0 (ownerHash d) (fun t => ended t .fieldLocked))
        ∧ (p = 8 → fuseLock d 1 = false → v < 2 ^ 256 → signedBy (.fuseProg r slot ok) 11 0 (ownerHash d) (fun t => ended t .ok
            ∧ coxNum t R.FUS_OWNER_GP 8 = coxNum d R.FUS_OWNER_GP 8 ||| v)))
      ∧ ((ownerHash d).isSome = true → d.wipes = [] → 1 ≤ p → p ≤ 15 → entryOf d p = some te → payload buf 4 4 = te.version → rootHeld d p = false →
          signedBy (.tenantKey r slot) 3 p (some te.keyHash) (keyed p))
      ∧ ((ownerHash d) = none → k = 0 ∨ k = 16 → p = 3 → v < 2 ^ 384 → coxNum d R.FUS_OWNER_HASH 12 = 0 →
          signedBy (.fuseProg r slot true) 11 0 (some (BitVec.ofNat 384 (payload buf 4 48))) (fun t => ended t .ok ∧ ownerSlot t = some 0
            ∧ ownerHash t = some (BitVec.ofNat 384 v)))
      ∧ (k = 0 ∨ k = 16 → d.catches = [] → d.wipes = [] →
          (p = 1 → signedBy (.zeroiseK r slot) 12 0 (ownerHash d) (fun t => ended t .ok ∧ keyless t ∧ t.tenants = d.tenants ∧ t.battery = d.battery))
          ∧ (p = 2 → signedBy (.zeroiseB r slot) 12 0 (ownerHash d) (fun t => ended t .ok ∧ bare t))
          ∧ (p = 3 → d.regions = [] → d.load = none → signedBy (.zeroiseD r slot) 12 0 (ownerHash d) (fun t => bare t ∧ t.flag 0x141 o 6 = false
              ∧ t.wipes.map (fun w => (w.kind, w.zeroing)) = [(.all, List.range 256)]
              ∧ ∀ i : Isl, (t.isl i.val).zeroising = true ∧ (t.isl i.val).state = if (d.isl i.val).state = .idle then .idle else .evicting))))
    ∧ (k = 0 ∨ k = 16 → signedBy (.bbInit r slot) 14 0 (ownerHash d) (fun t => ended t .ok ∧ t.battery.low = false
        ∧ (∀ j < 16, t.reg64 0x141 (counterOff j) = BitVec.ofNat 64 (payload buf (8 * j) 8))
        ∧ t.flag 0x141 R.COX_STATUS 9 = true ∧ t.flag 0x141 R.COX_STATUS 10 = false))

/-- R318, R526, R533, R547, R548, R553, R614 to R617: lockstep loss halts the Cox, clears key memory and ends the grants without a session;
tampering halts it, clears keys and grants and, where FUS_POLICY says so, erases every island; a grant and a nonce expire; battery loss is
noted; a failed system engine's role goes to the lowest free spare, or stays unserved; a unit is marked out of service, taken back and
tested. -/
def Obligations.CoxEvents : Prop :=
  ∀ (s : State) (r : Req) (k : Fin 3) (g : Fin 32) (x : Grant) (e : Fin 16) (b : Nat) (u : Nat × Nat) (pass : Bool) (info : BitVec 23),
    let d := s.dev
    let node := 0x150 + e.val
    let role := d.fld node R.SCL_SYS_ROLE 0 4
    let svc := R.COX_SVC_CTL
    let marks : List Instr := [.svcMark r, .svcUnmark r, .svcTest r]
    let tells (t : Dev) (st : Status) : Prop := t.out.head? = some (.ans r 0x141 svc st 0) ∧ t.fld 0x141 svc 4 4 = st.code
    GivesSome .lockstepMismatch s (fun t => coxState t = 3 ∧ t.roots = [] ∧ t.wipes = [] ∧ t.flag 0x141 R.COX_EVENTS 0 = true
        ∧ t.grants = d.grants.filter (fun e => e.2.sess.isSome) ∧ t.tenants = d.tenants
        ∧ (d.load = none → ∀ i, i ∉ d.wakeQueue → t.isl i = d.isl i))
    ∧ GivesSome (.tamper k) s (fun t => coxState t = 4 ∧ t.roots = [] ∧ t.grants = []
        ∧ t.flag 0x141 R.COX_EVENTS (1 + k.val) = true ∧ t.flag 0x141 R.COX_EVENTS 6 = true
        ∧ (policy d 6 = false → t.tenants = d.tenants ∧ (d.load = none → d.catches = [] → ∀ i, i ∉ d.wakeQueue → t.isl i = d.isl i))
        ∧ (policy d 6 = true → t.battery.keys = [] ∧ t.cfgCache = [] ∧ ∀ i : Isl, (t.isl i.val).zeroising = true
            ∧ ((t.isl i.val).state = .evicting ∨ (t.isl i.val).state = .idle)))
    ∧ GivesSome (.grantExpiry g) s (fun t => grantAt t g.val = none ∧ ∀ j, j ≠ g.val → grantAt t j = grantAt d j)
    ∧ (grantAt d g.val = some x → GivesSome (.nonceExpiry g) s (fun t => grantAt t g.val = some { x with nonce := none }
        ∧ { t with grants := d.grants } = d))
    ∧ (grantAt d g.val = none → Gives (.nonceExpiry g) s d)
    ∧ Gives .vbattLow s { d with battery := { d.battery with low := true } }
    ∧ (coxReady d = true → (d.eng (512 + e.val)).run = 5 → (d.eng (512 + e.val)).outOfService = false → roleEngine d role = some e.val →
        (freeSpare d = some b → d.flag node R.SCL_SYS_ROLE 4 = false → GivesSome (.engineSparing e) s (fun t => (t.eng (512 + e.val)).outOfService = true
          ∧ roleEngine t role = some b ∧ t.reg (0x150 + b) R.SCL_SYS_ROLE = BitVec.ofNat 32 (role + 128)
          ∧ t.reg (0x150 + b) 0x10 = (tget d.roleImg (0, []) role).1 &&& 0xFFFFFFFC#32 ∧ t.flag node R.SCL_SYS_ROLE 5 = true ∧ t.flag node R.SCL_SYS_ROLE 6 = true ∧ t.epochOf 0x141 node = nextEpoch d node))
        ∧ (freeSpare d = none → GivesSome (.engineSparing e) s (fun t => (t.eng (512 + e.val)).outOfService = true ∧ roleEngine t role = none)))
    ∧ ((d.eng (512 + e.val)).run ≠ 5 → Gives (.engineSparing e) s d)
    ∧ (admits d r 0x141 svc = true →
        (d.svcTest.isSome = true → ∀ c ∈ marks, Gives c s (d.answer r 0x141 svc .badState 0))
        ∧ (d.svcTest = none → svcUnit d = none → ∀ c ∈ marks, GivesSome c s (fun t => tells t .badState ∧ OnlyRegs d t [(0x141, svc)]))
        ∧ (d.svcTest = none → svcUnit d = some u →
          (svcMarks d u = true → GivesSome (.svcMark r) s (fun t => svcOut t u = true ∧ tells t .ok))
          ∧ (svcMarks d u = false → GivesSome (.svcMark r) s (fun t => svcOut t u = svcOut d u ∧ tells t .badState))
          ∧ (u.1 ≠ 3 → (u.1 < 3 → (d.isl (svcIsland u)).state = .idle) → GivesSome (.svcUnmark r) s (fun t => svcOut t u = false ∧ tells t .ok))
          ∧ (u.1 = 3 → GivesSome (.svcUnmark r) s (fun t => svcOut t u = svcOut d u ∧ tells t .badState))
          ∧ (u.1 ≠ 4 → svcOut d u = true → GivesSome (.svcTest r) s (fun t => t.svcTest = some u ∧ tells t .ok))
          ∧ (u.1 = 4 ∨ svcOut d u = false → GivesSome (.svcTest r) s (fun t => t.svcTest = none ∧ tells t .badState))))
    ∧ (d.svcTest = some u → GivesSome (.svcTestDone pass info) s (fun t => t.svcTest = none
        ∧ tget t.svcPass none (u.1 * 2 ^ 15 + u.2) = some pass
        ∧ t.reg 0x141 R.COX_SVC_INFO = (if pass then 0 else info.setWidth 32 ||| 0x80000000#32) ∧ OnlyRegs d t [(0x141, R.COX_SVC_INFO)]))
    ∧ (d.svcTest = none → Gives (.svcTestDone pass info) s d)

/-! ### JTAG and debug -/

/-- R560 to R563: the JTAG port. An instruction that drives the pins puts the preloaded levels and enables on every bank, none under HIGHZ,
and is recorded; any other gives the pins back to the core. IDCODE answers the identification; SAMPLE/PRELOAD captures and preloads. The
access register writes and reads a word of mailbox slot 16 and keeps its outcome. A stream word nobody awaits is discarded and noted. -/
def Obligations.JtagPort : Prop :=
  ∀ (s : State) (b : Fin 30) (lv en : BitVec 48) (v : W64) (i : Fin 256) (w : W128) (ok : Bool) (l : LoadSt),
    let d := s.dev
    let cells := [(b.val, lv, en)]
    let preloaded (t : Dev) : Prop := tget t.jtag.bscanOut 0 b.val = lv ∧ tget t.jtag.bscanEn 0 b.val = en
    let drives (c : Instr) (ir : Nat) (P : Dev → Prop) : Prop := GivesSome c s (fun t => t.jtag.ir = ir ∧ t.flag 0x143 R.DBG_HUB_EVENTS 3 = true
      ∧ (∀ n < 30, .pins n (tget t.jtag.bscanOut 0 n) (if ir = 4 then 0 else tget t.jtag.bscanEn 0 n) ∈ t.out) ∧ t.islands = d.islands ∧ P t)
    let gives (c : Instr) (ir : Nat) (l : List Emit) : Prop := GivesSome c s (fun t => t.jtag = { d.jtag with ir := ir }
      ∧ (bscanActive d = false → t.out = l ++ d.out)
      ∧ (bscanActive d = true → ∀ n < 30, .pins n (tget d.pinOut 0 n) (padEnable t n) ∈ t.out) ∧ { t with jtag := d.jtag, out := d.out } = d)
    let id : W64 := BitVec.ofNat 64 (d.fld 0x141 (R.FUS_DIE + 4) 21 4 * 2 ^ 28 + 0x9256 * 2 ^ 12 + 0x1A7 * 2 + 1)
    let o := mbxOff 16 + 0x400 + 4 * i.val
    drives (.extest cells) 0 preloaded ∧ drives (.extestPulse cells) 8 preloaded ∧ drives (.extestTrain cells) 9 preloaded
    ∧ drives .clamp 3 (fun t => t.jtag.bscanOut = d.jtag.bscanOut) ∧ drives .highz 4 (fun t => t.jtag.bscanOut = d.jtag.bscanOut)
    ∧ gives .tapReset 2 [] ∧ gives .idcode 2 [.jtag id] ∧ gives .coxMbx 0x10 [] ∧ gives .dbgAccess 0x11 [] ∧ gives .bypass 0xFF []
    ∧ GivesSome (.samplePreload cells) s (fun t => t.jtag.ir = 1 ∧ preloaded t
        ∧ ∀ n < 30, .jtag ((tget d.pinLevels 0 n).setWidth 64 + BitVec.ofNat 64 (n * 2 ^ 48)) ∈ t.out)
    ∧ (awaitsJtag d = false → GivesSome (.cfgStream w ok) s (fun t => t.jtag.ir = 0x12 ∧ t.flag 0x143 R.DBG_HUB_EVENTS 4 = true
        ∧ t.load = d.load ∧ t.out.head? = some (.jtag 0)))
    ∧ (d.load = some l → l.source = 3 → l.boxes = [] → l.words = [] → w.getLsbD (64 + d.devId) = true → 1 ≤ wf w 0 8 → wf w 0 8 ≤ 10 →
        1 ≤ wf w 32 32 → GivesSome (.cfgStream w ok) s (fun t => t.jtag.ir = 0x12 ∧ t.load = some { l with words := [w] } ∧ t.regs = d.regs))
    ∧ (d.jtag.ir = 0x10 → bitsOf v.toNat 44 20 = 0 → bitsOf v.toNat 34 9 = 256 + i.val → admits d jtagReq 0x141 o = true →
        (v.getLsbD 43 = true → GivesSome (.jtagUpdateDr v) s (fun t => t.reg 0x141 o = v.setWidth 32 ∧ OnlyRegs d t [(0x141, o)]
          ∧ t.jtag = { d.jtag with status := 0 }))
        ∧ (v.getLsbD 43 = false → GivesSome (.jtagUpdateDr v) s (fun t => t.regs = d.regs ∧ t.jtag = { d.jtag with data := d.reg 0x141 o, status := 0 }
            ∧ t.out = .jtag ((d.reg 0x141 o).setWidth 64) :: d.out)))
    ∧ (bitsOf v.toNat 44 20 ≠ 0 ∨ (d.jtag.ir ≠ 0x10 ∧ d.jtag.ir ≠ 0x11) → Gives (.jtagUpdateDr v) s d)

/-- R565 to R568, R571, R574, R578: an access port's go issues one request where its session's grant allows it and is DENIED elsewhere; a
flip-flop cluster and a frame word are read, and a cluster written, at once outside a stroke and at its end inside one; arm and disarm; a
debug halt stops its principal's engines and resume releases them. -/
def Obligations.DebugControl : Prop :=
  ∀ (s : State) (r : Req) (k : Fin 18) (c : BitVec 3) (g : Nat) (x : Grant) (i : Isl) (v : Word) (t : Fin 16),
    let d := s.dev
    let ap := apCtl k.val
    let addr := (d.reg64 0x143 (ap + 8)).toNat % 2 ^ 52
    let data := d.reg128 0x143 (ap + 16)
    let wide := c.getLsbD 0
    let write := c.getLsbD 1
    let cmd := if write then (if wide then 8 else 0xB) else if wide then 1 else 4
    let len := if cmd = 4 then 0 else 1
    let body : List W128 := if write then [if wide then data else BitVec.ofNat 128 ((data.toNat % 2 ^ 32) * 2 ^ (8 * (addr % 16)))] else []
    let tag := freeTag d 0x143 k.val
    let n := i.val
    let y := d.isl n
    let sel := v.toNat % 8192
    let clu := d.fld n R.DBG_FF_SEL 0 13
    let full := tget d.holdWr 0 (holdKey r n (R.DBG_FF_DATA + 4)) ++ v
    let done (u : Dev) (st : Status) (o : Nat) : Prop := u.flag n R.DBG_ACC_STATUS 4 = false ∧ u.fld n R.DBG_ACC_STATUS 0 4 = st.code
      ∧ u.out.head? = some (.ans r n o .ok 0)
    let waits (u : Dev) (m : Nat) : Prop := u.flag n R.DBG_ACC_STATUS 4 = true ∧ (u.isl n).stateAccess = m ∧ u.ffs = d.ffs
    let hs := dbgArea R.DBG_HALT_STATUS t.val
    let hc := dbgArea R.DBG_HALT_CTL t.val
    (admits d r 0x143 ap = true →
      (d.flag 0x143 ap 4 = false → Gives (.apGo r k c) s (d.answer r 0x143 ap .badState 0))
      ∧ (d.flag 0x143 ap 4 = true → pathGrant d k.val = none ∨ (pathGrant d k.val = some (g, x) ∧ apAllowed d x wide write addr = false) →
          GivesSome (.apGo r k c) s (fun u => u.flag 0x143 ap 4 = true ∧ u.fld 0x143 ap 8 4 = 3 ∧ u.flag 0x143 R.DBG_HUB_EVENTS 0 = true
            ∧ u.noc = d.noc ∧ u.out.head? = some (.ans r 0x143 ap .ok 0)))
      ∧ (d.flag 0x143 ap 4 = true → pathGrant d k.val = some (g, x) → apAllowed d x wide write addr = true → (destOf d addr).isSome = true →
          GivesSome (.apGo r k c) s (fun u => u.flag 0x143 ap 4 = false ∧ tget u.apTag 0 k.val = tag + 1 ∧ OnlyRegs d u [(0x143, ap)]
            ∧ ∃ dest, destOf d addr = some dest ∧ u.noc = { d.noc with
                inject := d.noc.inject ++ [(0x143, k.val, ⟨mkHdr dest 0x143 cmd tag len 0 x.prin (d.epoch 0x143) 1 0 true addr, body, false⟩)],
                outst := d.noc.outst ++ [⟨0x143, k.val, tag, cmd, addr, answerUnits cmd len⟩] })))
    ∧ (accBusy d n = false →
        (admits d r n R.DBG_FF_SEL = true →
          (4799 < sel → Gives (.ffRead r i v) s (d.answer r n R.DBG_FF_SEL .badState 0))
          ∧ (sel ≤ 4799 → midStroke d n = true → GivesSome (.ffRead r i v) s (fun u => waits u 1))
          ∧ (sel ≤ 4799 → midStroke d n = false → stateServed d n = true → GivesSome (.ffRead r i v) s (fun u =>
              u.reg64 n R.DBG_FF_DATA = d.ff n sel ∧ done u .ok R.DBG_FF_SEL ∧ u.ffs = d.ffs))
          ∧ (sel ≤ 4799 → midStroke d n = false → stateServed d n = false → GivesSome (.ffRead r i v) s (fun u =>
              u.reg64 n R.DBG_FF_DATA = d.reg64 n R.DBG_FF_DATA ∧ done u .badState R.DBG_FF_SEL ∧ u.ffs = d.ffs)))
        ∧ (isPass (regGate d r n R.DBG_FF_DATA) = true →
          (midStroke d n = true → GivesSome (.ffWrite r i v) s (fun u => waits u 2 ∧ u.reg64 n R.DBG_FF_DATA = full))
          ∧ (midStroke d n = false → stateServed d n = true → GivesSome (.ffWrite r i v) s (fun u => u.ff n clu = full
              ∧ (∀ a b, a * 4800 + b ≠ n * 4800 + clu → u.ff a b = d.ff a b) ∧ done u .ok R.DBG_FF_DATA)))
        ∧ (admits d r n R.DBG_FRAME_SEL = true →
          (4607 < sel → Gives (.frameReadback r i v) s (d.answer r n R.DBG_FRAME_SEL .badState 0))
          ∧ (sel ≤ 4607 → y.state = .idle → GivesSome (.frameReadback r i v) s (fun u => done u .badState R.DBG_FRAME_SEL))
          ∧ (sel ≤ 4607 → y.state ≠ .idle → y.state ≠ .evicting → y.state ≠ .sleep → GivesSome (.frameReadback r i v) s (fun u =>
              u.reg128 n R.DBG_FRAME_DATA = (d.frame n sel).value.extractLsb' (128 * (v.toNat / 8192 % 32)) 128
              ∧ done u .ok R.DBG_FRAME_SEL ∧ u.frames = d.frames))))
    ∧ (accBusy d n = true →
        (admits d r n R.DBG_FF_SEL = true → Gives (.ffRead r i v) s (d.answer r n R.DBG_FF_SEL .badState 0))
        ∧ (admits d r n R.DBG_FRAME_SEL = true → Gives (.frameReadback r i v) s (d.answer r n R.DBG_FRAME_SEL .badState 0)))
    ∧ (admits d r n R.DBG_TRG_CTL = true →
        GivesSome (.triggerArm r i) s (fun u => (u.isl n).armed = true ∧ (u.isl n).trgSamples = 0 ∧ (u.isl n).trgA = false
          ∧ (u.isl n).trgNeed = d.fld n R.DBG_TRG_COUNT 0 16 + 1 ∧ u.flag n R.DBG_TRG_STATUS 8 = false ∧ u.flag n R.DBG_TRG_STATUS 9 = true
          ∧ OnlyRegs d u [(n, R.DBG_TRG_STATUS), (n, R.DBG_TRG_COUNT)])
        ∧ GivesSome (.triggerDisarm r i) s (fun u => u.isl n = { y with armed := false } ∧ u.flag n R.DBG_TRG_STATUS 9 = false
            ∧ OnlyRegs d u [(n, R.DBG_TRG_STATUS)]))
    ∧ (admits d r 0x143 hc = true →
        (d.flag 0x143 hs 0 = true → Gives (.debugHalt r t) s (d.answer r 0x143 hc .ok 0))
        ∧ (d.flag 0x143 hs 0 = false → d.flag 0x143 (dbgArea R.DBG_HALT_CFG t.val) 2 = false → GivesSome (.debugHalt r t) s (fun u =>
            u.reg 0x143 hs = 3 ∧ u.islands = d.islands
            ∧ (d.flag 0x143 (dbgArea R.DBG_HALT_CFG t.val) 1 = true → ∀ e < 528, engTenant d e = t.val → (d.eng e).run = 1 →
                (u.eng e).run = 4 ∧ (u.eng e).byDebug = true ∧ (u.eng e).pc = (d.eng e).pc)
            ∧ (∀ e < 528, engTenant d e ≠ t.val → u.eng e = d.eng e)))
        ∧ (d.flag 0x143 hs 0 = false → Gives (.debugResume r t) s (d.answer r 0x143 hc .ok 0))
        ∧ (d.flag 0x143 hs 0 = true → (∀ p ∈ d.islands, p.2.featheredByHalt = false) → GivesSome (.debugResume r t) s (fun u =>
            u.reg 0x143 hs = 0 ∧ u.islands = d.islands
            ∧ ∀ e < 528, engTenant d e = t.val → (d.eng e).byDebug = true → (d.eng e).run = 4 → (u.eng e).run = 1 ∧ (u.eng e).byDebug = false)))

/-! ### The packet network -/

/-- R349, R350, R335, R204, R611: the checks on arrival, in order, of every packet command: a bad crc is discarded and counted, a malformed
packet, one with a reserved command among them, answered MALFORMED, one for another range NO_TARGET, a stale one STALE, one from a source that
may not send it DENIED; none of them does anything else at its target. An answer that the epoch table would not take back is counted instead.
Nothing at a lost node, or at one whose clock stands in Standby, answers. -/
def Obligations.PacketChecks : Prop :=
  ∀ (s : State) (p : Pkt),
    let d := s.dev
    let node := p.dest
    let all : List (Instr × Nat) := [(.rd p, 1), (.rd1 p, 2), (.rd2 p, 3), (.rd4 p, 4), (.wr p, 8), (.wr1 p, 9), (.wr2 p, 0xA), (.wr4 p, 0xB),
      (.swap p, 0xC), (.fadd p, 0xD), (.rpush p, 0x10), (.rpop p, 0x11), (.notify p, 0x14), (.sack p, 0x19)]
    let nocOnly (t : Dev) : Prop :=
      { t with regs := d.regs, out := d.out, noc := { t.noc with flight := d.noc.flight, flightOld := d.noc.flightOld } } = d
      ∧ OnlyRegs d t [(node, R.NOC_DISCARDS), (node, R.NOC_EVENTS), (node, R.NOC_BAD_HDR), (node, R.NOC_BAD_HDR + 4), (node, R.NOC_BAD_INFO)]
    let more (t : Dev) (lo : Nat) : Prop := t.fld node R.NOC_DISCARDS lo 8 = min (d.fld node R.NOC_DISCARDS lo 8 + 1) 255
    let bad (t : Dev) (reason : Nat) : Prop := t.flag node R.NOC_BAD_INFO 31 = true ∧ t.fld node R.NOC_BAD_INFO 8 4 = reason
      ∧ t.fld node R.NOC_BAD_INFO 0 8 = p.crc ∧ t.reg64 node R.NOC_BAD_HDR = p.hdr.setWidth 64
    let refused (t : Dev) (st : Status) : Prop := p.rr = true →
      (st = .stale ∨ d.epochOf node p.src = p.epoch → t.out.head? = some (.pkt ⟨mkHdr p.src node (0x30 + st.code) p.tag 0 p.prio p.tenant
        (d.epoch node) p.route 0 false p.addr, [], false⟩))
      ∧ (st ≠ .stale → d.epochOf node p.src ≠ p.epoch → more t 16 ∧ t.flag node R.NOC_EVENTS 2 = true)
    ∀ c ∈ all,
      (p.cmd ≠ c.2 → knownCmd p.cmd = true → Gives c.1 s d)
      ∧ (p.cmd = c.2 ∨ knownCmd p.cmd = false →
        (nodeLost d node = true ∨ nocStopped d node = true ∨ nodeKind node = none → Gives c.1 s d)
        ∧ (nodeLost d node = false → nocStopped d node = false → (nodeKind node).isSome = true → d.flag node R.NOC_BAD_INFO 31 = false →
          (crcBad p = true → GivesSome c.1 s (fun t => nocOnly t ∧ more t 0 ∧ t.flag node R.NOC_EVENTS 0 = true ∧ bad t 1
            ∧ ∀ e ∈ t.out, e ∉ d.out → ∃ r, e = .ev r))
          ∧ (crcBad p = false → wellFormed p = false → GivesSome c.1 s (fun t => nocOnly t ∧ more t 8 ∧ t.flag node R.NOC_EVENTS 1 = true
              ∧ bad t 2 ∧ (isRsp p.cmd = false → refused t .malformed)))
          ∧ (crcBad p = false → wellFormed p = true →
            (implements node p = false → GivesSome c.1 s (fun t => nocOnly t ∧ more t 8 ∧ refused t .malformed))
            ∧ (implements node p = true →
              (inRange d node p = false → GivesSome c.1 s (fun t => nocOnly t ∧ t.flag node R.NOC_EVENTS 4 = true ∧ refused t .noTarget))
              ∧ (inRange d node p = true → d.epochOf node p.src ≠ p.epoch → GivesSome c.1 s (fun t => nocOnly t ∧ more t 16
                  ∧ t.flag node R.NOC_EVENTS 2 = true ∧ refused t .stale))
              ∧ (inRange d node p = true → d.epochOf node p.src = p.epoch → sourceOk node p = false → GivesSome c.1 s (fun t => nocOnly t
                  ∧ t.flag node R.NOC_EVENTS 3 = true ∧ refused t .denied))))))

/-- R331 to R334, R151 to R153, R218, R351, R367: what a packet does at its target. A control-space request reads or writes the register it
names and answers its status and word, a swap and an add answer the old word; a DRAM request joins its channel's queue; a push joins its
ring's pending entries, a pop takes its oldest; a notification goes to its mailbox, one of another tenant is denied; stroke words join an XI port's buffer, and their return
frees the sender's account; a response ends the request it answers; an internal command does what it names. -/
def Obligations.PacketCommands : Prop :=
  ∀ (s : State) (p : Pkt) (i : Isl) (m : MemIx) (u : W128) (q : Push) (o : Outst) (f : Fin 4608) (bits : Frame) (loc : Nat) (lat k : Nat) (v : Row)
      (n' : Nat) (sh : Shadow),
    let d := s.dev
    let node := p.dest
    let r := reqOf d p
    let off := controlOff p.addr % 0x10000
    let one := regRead d r node off
    let put (x : Dev) (w : Word) := regWrite x r node off w
    let lane := laneOf p.addr one.2.2
    let wrote (x : Dev × Status) (l : List W128) : Dev := respondWrite d x.1 p x.2 l
    let swapped (w : Word) : Dev := if one.2.1 = .ok then respondWrite one.1 (put one.1 w).1 p (put one.1 w).2 [lane] else one.1.respond node p one.2.1 []
    let w (j : Nat) : Word := u.extractLsb' (32 * j) 32
    let words := readWords d r node [off, off + 4, off + 8, off + 12]
    let unit := writeWords d r node [(off + 12, w 3), (off + 8, w 2), (off + 4, w 1), (off, w 0)]
    let now : Prop := deviceOf p.addr = d.devId ∧ inControl p.addr = true ∧ ∀ x ∈ touched p, wordWaits d node x (8 ≤ p.cmd) = false
    let n := i.val
    let b := d.bram (n * 96 + m.val)
    let ring : Prop := node = n ∧ deviceOf p.addr = d.devId ∧ off = 0x4000 + 0x40 * m.val ∧ p.tenant = d.owner n ∧ ringGate d n m.val = none
    let port := p.addr % 32
    let g := xiCfg d n port
    let x := d.xi n port
    let y := d.xo n port
    let full : Bool := x.got + p.len = g.count
    let inside (c : Instr) (code : Nat) (P : Dev → Prop) : Prop := Arrives d p code → node = n → GivesSome c s P
    (now →
      (Arrives d p 4 → Gives (.rd4 p) s (one.1.respond node p one.2.1 [lane]))
      ∧ (Arrives d p 0xB → Gives (.wr4 p) s (wrote (put d (laneIn p)) []))
      ∧ (Arrives d p 0xC → Gives (.swap p) s (swapped (laneIn p)))
      ∧ (Arrives d p 0xD → Gives (.fadd p) s (swapped (one.2.2 + laneIn p)))
      ∧ (Arrives d p 1 → p.len = 1 → Gives (.rd p) s (words.1.respond node p words.2.1 (unitsFrom words.2.2)))
      ∧ (Arrives d p 8 → p.len = 1 → p.data = [u] → Gives (.wr p) s (wrote unit [])))
    ∧ (∀ c ∈ ([(.rd p, 1), (.rd1 p, 2), (.rd2 p, 3), (.rd4 p, 4), (.wr p, 8), (.wr1 p, 9), (.wr2 p, 0xA), (.wr4 p, 0xB), (.swap p, 0xC),
          (.fadd p, 0xD)] : List (Instr × Nat)), Arrives d p c.2 → node = 0x100 + k → k < 8 → deviceOf p.addr = d.devId → inControl p.addr = false →
        dramRefused d k p = none → dramIn (tableFor d p) (localAddr p.addr) = some (n', loc) → d.flag node R.DDR_PART 0 = false →
        (∀ z < 2, entriesUsed (d.dram k) z none < 256) → GivesSome c.1 s (fun t => ∃ q : DramReq, t.dram k = { d.dram k with queue := (d.dram k).queue ++ [q] }
          ∧ q.pkt = p ∧ q.loc = loc ∧ q.len = cmdBytes p ∧ q.got = [] ∧ { t with drams := d.drams, noc := { t.noc with flight := d.noc.flight, flightOld := d.noc.flightOld } } = d))
    ∧ (Arrives d p 0x10 → ring → b.toFabric = true → p.data ≠ [] →
        (heldEntries b + p.len ≤ 512 → GivesSome (.rpush p) s (fun t => let c := t.bram (n * 96 + m.val)
          c.pending = b.pending + p.len ∧ c.pushes = b.pushes ++ [⟨p.len, 0, p⟩] ∧ c.incoming = b.incoming ++ p.data ∧ c.level = b.level ∧ t.rows = d.rows))
        ∧ (512 < heldEntries b + p.len → GivesSome (.rpush p) s (fun t => t.brams = d.brams ∧ answered d t p .badState [])))
    ∧ (Arrives d p 0x11 → ring → b.fromFabric = true → b.ecc = false → GivesSome (.rpop p) s (fun t => let c := t.bram (n * 96 + m.val)
        c.level = b.level - min p.len b.level ∧ t.rows = d.rows ∧ answered d t p .ok ((List.range (min p.len b.level)).map (fun j =>
          (d.row (n * 96 + m.val) ((b.rd + j) % 512)).setWidth 128))))
    ∧ (b.pushes = [q] → q.written = 0 → q.n = 1 → b.incoming = [u] → b.isRing = true → b.ecc = false → (d.isl n).shadow = none →
        isJoined d n = false → GivesSome (.ringPushWritten i m) s (fun t => let c := t.bram (n * 96 + m.val)
          c.wr = ptrAdd 512 b.wr 1 ∧ c.incoming = [] ∧ c.pushes = [{ q with written := 1 }] ∧ c.pending = b.pending
          ∧ (t.row (n * 96 + m.val) (b.wr % 512)).setWidth 128 = u))
    ∧ (b.pushes = [] → Gives (.ringPushWritten i m) s d)
    ∧ (Arrives d p 0x14 →
        (node = n → p.tenant = d.owner n → unitGate d node 0x37F0 = none → GivesSome (.notify p) s (fun t => (t.eng (2 * n)).mbx = true ∧ t.regs = d.regs
          ∧ ∀ j < 4, (t.eng (2 * n)).sramWord false (0xFC00 / 4 + 0xFC + j) = (p.data.headD 0).extractLsb' (32 * j) 32))
        ∧ (node = n → p.tenant ≠ d.owner n → GivesSome (.notify p) s (fun t => t.engines = d.engines ∧ t.islands = d.islands
            ∧ t.flag n R.NOC_EVENTS 3 = true))
        ∧ (node = 0x140 → d.chans = [] → GivesSome (.notify p) s (fun t =>
            (t.reg 0x140 R.HIF_NOTIFY_DROPS).toNat = min ((d.reg 0x140 R.HIF_NOTIFY_DROPS).toNat + 1) (2 ^ 32 - 1)
            ∧ OnlyRegs d t [(0x140, R.HIF_NOTIFY_DROPS)])))
    ∧ (node = n → pathOpen d n = true →
        (Arrives d p 0x18 → g.en = true → g.peer = p.tenant → g.free = false → p.addr.testBit 21 = false → p.addr / 32 % 65536 = x.expect % 65536 →
          x.got + p.len ≤ g.count → GivesSome (.stroke p) s (fun t => t.regs = d.regs
            ∧ t.xi n port = { x with buf := x.buf ++ p.data.map (fun w => (x.expect, w)), got := if full then 0 else x.got + p.len,
                                     expect := if full then x.expect + 1 else x.expect }))
        ∧ (Arrives d p 0x19 → (xoCfg d n port).en = true → (xoCfg d n port).free = false →
            let freed := d.setXo n port { y with undel := y.undel - p.addr / 32 % 256, outst := y.outst - p.addr / 2 ^ 13 % 256 }
            strokeMode d n = false ∨ (d.isl n).phase ≠ 3 ∨ xoBlocked freed n ≠ [] → Gives (.sack p) s freed))
    ∧ (isRsp p.cmd = true → Arrives d p p.cmd → node = n →
        (outstOf d p = some o → o.unit = 0 → o.node = n → GivesSome (.rsp p lat) s (fun t =>
          t.noc.outst = d.noc.outst.filter (fun z => !(z.node = n && z.unit = 0 && z.tag = o.tag))
          ∧ (t.isl n).fab.beats = (d.isl n).fab.beats ++ (true, p.hdr, decide (p.len = 0)) :: p.data.zipIdx.map (fun e => (false, e.1, decide (e.2 + 1 = p.len)))
          ∧ (tget t.noc.stat {} (statKey n 0)).np = (tget d.noc.stat {} (statKey n 0)).np + 1))
        ∧ (outstOf d p = none → GivesSome (.rsp p lat) s (fun t => t.noc = d.noc ∧ t.flag n R.NOC_EVENTS 5 = true
            ∧ t.fld n R.NOC_DISCARDS 24 8 = min (d.fld n R.NOC_DISCARDS 24 8 + 1) 255)))
    ∧ inside (.frwr p f bits) 0x20 (fun t => t.frame n f.val = { bits := bits } ∧ answered d t p .ok [])
    ∧ inside (.frrd p f) 0x21 (fun t => let y := d.frame n f.val
        answered d t p .ok (frameUnits (y.bits ^^^ y.badA) ++ frameUnits (y.bits ^^^ y.badB)) ∧ { t with out := d.out } = d)
    ∧ inside (.frfix p f) 0x22 (fun t => t.frame n f.val = { d.frame n f.val with badA := 0, badB := 0 } ∧ answered d t p .ok [])
    ∧ ((d.isl n).shadow = some sh → (d.isl n).preserveHold = false → sh.preserve = [] → sh.part < 5 → drainWaits d n = false → inside (.catrd p) 0x24 (fun t =>
        (t.isl n).shadow = some { sh with part := sh.part + 1 } ∧ answered d t p .ok []))
    ∧ ((d.isl n).state = .restoring → inside (.catwr p false k v) 0x25 (fun t => t.ff n (k % 4800) = v.setWidth 64 ∧ answered d t p .ok [])
        ∧ inside (.catwr p true k v) 0x25 (fun t => t.row (n * 96 + k / 512 % 96) (k % 512) = v ∧ answered d t p .ok []))
    ∧ ((d.isl n).state ≠ .restoring → inside (.catwr p false k v) 0x25 (fun t => { t with out := d.out } = d ∧ answered d t p .badState []))
    ∧ inside (.zero p) 0x28 (fun t => t.isl n = { d.isl n with zeroising := true } ∧ answered d t p .ok [])

/-- R325, R331, R337, R339, R340, R344, R346, R347, R355 to R357, R568: the network's own steps. A packet that may be at an input port with
room waits at the output its route names: west first, then east or along its column, where there are more credits, then its node; a corrected
unit is noted; an aged one is marked; the oldest request of a unit leaves once its tenant's bucket holds a token and
is charged for it and its answer; a timed-out request ends and its tag is kept until released; a window's counts move to the registers; the
fabric port's request is issued or answered MALFORMED; an island's pending access is served outside a stroke. -/
def Obligations.NetworkFlow : Prop :=
  ∀ (s : State) (r : Isl) (inPort : Fin 7) (cn ce cs : Fin 17) (p : Pkt) (k dx dy port : Nat) (w : Waiting) (node tag : Fin 1024) (unit : Nat)
      (o : Outst) (i : Isl) (data : List W128),
    let d := s.dev
    let x := r.val % 16
    let y := r.val / 16
    let route : Instr := .packetRoute r inPort cn ce cs p
    let ch := channelOf p.cmd
    let here := { (if Config.freeBit d.free r.val then d.nocEvent r.val 7 0 0 else d) with free := d.free + 1 }
    let enters : Prop := nodeLost d r.val = false ∧ standbyNow d = false ∧ 0 < unitsFree d r.val inPort.val ch
    let goes (out : Nat) : Prop :=
      Gives route s { here with noc := { d.noc with waiting := d.noc.waiting ++ [⟨r.val, inPort.val, out, false, p⟩] } }
    let n := i.val
    let fab := (d.isl n).fab
    let q : Pkt := ⟨p.hdr, data, false⟩
    let ask : Instr := .fabricPortRequest i p.hdr data
    let legal := fabCmd q.cmd && lengthOk q.cmd q.len && rrOk q.cmd q.rr && q.route < 2 && q.page < 3 && unitsOk q && addrRuleOk q
    let st := tget d.noc.stat {} (statKey node.val 0)
    let clu := d.fld n R.DBG_FF_SEL 0 13
    (nodeLost d r.val = true ∨ standbyNow d = true ∨ unitsFree d r.val inPort.val ch = 0 → Gives route s d)
    ∧ (enters → crcBad p = false → mayEnter r.val inPort.val p = false → Gives route s d)
    ∧ (enters → crcBad p = false → mayEnter r.val inPort.val p = true →
        (exitOf p = some (dx, dy, port) →
          (dx < x → goes 3) ∧ (dx = x → dy = y → goes port)
          ∧ (dx = x → y < dy → goes 0) ∧ (dx = x → dy < y → goes 2) ∧ (x < dx → p.route = 1 ∨ dy = y → goes 1)
          ∧ (x < dx → y < dy → p.route ≠ 1 → isStrokeCmd p.cmd = false → 
            goes (if min ce.val (creditsOf d r.val ch 1) < min cn.val (creditsOf d r.val ch 0) then 0 else 1)))
        ∧ (exitOf p = none → isRequest p.cmd = true → p.rr = true → d.epochOf r.val p.src = p.epoch → GivesSome route s (fun t => t.noc = d.noc ∧ t.flag r.val R.NOC_EVENTS 4 = true
            ∧ t.out.head? = some (.pkt ⟨mkHdr p.src r.val 0x38 p.tag 0 p.prio p.tenant (d.epoch r.val) p.route 0 false p.addr, [], false⟩))))
    ∧ (enters → crcBad p = true → GivesSome route s (fun t => t.noc = d.noc ∧ t.flag r.val R.NOC_EVENTS 0 = true
        ∧ (Config.freeBit d.free r.val = true → t.flag r.val R.NOC_EVENTS 7 = true)))
    ∧ (d.noc.waiting[k]? = some w → GivesSome (.packetAged k) s (fun t => t.noc.waiting[k]? = some { w with aged := true }
        ∧ (∀ j, j ≠ k → t.noc.waiting[j]? = d.noc.waiting[j]?) ∧ { t with noc := d.noc } = d))
    ∧ (d.noc.inject = [(node.val, unit, p)] →
        (injectShut d node.val unit = false → nocStopped d p.dest = false → 5120 ≤ bucketOf d node.val p.tenant →
          GivesSome (.requestInject 0) s (fun t => t.noc.inject = [] ∧ t.out = .pkt p :: d.out
            ∧ bucketOf t node.val p.tenant = bucketOf d node.val p.tenant
                - 5120 * (1 + p.data.length + (if p.rr then 1 + answerUnits p.cmd p.len else 0) : Nat)
            ∧ (tget t.noc.stat {} (statKey node.val unit)).reqs = (tget d.noc.stat {} (statKey node.val unit)).reqs + 1))
        ∧ (bucketOf d node.val p.tenant < 5120 ∨ injectShut d node.val unit = true → Gives (.requestInject 0) s d))
    ∧ (d.noc.outst = [o] → o.node = node.val → o.tag = tag.val → o.unit = 0 → d.noc.inject = [] → node.val < 256 →
        GivesSome (.nocTimeout node tag) s (fun t => t.noc.outst = [] ∧ t.noc.quarantine = d.noc.quarantine ++ [(node.val, 0, tag.val)]
          ∧ t.flag node.val R.NOC_EVENTS 6 = true ∧ (t.isl node.val).fab.beats = (d.isl node.val).fab.beats
              ++ [(true, fabHdr d node.val tag.val .timeout o.addr, true)]))
    ∧ (d.noc.outst = [] → Gives (.nocTimeout node tag) s d)
    ∧ Gives (.tagRelease node tag) s { d with noc := { d.noc with
        quarantine := d.noc.quarantine.filter (fun e => !(e.1 = node.val && e.2.2 = tag.val)) } }
    ∧ ((nodeKind node.val).isSome = true → debugFrozen d (statTenant d node.val 0) 1 = false → GivesSome (.statWindowEnd node) s (fun t =>
        t.reg node.val R.NOC_ST_REQS = BitVec.ofNat 32 st.reqs ∧ t.reg node.val (R.NOC_ST_REQS + 4) = BitVec.ofNat 32 st.np
        ∧ t.reg64 node.val (R.NOC_ST_REQS + 8) = BitVec.ofNat 64 st.bytes ∧ tget t.noc.stat {} (statKey node.val 0) = {}))
    ∧ (nodeKind node.val = none → Gives (.statWindowEnd node) s d)
    ∧ (fabOn d n = true → fab.inHdr = none → fabReady d n p.hdr = true →
        (legal = true → (destOf d q.addr).isSome = true → GivesSome ask s (fun t =>
          (∃ dest, destOf d q.addr = some dest ∧ t.noc.inject = d.noc.inject ++ [(n, 0, ⟨mkHdr dest n q.cmd (q.tag % 256) q.len q.prio (d.owner n) (d.epoch n)
            q.route q.page q.rr q.addr, data, false⟩)])
          ∧ (q.rr = true → (t.isl n).fab = { fab with hdrs := fab.hdrs + 1, units := fab.units + answerUnits q.cmd q.len })
          ∧ (q.rr = false → t.isl n = d.isl n)))
        ∧ (legal = false → GivesSome ask s (fun t => t.noc = d.noc
            ∧ (t.isl n).fab.beats = fab.beats ++ [(true, fabHdr d n (q.tag % 256) .malformed q.addr, true)])))
    ∧ (fabReady d n p.hdr = false → Gives ask s d)
    ∧ (midStroke d n = true → Gives (.stateAccessServed i) s d)
    ∧ (midStroke d n = false → (d.isl n).phase ≠ 4 → (d.isl n).stateAccess = 1 → stateServed d n = true → GivesSome (.stateAccessServed i) s (fun t =>
        t.reg64 n R.DBG_FF_DATA = d.ff n clu ∧ t.flag n R.DBG_ACC_STATUS 4 = false ∧ t.fld n R.DBG_ACC_STATUS 0 4 = 0
        ∧ (t.isl n).stateAccess = 0 ∧ t.ffs = d.ffs))

/-! ### Host accesses through the BARs, and the clocks of joined islands -/

/-- R33 to R38, R456, R457, R463: a BAR0 access becomes one packet to the register it names, under its function's tenant, by route 01; an access
port of another path is DENIED and an address without a node reads all ones; no answer in time reads all ones. A BAR2 access becomes packets to
DRAM, a read behind the function's unanswered writes waits, and one outside the function's granules reads 0. A doorbell stores both indices of a
channel of its function, and every other form has the effect its case names. -/
def Obligations.BarAccesses : Prop :=
  ∀ (s : State) (r : Req) (f : FnIx) (tag : BitVec 10) (w : BitVec 25) (v : Word) (x : Fin 1024) (off : BitVec 40) (a : Nat) (b0 b1 b2 b3 : Byte)
      (c : ChanIx) (page : BitVec 12) (whole : Bool),
    let d := s.dev
    let o := 4 * w.toNat
    let dev := if o < 2 ^ 26 then d.devId else d.fld 0x140 (fnArea f.val R.HIF_CREW_SEL) 0 6
    let addr := dev * 2 ^ 46 + 0x3FFFFC000000 + o % 2 ^ 26
    let err := fnArea f.val R.HIF_FN_ERR
    let events := fnArea f.val R.HIF_FN_EVENTS
    let noted (t : Dev) (at_ : Nat) (word : Word) : Prop := t.flag 0x140 events 0 = true
      ∧ (d.flag 0x140 err 31 = false → t.reg 0x140 err = word ∧ t.reg64 0x140 (fnArea f.val R.HIF_FN_ERR_ADDR) = BitVec.ofNat 64 at_)
      ∧ (d.flag 0x140 err 31 = true → t.reg 0x140 err = d.reg 0x140 err) ∧ t.noc = d.noc
    let word := unitsOf 1 [b0, b1, b2, b3]
    let k := c.val
    let y := d.chan k
    let tail := bitsOf v.toNat 0 16
    let head := bitsOf v.toNat 16 16
    let bell : Instr := .doorbell f c page whole v
    let ignored (t : Dev) (reg : Nat) : Prop := t.chans = d.chans ∧ OnlyRegs d t [(0x140, reg)]
    (bar0Port f.val o = true →
      GivesSome (.hostBar0Read f tag w) s (fun t => t.out.head? = some (.pcieRead f.val tag.toNat 0) ∧ noted t o 0x80000003#32
        ∧ t.flag 0x140 R.NOC_EVENTS 3 = true)
      ∧ GivesSome (.hostBar0Write f w v) s (fun t => noted t o 0x80000023#32 ∧ t.flag 0x140 R.NOC_EVENTS 3 = true))
    ∧ (bar0Port f.val o = false → hifRoom d = true →
      ((destOf d addr).isSome = true →
        GivesSome (.hostBar0Read f tag w) s (fun t => hifSent d t f.val 4 0 0 1 0 addr [] (.bar0Read f.val tag.toNat o) ∧ t.regs = d.regs)
        ∧ GivesSome (.hostBar0Write f w v) s (fun t => hifSent d t f.val 0xB 1 0 1 0 addr [laneOf addr v] (.bar0Write f.val o) ∧ t.regs = d.regs))
      ∧ (destOf d addr = none →
        GivesSome (.hostBar0Read f tag w) s (fun t => t.out.head? = some (.pcieRead f.val tag.toNat 0xFFFFFFFF#32) ∧ noted t o 0x80000008#32)
        ∧ GivesSome (.hostBar0Write f w v) s (fun t => noted t o 0x80000028#32)))
    ∧ (d.hifUses = [(x.val, .bar0Read f.val tag.toNat o)] → GivesSome (.mmioTimeout x) s (fun t => t.hifUses = []
        ∧ t.out.head? = some (.pcieRead f.val tag.toNat 0xFFFFFFFF#32) ∧ noted t o 0x80000009#32))
    ∧ (off.toNat + 4 ≤ bar2Size d f.val → off.toNat % 4 = 0 → hifRoom d = true →
      (bar2Addr d f.val off.toNat = some a → (destOf d (a % 2 ^ 52)).isSome = true →
        (bar2Writing d f.val = false → GivesSome (.hostBar2Read f tag off 4) s (fun t => t.regs = d.regs
          ∧ hifSent d t f.val 4 0 0 1 0 (a % 2 ^ 52) [] (.bar2Read f.val tag.toNat off.toNat 4)))
        ∧ (bar2Writing d f.val = true → Gives (.hostBar2Read f tag off 4) s
            { d with bar2Waits := d.bar2Waits ++ [⟨f.val, tag.toNat, off.toNat, 4⟩] })
        ∧ GivesSome (.hostBar2Write f off [some b0, some b1, some b2, some b3]) s (fun t => t.regs = d.regs
          ∧ hifSent d t f.val 0xB 1 0 1 0 (a % 2 ^ 52) (word.map (fun u => BitVec.ofNat 128 (u.toNat * 2 ^ (8 * (a % 16))))) (.bar2Write f.val off.toNat)))
      ∧ Gives (.hostBar2Write f off [none, none, none, none]) s d
      ∧ (bar2Addr d f.val off.toNat = none →
        GivesSome (.hostBar2Read f tag off 4) s (fun t => t.out.head? = some (.pcieData f.val tag.toNat off.toNat [0, 0, 0, 0])
          ∧ noted t off.toNat 0x80000013#32 ∧ t.flag 0x140 R.NOC_EVENTS 3 = true)
        ∧ GivesSome (.hostBar2Write f off [some b0, some b1, some b2, some b3]) s (fun t => noted t off.toNat 0x80000033#32)))
    ∧ (admits d r 0x140 (fnArea f.val R.HIF_CREW_SEL) = true → Gives (.hifCrewSelWrite r f v) s
        ((d.setReg 0x140 (fnArea f.val R.HIF_CREW_SEL) ((d.reg 0x140 (fnArea f.val R.HIF_CREW_SEL) &&& ~~~0x3F#32) ||| (v &&& 0x3F#32))).answer r 0x140
          (fnArea f.val R.HIF_CREW_SEL) .ok 0))
    ∧ (chanFn d k ≠ some f.val → GivesSome bell s (fun t => ignored t events ∧ t.flag 0x140 events 1 = true))
    ∧ (chanFn d k = some f.val →
      (page ≠ 0 ∨ whole = false → GivesSome bell s (fun t => ignored t events ∧ t.flag 0x140 events 2 = true))
      ∧ (page = 0 → whole = true →
        ((y.state ≠ 1 ∧ y.state ≠ 2) ∨ blockShut d f.val k = true → GivesSome bell s (fun t => ignored t (fnArea f.val R.HIF_FN_DB_IGNORED)
          ∧ (t.reg 0x140 (fnArea f.val R.HIF_FN_DB_IGNORED)).toNat = min ((d.reg 0x140 (fnArea f.val R.HIF_FN_DB_IGNORED)).toNat + 1) (2 ^ 32 - 1)))
        ∧ (y.state = 1 ∨ y.state = 2 → blockShut d f.val k = false →
          (tail < y.sqSize → head < y.cqSize → Gives bell s (d.setChan k { y with sqTail := tail, cqHead := head }))
          ∧ (y.sqSize ≤ tail ∨ y.cqSize ≤ head → y.err.getLsbD 31 = false → GivesSome bell s (fun t => (t.chan k).state = 4
              ∧ bitsOf (t.chan k).err.toNat 4 4 = 3 ∧ (t.chan k).err.getLsbD 31 = true ∧ t.flag 0x140 events 3 = true)))))

/-- R79 to R81, R83, R87, R119, R127, R164: an edge of group clocks gives every flip-flop of the group's running island the value its cell
computed from the state before the edge, where no transient stands before it; an edge of a wire clock that reaches its pin does so for the
flip-flops of its pair, or for its slice, and an asserted asynchronous SR forces its pair. An island with no design, and a pin that no wire
clock reaches, keep their state. -/
def Obligations.JoinedClocks : Prop :=
  ∀ (s : State) (i : Isl) (g : BitVec 6) (clocks : BitVec 16) (rising : Bool) (clu : Fin 4800) (p : Fin 16) (m : MemIx) (a : SliceIx),
    let d := s.dev
    let n := i.val
    let r := clu.val / 50
    let c := clu.val % 50
    let key := n * 48 + a.val
    let z := d.slice key
    let x : EdgeSet := { clocks := passedClocks d g clocks rising &&& (d.isl n).setup.gcMask, rising := rising, joined := true }
    let bit (t : Dev) (j k : Nat) : Bool := (t.ff n j).getLsbD k
    let others (t : Dev) : Prop := (∀ j, j ≠ clu.val → t.ff n j = d.ff n j)
      ∧ (∀ k, k < 64 → k / 4 ≠ p.val → bit t clu.val k = bit d clu.val k) ∧ t.brams = d.brams ∧ t.slices = d.slices ∧ t.regs = d.regs
    let settled (j k : Nat) : Prop := (n * 4800 + j) * 64 + k ∉ d.transients
    let takes (t : Dev) (f : Nat → Nat → Option Bool) : Prop :=
      ∀ j < 4, settled clu.val (4 * p.val + j) → bit t clu.val (4 * p.val + j) = (f (2 * p.val + j / 2) (j % 2)).getD (bit d clu.val (4 * p.val + j))
    (clockedIslands d g = [n] → unconfigured d n = false → GivesSome (.groupClockEdge g clocks rising [] [] [] []) s (fun t =>
        (∀ row ∈ configuredRows d n, ∀ col < 50, ∀ k < 64, settled (row * 50 + col) k → bit t (row * 50 + col) k
          = (ffNext d n row col (k / 2) (k % 2) x).getD (bit d (row * 50 + col) k))
        ∧ (∀ u, u < 256 → u ≠ n → ∀ j < 4800, t.ff u j = d.ff u j)))
    ∧ (clockedIslands d g = [] → GivesSome (.groupClockEdge g clocks rising [] [] [] []) s (fun t => { t with gcEdges := d.gcEdges } = d))
    ∧ (inIsland (d.isl n).state = false → Gives (.wireClockEdge i (.pair clu p) rising) s d)
    ∧ (inIsland (d.isl n).state = true → nodeLost d n = false →
      (pairFld d n r c p.val 0 2 = 2 → rising = decide (pairFld d n r c p.val 4 1 = 0) → pairFld d n r c p.val 5 2 ≠ 2 →
        ckEdge d (.pin n r c (2 * p.val * 12 + 11)) rising = true → GivesSome (.wireClockEdge i (.pair clu p) rising) s (fun t => takes t (fun k f => ffEdge d n r c k f) ∧ others t))
      ∧ (pairFld d n r c p.val 0 2 ≠ 2 ∨ rising ≠ decide (pairFld d n r c p.val 4 1 = 0)
          ∨ ckEdge d (.pin n r c (2 * p.val * 12 + 11)) rising = false →
        GivesSome (.wireClockEdge i (.pair clu p) rising) s (fun t => t.ffs = d.ffs ∧ others t))
      ∧ (z.inUse = true → z.ckmode = 2 → ckEdge d (.sitePin n (.slice a.val) 190) true = true → GivesSome (.wireClockEdge i (.slice a) true) s (fun t =>
          t.slice key = (sliceEdge z (slicePins d n a.val) (pcinOf d n a.val)).1 ∧ t.ffs = d.ffs ∧ (∀ j, j ≠ key → t.slice j = d.slice j)))
      ∧ GivesSome (.wireClockEdge i (.mem m true) false) s (fun t => t.brams = d.brams ∧ t.rows = d.rows ∧ t.ffs = d.ffs)
      ∧ (isJoined d n = true → pairFld d n r c p.val 5 2 = 2 → GivesSome (.asyncSetReset i clu p) s (fun t =>
          (∀ j < 4, bit t clu.val (4 * p.val + j) = if srNet d n r c p.val then srval d n r c (2 * p.val + j / 2) (j % 2)
            else bit d clu.val (4 * p.val + j)) ∧ others t)))

/-- R80: at an active edge of its clock a flip-flop takes srval where its SR is asynchronous and asserted, or synchronous and asserted; keeps its
value (`none`) where its CE is in use and deasserted; and takes D otherwise. SR is active high, and srmode 11 behaves as 00. -/
def Obligations.FlipFlopNextValue : Prop :=
  ∀ (d : Dev) (i r c k f : Nat) (x : EdgeSet),
    let p := k / 2
    let mode := pairFld d i r c p 5 2
    let async := mode = 2 ∧ (if x.joined then srNet d i r c p else (d.isl i).srSet.contains ((r * 50 + c) * 16 + p)) = true
    let sync := mode = 1 ∧ srNet d i r c p = true
    let held := cellFld d i r c k 78 1 = 1 ∧ ceNet d i r c k = false
    let next := ffNext d i r c k f x
    pairFld d i r c p 0 2 = 1 → x.line d i r c (pairFld d i r c p 2 2) = true →
    (x.joined = true → x.rising = decide (pairFld d i r c p 4 1 = 0)) →
    (async → next = some (srval d i r c k f))
    ∧ (¬ async → sync → next = some (srval d i r c k f))
    ∧ (¬ async → ¬ sync → held → next = none)
    ∧ (¬ async → ¬ sync → ¬ held → next = some (ffData d i r c k f))

/-! ### Arithmetic slices -/

/-- R167: in single mode the product of the pre-adder's value and B is exact: read as signed where either is signed, else as unsigned, M is that
product, which lies in the 73-bit range of its kind; the accumulator takes M extended to 128 bits, by sign where M is signed and by zero otherwise. -/
def Obligations.ProductExact : Prop :=
  ∀ (s : Slice) (a b d : BitVec 36), s.dual = false →
    let m := product s a b d
    let exact := preAdd s a d * asInt s.bsign b
    let signed := s.adSigned || s.bsign
    asInt signed m = exact ∧ mValue s m 0 = exact
    ∧ (signed = true → -2 ^ 72 ≤ exact ∧ exact < 2 ^ 72)
    ∧ (signed = false → 0 ≤ exact ∧ exact < 2 ^ 73)
    ∧ BitVec.ofInt 128 (mValue s m 0) = if signed then m.signExtend 128 else m.setWidth 128

/-- R181: rsb counts the consecutive bits below the sign that equal it: from 0 to 127 of 128 bits, 127 for 0 and all ones, and from 0 to 63 of a
lane; a value read as signed with rsb = e fits 128 - e bits, or 64 - e in a lane, and no fewer. -/
def Obligations.RedundantSignBits : Prop :=
  (∀ (v : BitVec 128) (n : Nat), rsb v = n ↔ n ≤ 127 ∧ (∀ k < n, v.getLsbD (126 - k) = v.msb) ∧ (n = 127 ∨ v.getLsbD (126 - n) ≠ v.msb))
  ∧ (∀ (v : BitVec 64) (n : Nat), rsb v = n ↔ n ≤ 63 ∧ (∀ k < n, v.getLsbD (62 - k) = v.msb) ∧ (n = 63 ∨ v.getLsbD (62 - n) ≠ v.msb))
  ∧ rsb (0 : BitVec 128) = 127 ∧ rsb (BitVec.allOnes 128) = 127
  ∧ (∀ v : BitVec 128, fits true (128 - rsb v) v.toInt = true ∧ (rsb v < 127 → fits true (127 - rsb v) v.toInt = false))
  ∧ ∀ v : BitVec 64, fits true (64 - rsb v) v.toInt = true ∧ (rsb v < 63 → fits true (63 - rsb v) v.toInt = false)

/-! ### The whole machine -/

/-- R330: the header's crc is CRC-8 by x^8 + x^2 + x + 1 from 0 with no final XOR over bytes 0 to 14, byte 0 first, each from its most significant
bit; the all-zero header carries a valid crc and is still malformed. A header built from field values reads each of them back, its reserved bits
are 0 and its crc matches. -/
def Obligations.PacketHeaderFields : Prop :=
  ∀ (dest src tag : BitVec 10) (cmd : BitVec 6) (len epoch : Byte) (prio : BitVec 3) (tenant : BitVec 4) (route page : BitVec 2) (rr : Bool)
      (addr : BitVec 52) (data : List W128) (h : W128),
    let p : Pkt := ⟨mkHdr dest.toNat src.toNat cmd.toNat tag.toNat len.toNat prio.toNat tenant.toNat epoch.toNat route.toNat page.toNat rr addr.toNat,
      data, false⟩
    let crc : Byte := (List.range 120).foldl
      (fun c b => (c <<< 1) ^^^ (if c.getLsbD 7 != h.getLsbD (8 * (b / 8) + 7 - b % 8) then 0x07#8 else 0)) 0
    (crcBad ⟨h, data, false⟩ = true ↔ h.extractLsb' 120 8 ≠ crc)
    ∧ crcBad ⟨0, data, false⟩ = false ∧ wellFormed ⟨0, data, false⟩ = false
    ∧ p.dest = dest.toNat ∧ p.src = src.toNat ∧ p.cmd = cmd.toNat ∧ p.tag = tag.toNat ∧ p.len = len.toNat ∧ p.prio = prio.toNat
    ∧ p.tenant = tenant.toNat ∧ p.epoch = epoch.toNat ∧ p.route = route.toNat ∧ p.page = page.toNat ∧ p.rr = rr ∧ p.addr = addr.toNat
    ∧ p.rsvd = 0 ∧ crcBad p = false

/-- R97, R204, R262, R303, R340, R357, R443: with no command waiting a step is one nanosecond: device time advances at the device's rate,
buckets refill, CYCLE counts in every engine that is clocked and out of reset, the wire registers of islands outside a stroke capture, each
router output grants a packet, and each seal unit serves a unit of the work that waits in it. Where no seal unit has work and nothing is caught,
restored or replayed, nothing else changes. (What a step does on an empty queue is the model's choice, log entry 2.) -/
def Obligations.IdleTick : Prop :=
  ∀ (s : State) (j : SealJob), s.pending = [] →
    let d := s.dev
    let f := d.tickFrac + (1000000 + d.ppm).toNat
    let timed (t : Dev) : Prop := step s = .next { s with dev := t } ∧ t.dtime = d.dtime + BitVec.ofNat 64 (f / 1000000) ∧ t.tickFrac = f % 1000000
    d.catches = [] → (∀ e ∈ d.islands, e.2.replay = none) →
    (d.sealQ = [] → ∃ t : Dev, timed t
      ∧ { t with dtime := d.dtime, tickFrac := d.tickFrac, noc := d.noc, out := d.out, ffUpset := d.ffUpset, engines := d.engines,
                 islands := d.islands } = d
      ∧ (∀ e, t.eng e = { d.eng e with cycles := (d.eng e).cycles + if (d.eng e).run ≠ 0 ∧ engClocked d e = true then 1 else 0 })
      ∧ (∀ i, t.isl i = { d.isl i with wireRegs := (t.isl i).wireRegs })
      ∧ (∀ i, (d.isl i).setup.fabricRoute = true ∨ islClocked d i = false → t.isl i = d.isl i)
      ∧ t.noc.inject = d.noc.inject ∧ t.noc.outst = d.noc.outst ∧ (d.noc.waiting = [] → t.out = d.out)
      ∧ (∀ w, standbyNow d = false → d.noc.waiting = [w] → t.noc.waiting = [] ∧ t.out = .routed w.router w.outPort w.pkt :: d.out))
    ∧ (d.sealQ = [j] → j.q < 4 → j.owner < 16 → standbyNow d = false → d.sealOut = [] → ∃ t : Dev, timed t ∧ t.sealQ = []
      ∧ t.reg64 (0x160 + j.q) (R.CAT_SEAL_BYTES + 8 * j.owner)
          = d.reg64 (0x160 + j.q) (R.CAT_SEAL_BYTES + 8 * j.owner) + BitVec.ofNat 64 j.bytes)

/-- R195, R263, R443: after reset no command waits, device time is 0, every island is IDLE with count 0 and no owner, no catch has been
numbered, no packet is under way, nothing is mapped, and every engine is in reset. -/
def Obligations.ResetState : Prop :=
  let d := State.reset.dev
  State.reset.pending = [] ∧ d.dtime = 0
    ∧ (∀ i : Isl, (d.isl i.val).state = .idle ∧ (d.isl i.val).count = 0 ∧ d.owner i.val = 0)
    ∧ (∀ t : Fin 16, tget d.catchIds 0 t.val = 0 ∧ entryOf d t.val = none)
    ∧ d.noc.inject = [] ∧ d.noc.outst = [] ∧ d.noc.waiting = [] ∧ (∀ e : Fin 516, (d.eng e.val).run = 0)
    ∧ (∀ c : ChanIx, (d.chan c.val).state = 0) ∧ d.load = none

/-- R597: the event log holds no more than its slots after reset. -/
def Obligations.LogBoundedAtReset : Prop :=
  LogBounded State.reset

/-- Every command has an effect: it answers a next state, and leaves the commands that wait as they are. -/
def Obligations.EveryCommandCompletes : Prop :=
  ∀ (c : Instr) (s : State), ∃ t, exec c s = .next t ∧ t.pending = s.pending

/-- R597, R600: no step lets the event log outgrow its slots: the first records keep 256, the circular part 1,792. -/
def Obligations.LogBoundedKept : Prop :=
  ∀ (s t : State), LogBounded s → step s = .next t → LogBounded t
end

