-- ==== Sys2Proof/Laws/Tables.lean ====
section
/-! SUPPORT. Tables: a read after a write gives the value written, a write leaves every other key alone, and keeps the canonical
form. -/

namespace Sys2Proof.Laws

open Sys2Proof.Machine

variable {α : Type}

@[simp] theorem tget_nil (d : α) (k : Nat) : tget [] d k = d := rfl

theorem tget_cons (i k : Nat) (w d : α) (r : Tab α) : tget ((i, w) :: r) d k = if i = k then w else tget r d k := rfl

theorem tget_filter_self (t : Tab α) (d : α) (k : Nat) : tget (t.filter (fun e => e.1 ≠ k)) d k = d := by
  induction t with
  | nil => rfl
  | cons e r ih =>
    obtain ⟨i, w⟩ := e
    by_cases h : i = k
    · simp_all
    · simp_all [tget_cons]

theorem tget_filter_other (t : Tab α) (d : α) (k j : Nat) (h : j ≠ k) :
    tget (t.filter (fun e => e.1 ≠ k)) d j = tget t d j := by
  induction t with
  | nil => rfl
  | cons e r ih =>
    obtain ⟨i, w⟩ := e
    by_cases hk : i = k
    · have : ¬ i = j := by omega
      simp_all [tget_cons]
    · simp_all [tget_cons]

theorem tget_tins_self (t : Tab α) (d v : α) (k : Nat) (h : ∀ e ∈ t, e.1 ≠ k) : tget (tins k v t) d k = v := by
  induction t with
  | nil => simp [tins, tget_cons]
  | cons e r ih =>
    obtain ⟨i, w⟩ := e
    have hi : i ≠ k := h (i, w) (by simp)
    by_cases hk : k < i
    · simp [tins, hk, tget_cons]
    · simp only [tins, hk, if_false, tget_cons, hi]
      exact ih (fun e he => h e (by simp [he]))

theorem tget_tins_other (t : Tab α) (d v : α) (k j : Nat) (h : j ≠ k) : tget (tins k v t) d j = tget t d j := by
  have hk : ¬ k = j := fun e => h e.symm
  induction t with
  | nil => simp [tins, tget_cons, hk]
  | cons e r ih =>
    obtain ⟨i, w⟩ := e
    by_cases hi : k < i
    · simp [tins, hi, tget_cons, hk]
    · simp [tins, hi, tget_cons, ih]

variable [DecidableEq α]

/-- A read after a write gives the value written. -/
@[simp] theorem tget_tput_self (t : Tab α) (d v : α) (k : Nat) : tget (tput t d k v) d k = v := by
  unfold tput
  by_cases hv : v = d
  · simp only [hv, if_true]; exact tget_filter_self t d k
  · simp only [hv, if_false]
    refine tget_tins_self _ d v k (fun e he => ?_)
    simpa using (List.mem_filter.1 he).2

/-- A write leaves every other key alone. -/
theorem tget_tput_other (t : Tab α) (d d' v : α) (k j : Nat) (h : j ≠ k) : tget (tput t d k v) d' j = tget t d' j := by
  unfold tput
  by_cases hv : v = d
  · simp only [hv, if_true]; exact tget_filter_other t d' k j h
  · simp only [hv, if_false]
    rw [tget_tins_other _ _ _ _ _ h]
    exact tget_filter_other t d' k j h

theorem tget_tput (t : Tab α) (d v : α) (k j : Nat) : tget (tput t d k v) d j = if j = k then v else tget t d j := by
  by_cases h : j = k
  · subst h; simp
  · simp [h, tget_tput_other]

/-- Two writes at one key are the later one. -/
@[simp] theorem tput_tput (t : Tab α) (d v w : α) (k : Nat) : tput (tput t d k v) d k w = tput t d k w := by
  have hf : ∀ u : Tab α, (∀ e ∈ u, e.1 ≠ k) → (tins k v u).filter (fun e => decide (e.1 ≠ k)) = u := by
    intro u hu
    induction u with
    | nil => simp [tins]
    | cons e r ih =>
      obtain ⟨i, x⟩ := e
      have hi : i ≠ k := hu (i, x) (by simp)
      have hr : ∀ e ∈ r, e.1 ≠ k := fun e he => hu e (by simp [he])
      by_cases hk : k < i
      · simp only [tins, hk, if_true]
        rw [List.filter_cons_of_neg (by simp), List.filter_eq_self.2]
        intro e he
        simpa using hu e he
      · simp only [tins, hk, if_false]
        rw [List.filter_cons_of_pos (by simpa using hi), ih hr]
  have hr : (tput t d k v).filter (fun e => decide (e.1 ≠ k)) = t.filter (fun e => decide (e.1 ≠ k)) := by
    unfold tput
    by_cases hv : v = d
    · simp [hv]
    · simp only [hv, if_false]
      exact hf _ (fun e he => by simpa using (List.mem_filter.1 he).2)
  show (if w = d then _ else _) = (if w = d then _ else _)
  rw [hr]

/-! ### The canonical form -/

theorem rising_iff_pairwise (t : Tab α) : Memory.rising t = true ↔ t.Pairwise (fun a b => a.1 < b.1) := by
  induction t with
  | nil => simp [Memory.rising]
  | cons e r ih =>
    cases r with
    | nil => simp [Memory.rising]
    | cons f q =>
      simp only [Memory.rising, Bool.and_eq_true, decide_eq_true_eq, ih, List.pairwise_cons]
      constructor
      · rintro ⟨h, hp, hq⟩
        refine ⟨fun a ha => ?_, hp, hq⟩
        rcases List.mem_cons.1 ha with rfl | ha
        · exact h
        · exact Nat.lt_trans h (hp a ha)
      · rintro ⟨h, hp, hq⟩
        exact ⟨h f (by simp), hp, hq⟩

theorem mem_tins (t : Tab α) (k : Nat) (v : α) (e : Nat × α) : e ∈ tins k v t ↔ e = (k, v) ∨ e ∈ t := by
  induction t with
  | nil => simp [tins]
  | cons f r ih =>
    obtain ⟨i, w⟩ := f
    by_cases h : k < i
    · simp [tins, h]
    · simp [tins, h, ih, or_left_comm]

theorem tins_pairwise (t : Tab α) (k : Nat) (v : α) (h : t.Pairwise (fun a b => a.1 < b.1)) (hk : ∀ e ∈ t, e.1 ≠ k) :
    (tins k v t).Pairwise (fun a b => a.1 < b.1) := by
  induction t with
  | nil => simp [tins]
  | cons e r ih =>
    obtain ⟨i, w⟩ := e
    have hp := List.pairwise_cons.1 h
    by_cases hi : k < i
    · simp only [tins, hi, if_true]
      refine List.pairwise_cons.2 ⟨fun a ha => ?_, h⟩
      rcases List.mem_cons.1 ha with rfl | ha
      · exact hi
      · exact Nat.lt_trans hi (hp.1 a ha)
    · simp only [tins, hi, if_false]
      refine List.pairwise_cons.2 ⟨fun a ha => ?_, ih hp.2 (fun e he => hk e (by simp [he]))⟩
      rcases (mem_tins r k v a).1 ha with rfl | ha
      · have : i ≠ k := hk (i, w) (by simp)
        simp only at *
        omega
      · exact hp.1 a ha

/-- Storing keeps the canonical form. -/
theorem tput_wf (t : Tab α) (d v : α) (k : Nat) (h : Memory.wf t d = true) : Memory.wf (tput t d k v) d = true := by
  simp only [Memory.wf, Bool.and_eq_true, rising_iff_pairwise, List.all_eq_true, decide_eq_true_eq] at h ⊢
  obtain ⟨hp, hd⟩ := h
  have hf := hp.filter (fun e => decide (e.1 ≠ k))
  have hfd : ∀ e ∈ t.filter (fun e => decide (e.1 ≠ k)), e.2 ≠ d := fun e he => hd e (List.mem_filter.1 he).1
  have hfk : ∀ e ∈ t.filter (fun e => decide (e.1 ≠ k)), e.1 ≠ k := fun e he => by simpa using (List.mem_filter.1 he).2
  unfold tput
  by_cases hv : v = d
  · simp only [hv, if_true]; exact ⟨hf, hfd⟩
  · simp only [hv, if_false]
    refine ⟨tins_pairwise _ _ _ hf hfk, fun e he => ?_⟩
    rcases (mem_tins _ _ _ _).1 he with rfl | he
    · exact hv
    · exact hfd e he

/-- Dropping keys keeps the canonical form. -/
theorem tdrop_wf (t : Tab α) (d : α) (p : Nat → Bool) (h : Memory.wf t d = true) : Memory.wf (tdrop t p) d = true := by
  simp only [Memory.wf, Bool.and_eq_true, rising_iff_pairwise, List.all_eq_true, decide_eq_true_eq] at h ⊢
  exact ⟨h.1.filter _, fun e he => h.2 e (List.mem_filter.1 he).1⟩

theorem nil_wf (d : α) : Memory.wf ([] : Tab α) d = true := rfl

end Sys2Proof.Laws
end

