-- ==== Sys2Proof/Laws/State.lean ====
section
/-! SUPPORT. What each update of the device leaves alone, field by field (true by rfl), and what reads give after writes. -/

namespace Sys2Proof.Laws

open Sys2Proof.Machine

variable (d : Dev)

/-! #### setReg -/

@[simp] theorem setReg_dtime (n o : Nat) (v : Word) : (d.setReg n o v).dtime = d.dtime := rfl
@[simp] theorem setReg_free (n o : Nat) (v : Word) : (d.setReg n o v).free = d.free := rfl
@[simp] theorem setReg_out (n o : Nat) (v : Word) : (d.setReg n o v).out = d.out := rfl
@[simp] theorem setReg_holdRd (n o : Nat) (v : Word) : (d.setReg n o v).holdRd = d.holdRd := rfl
@[simp] theorem setReg_holdWr (n o : Nat) (v : Word) : (d.setReg n o v).holdWr = d.holdWr := rfl
@[simp] theorem setReg_noc (n o : Nat) (v : Word) : (d.setReg n o v).noc = d.noc := rfl
@[simp] theorem setReg_brams (n o : Nat) (v : Word) : (d.setReg n o v).brams = d.brams := rfl
@[simp] theorem setReg_rows (n o : Nat) (v : Word) : (d.setReg n o v).rows = d.rows := rfl
@[simp] theorem setReg_slices (n o : Nat) (v : Word) : (d.setReg n o v).slices = d.slices := rfl
@[simp] theorem setReg_islands (n o : Nat) (v : Word) : (d.setReg n o v).islands = d.islands := rfl
@[simp] theorem setReg_frames (n o : Nat) (v : Word) : (d.setReg n o v).frames = d.frames := rfl
@[simp] theorem setReg_ffs (n o : Nat) (v : Word) : (d.setReg n o v).ffs = d.ffs := rfl
@[simp] theorem setReg_ffUpset (n o : Nat) (v : Word) : (d.setReg n o v).ffUpset = d.ffUpset := rfl
@[simp] theorem setReg_transients (n o : Nat) (v : Word) : (d.setReg n o v).transients = d.transients := rfl
@[simp] theorem setReg_regions (n o : Nat) (v : Word) : (d.setReg n o v).regions = d.regions := rfl
@[simp] theorem setReg_catches (n o : Nat) (v : Word) : (d.setReg n o v).catches = d.catches := rfl
@[simp] theorem setReg_pinLevels (n o : Nat) (v : Word) : (d.setReg n o v).pinLevels = d.pinLevels := rfl
@[simp] theorem setReg_pinOut (n o : Nat) (v : Word) : (d.setReg n o v).pinOut = d.pinOut := rfl
@[simp] theorem setReg_pinEn (n o : Nat) (v : Word) : (d.setReg n o v).pinEn = d.pinEn := rfl
@[simp] theorem setReg_lanes (n o : Nat) (v : Word) : (d.setReg n o v).lanes = d.lanes := rfl
@[simp] theorem setReg_pllMult (n o : Nat) (v : Word) : (d.setReg n o v).pllMult = d.pllMult := rfl
@[simp] theorem setReg_gcinTerm (n o : Nat) (v : Word) : (d.setReg n o v).gcinTerm = d.gcinTerm := rfl
@[simp] theorem setReg_engines (n o : Nat) (v : Word) : (d.setReg n o v).engines = d.engines := rfl
@[simp] theorem setReg_sigs (n o : Nat) (v : Word) : (d.setReg n o v).sigs = d.sigs := rfl
@[simp] theorem setReg_grpLast (n o : Nat) (v : Word) : (d.setReg n o v).grpLast = d.grpLast := rfl
@[simp] theorem setReg_isets (n o : Nat) (v : Word) : (d.setReg n o v).isets = d.isets := rfl
@[simp] theorem setReg_thermTrip (n o : Nat) (v : Word) : (d.setReg n o v).thermTrip = d.thermTrip := rfl
@[simp] theorem setReg_lostQuarters (n o : Nat) (v : Word) : (d.setReg n o v).lostQuarters = d.lostQuarters := rfl
@[simp] theorem setReg_lost (n o : Nat) (v : Word) : (d.setReg n o v).lost = d.lost := rfl
@[simp] theorem setReg_standbyEntering (n o : Nat) (v : Word) : (d.setReg n o v).standbyEntering = d.standbyEntering := rfl
@[simp] theorem setReg_standbyEmulated (n o : Nat) (v : Word) : (d.setReg n o v).standbyEmulated = d.standbyEmulated := rfl
@[simp] theorem setReg_standbyLinks (n o : Nat) (v : Word) : (d.setReg n o v).standbyLinks = d.standbyLinks := rfl
@[simp] theorem setReg_gcEdges (n o : Nat) (v : Word) : (d.setReg n o v).gcEdges = d.gcEdges := rfl
@[simp] theorem setReg_cfgCache (n o : Nat) (v : Word) : (d.setReg n o v).cfgCache = d.cfgCache := rfl
@[simp] theorem setReg_finished (n o : Nat) (v : Word) : (d.setReg n o v).finished = d.finished := rfl
@[simp] theorem setReg_catchIds (n o : Nat) (v : Word) : (d.setReg n o v).catchIds = d.catchIds := rfl
@[simp] theorem setReg_drams (n o : Nat) (v : Word) : (d.setReg n o v).drams = d.drams := rfl
@[simp] theorem setReg_isetNext (n o : Nat) (v : Word) : (d.setReg n o v).isetNext = d.isetNext := rfl
@[simp] theorem setReg_links (n o : Nat) (v : Word) : (d.setReg n o v).links = d.links := rfl
@[simp] theorem setReg_linkIds (n o : Nat) (v : Word) : (d.setReg n o v).linkIds = d.linkIds := rfl
@[simp] theorem setReg_linkChans (n o : Nat) (v : Word) : (d.setReg n o v).linkChans = d.linkChans := rfl
@[simp] theorem setReg_ppm (n o : Nat) (v : Word) : (d.setReg n o v).ppm = d.ppm := rfl
@[simp] theorem setReg_tickFrac (n o : Nat) (v : Word) : (d.setReg n o v).tickFrac = d.tickFrac := rfl
@[simp] theorem setReg_goodMeans (n o : Nat) (v : Word) : (d.setReg n o v).goodMeans = d.goodMeans := rfl
@[simp] theorem setReg_crewCmds (n o : Nat) (v : Word) : (d.setReg n o v).crewCmds = d.crewCmds := rfl
@[simp] theorem setReg_crewId (n o : Nat) (v : Word) : (d.setReg n o v).crewId = d.crewId := rfl
@[simp] theorem setReg_epochWait (n o : Nat) (v : Word) : (d.setReg n o v).epochWait = d.epochWait := rfl
@[simp] theorem setReg_tenants (n o : Nat) (v : Word) : (d.setReg n o v).tenants = d.tenants := rfl
@[simp] theorem setReg_pmeEn (n o : Nat) (v : Word) : (d.setReg n o v).pmeEn = d.pmeEn := rfl
@[simp] theorem setReg_vfEn (n o : Nat) (v : Word) : (d.setReg n o v).vfEn = d.vfEn := rfl
@[simp] theorem setReg_vecs (n o : Nat) (v : Word) : (d.setReg n o v).vecs = d.vecs := rfl
@[simp] theorem setReg_chans (n o : Nat) (v : Word) : (d.setReg n o v).chans = d.chans := rfl
@[simp] theorem setReg_hostAccs (n o : Nat) (v : Word) : (d.setReg n o v).hostAccs = d.hostAccs := rfl
@[simp] theorem setReg_hifUses (n o : Nat) (v : Word) : (d.setReg n o v).hifUses = d.hifUses := rfl
@[simp] theorem setReg_bar2Waits (n o : Nat) (v : Word) : (d.setReg n o v).bar2Waits = d.bar2Waits := rfl
@[simp] theorem setReg_hostTurns (n o : Nat) (v : Word) : (d.setReg n o v).hostTurns = d.hostTurns := rfl
@[simp] theorem setReg_hostLast (n o : Nat) (v : Word) : (d.setReg n o v).hostLast = d.hostLast := rfl
@[simp] theorem setReg_evlog (n o : Nat) (v : Word) : (d.setReg n o v).evlog = d.evlog := rfl
@[simp] theorem setReg_wipes (n o : Nat) (v : Word) : (d.setReg n o v).wipes = d.wipes := rfl
@[simp] theorem setReg_fills (n o : Nat) (v : Word) : (d.setReg n o v).fills = d.fills := rfl
@[simp] theorem setReg_unfilled (n o : Nat) (v : Word) : (d.setReg n o v).unfilled = d.unfilled := rfl
@[simp] theorem setReg_roleImg (n o : Nat) (v : Word) : (d.setReg n o v).roleImg = d.roleImg := rfl
@[simp] theorem setReg_svcTest (n o : Nat) (v : Word) : (d.setReg n o v).svcTest = d.svcTest := rfl
@[simp] theorem setReg_svcPass (n o : Nat) (v : Word) : (d.setReg n o v).svcPass = d.svcPass := rfl
@[simp] theorem setReg_roots (n o : Nat) (v : Word) : (d.setReg n o v).roots = d.roots := rfl
@[simp] theorem setReg_sealKeys (n o : Nat) (v : Word) : (d.setReg n o v).sealKeys = d.sealKeys := rfl
@[simp] theorem setReg_sealQ (n o : Nat) (v : Word) : (d.setReg n o v).sealQ = d.sealQ := rfl
@[simp] theorem setReg_sealOut (n o : Nat) (v : Word) : (d.setReg n o v).sealOut = d.sealOut := rfl
@[simp] theorem setReg_sealLast (n o : Nat) (v : Word) : (d.setReg n o v).sealLast = d.sealLast := rfl
@[simp] theorem setReg_versions (n o : Nat) (v : Word) : (d.setReg n o v).versions = d.versions := rfl
@[simp] theorem setReg_grants (n o : Nat) (v : Word) : (d.setReg n o v).grants = d.grants := rfl
@[simp] theorem setReg_battery (n o : Nat) (v : Word) : (d.setReg n o v).battery = d.battery := rfl
@[simp] theorem setReg_fuseKey (n o : Nat) (v : Word) : (d.setReg n o v).fuseKey = d.fuseKey := rfl
@[simp] theorem setReg_fuseKeyOk (n o : Nat) (v : Word) : (d.setReg n o v).fuseKeyOk = d.fuseKeyOk := rfl
@[simp] theorem setReg_load (n o : Nat) (v : Word) : (d.setReg n o v).load = d.load := rfl
@[simp] theorem setReg_awaitHost (n o : Nat) (v : Word) : (d.setReg n o v).awaitHost = d.awaitHost := rfl
@[simp] theorem setReg_bootTries (n o : Nat) (v : Word) : (d.setReg n o v).bootTries = d.bootTries := rfl
@[simp] theorem setReg_cfgDone (n o : Nat) (v : Word) : (d.setReg n o v).cfgDone = d.cfgDone := rfl
@[simp] theorem setReg_flashCmd (n o : Nat) (v : Word) : (d.setReg n o v).flashCmd = d.flashCmd := rfl
@[simp] theorem setReg_wakeQueue (n o : Nat) (v : Word) : (d.setReg n o v).wakeQueue = d.wakeQueue := rfl
@[simp] theorem setReg_jtag (n o : Nat) (v : Word) : (d.setReg n o v).jtag = d.jtag := rfl
@[simp] theorem setReg_apTag (n o : Nat) (v : Word) : (d.setReg n o v).apTag = d.apTag := rfl
@[simp] theorem setReg_stateWait (n o : Nat) (v : Word) : (d.setReg n o v).stateWait = d.stateWait := rfl
@[simp] theorem setReg_wakeWait (n o : Nat) (v : Word) : (d.setReg n o v).wakeWait = d.wakeWait := rfl
@[simp] theorem setReg_xtrgWait (n o : Nat) (v : Word) : (d.setReg n o v).xtrgWait = d.xtrgWait := rfl

/-! #### setFld -/

@[simp] theorem setFld_dtime (n o lo w x : Nat) : (d.setFld n o lo w x).dtime = d.dtime := rfl
@[simp] theorem setFld_free (n o lo w x : Nat) : (d.setFld n o lo w x).free = d.free := rfl
@[simp] theorem setFld_out (n o lo w x : Nat) : (d.setFld n o lo w x).out = d.out := rfl
@[simp] theorem setFld_holdRd (n o lo w x : Nat) : (d.setFld n o lo w x).holdRd = d.holdRd := rfl
@[simp] theorem setFld_holdWr (n o lo w x : Nat) : (d.setFld n o lo w x).holdWr = d.holdWr := rfl
@[simp] theorem setFld_noc (n o lo w x : Nat) : (d.setFld n o lo w x).noc = d.noc := rfl
@[simp] theorem setFld_brams (n o lo w x : Nat) : (d.setFld n o lo w x).brams = d.brams := rfl
@[simp] theorem setFld_rows (n o lo w x : Nat) : (d.setFld n o lo w x).rows = d.rows := rfl
@[simp] theorem setFld_slices (n o lo w x : Nat) : (d.setFld n o lo w x).slices = d.slices := rfl
@[simp] theorem setFld_islands (n o lo w x : Nat) : (d.setFld n o lo w x).islands = d.islands := rfl
@[simp] theorem setFld_frames (n o lo w x : Nat) : (d.setFld n o lo w x).frames = d.frames := rfl
@[simp] theorem setFld_ffs (n o lo w x : Nat) : (d.setFld n o lo w x).ffs = d.ffs := rfl
@[simp] theorem setFld_ffUpset (n o lo w x : Nat) : (d.setFld n o lo w x).ffUpset = d.ffUpset := rfl
@[simp] theorem setFld_transients (n o lo w x : Nat) : (d.setFld n o lo w x).transients = d.transients := rfl
@[simp] theorem setFld_regions (n o lo w x : Nat) : (d.setFld n o lo w x).regions = d.regions := rfl
@[simp] theorem setFld_catches (n o lo w x : Nat) : (d.setFld n o lo w x).catches = d.catches := rfl
@[simp] theorem setFld_pinLevels (n o lo w x : Nat) : (d.setFld n o lo w x).pinLevels = d.pinLevels := rfl
@[simp] theorem setFld_pinOut (n o lo w x : Nat) : (d.setFld n o lo w x).pinOut = d.pinOut := rfl
@[simp] theorem setFld_pinEn (n o lo w x : Nat) : (d.setFld n o lo w x).pinEn = d.pinEn := rfl
@[simp] theorem setFld_lanes (n o lo w x : Nat) : (d.setFld n o lo w x).lanes = d.lanes := rfl
@[simp] theorem setFld_pllMult (n o lo w x : Nat) : (d.setFld n o lo w x).pllMult = d.pllMult := rfl
@[simp] theorem setFld_gcinTerm (n o lo w x : Nat) : (d.setFld n o lo w x).gcinTerm = d.gcinTerm := rfl
@[simp] theorem setFld_engines (n o lo w x : Nat) : (d.setFld n o lo w x).engines = d.engines := rfl
@[simp] theorem setFld_sigs (n o lo w x : Nat) : (d.setFld n o lo w x).sigs = d.sigs := rfl
@[simp] theorem setFld_grpLast (n o lo w x : Nat) : (d.setFld n o lo w x).grpLast = d.grpLast := rfl
@[simp] theorem setFld_isets (n o lo w x : Nat) : (d.setFld n o lo w x).isets = d.isets := rfl
@[simp] theorem setFld_thermTrip (n o lo w x : Nat) : (d.setFld n o lo w x).thermTrip = d.thermTrip := rfl
@[simp] theorem setFld_lostQuarters (n o lo w x : Nat) : (d.setFld n o lo w x).lostQuarters = d.lostQuarters := rfl
@[simp] theorem setFld_lost (n o lo w x : Nat) : (d.setFld n o lo w x).lost = d.lost := rfl
@[simp] theorem setFld_standbyEntering (n o lo w x : Nat) : (d.setFld n o lo w x).standbyEntering = d.standbyEntering := rfl
@[simp] theorem setFld_standbyEmulated (n o lo w x : Nat) : (d.setFld n o lo w x).standbyEmulated = d.standbyEmulated := rfl
@[simp] theorem setFld_standbyLinks (n o lo w x : Nat) : (d.setFld n o lo w x).standbyLinks = d.standbyLinks := rfl
@[simp] theorem setFld_gcEdges (n o lo w x : Nat) : (d.setFld n o lo w x).gcEdges = d.gcEdges := rfl
@[simp] theorem setFld_cfgCache (n o lo w x : Nat) : (d.setFld n o lo w x).cfgCache = d.cfgCache := rfl
@[simp] theorem setFld_finished (n o lo w x : Nat) : (d.setFld n o lo w x).finished = d.finished := rfl
@[simp] theorem setFld_catchIds (n o lo w x : Nat) : (d.setFld n o lo w x).catchIds = d.catchIds := rfl
@[simp] theorem setFld_drams (n o lo w x : Nat) : (d.setFld n o lo w x).drams = d.drams := rfl
@[simp] theorem setFld_isetNext (n o lo w x : Nat) : (d.setFld n o lo w x).isetNext = d.isetNext := rfl
@[simp] theorem setFld_links (n o lo w x : Nat) : (d.setFld n o lo w x).links = d.links := rfl
@[simp] theorem setFld_linkIds (n o lo w x : Nat) : (d.setFld n o lo w x).linkIds = d.linkIds := rfl
@[simp] theorem setFld_linkChans (n o lo w x : Nat) : (d.setFld n o lo w x).linkChans = d.linkChans := rfl
@[simp] theorem setFld_ppm (n o lo w x : Nat) : (d.setFld n o lo w x).ppm = d.ppm := rfl
@[simp] theorem setFld_tickFrac (n o lo w x : Nat) : (d.setFld n o lo w x).tickFrac = d.tickFrac := rfl
@[simp] theorem setFld_goodMeans (n o lo w x : Nat) : (d.setFld n o lo w x).goodMeans = d.goodMeans := rfl
@[simp] theorem setFld_crewCmds (n o lo w x : Nat) : (d.setFld n o lo w x).crewCmds = d.crewCmds := rfl
@[simp] theorem setFld_crewId (n o lo w x : Nat) : (d.setFld n o lo w x).crewId = d.crewId := rfl
@[simp] theorem setFld_epochWait (n o lo w x : Nat) : (d.setFld n o lo w x).epochWait = d.epochWait := rfl
@[simp] theorem setFld_tenants (n o lo w x : Nat) : (d.setFld n o lo w x).tenants = d.tenants := rfl
@[simp] theorem setFld_pmeEn (n o lo w x : Nat) : (d.setFld n o lo w x).pmeEn = d.pmeEn := rfl
@[simp] theorem setFld_vfEn (n o lo w x : Nat) : (d.setFld n o lo w x).vfEn = d.vfEn := rfl
@[simp] theorem setFld_vecs (n o lo w x : Nat) : (d.setFld n o lo w x).vecs = d.vecs := rfl
@[simp] theorem setFld_chans (n o lo w x : Nat) : (d.setFld n o lo w x).chans = d.chans := rfl
@[simp] theorem setFld_hostAccs (n o lo w x : Nat) : (d.setFld n o lo w x).hostAccs = d.hostAccs := rfl
@[simp] theorem setFld_hifUses (n o lo w x : Nat) : (d.setFld n o lo w x).hifUses = d.hifUses := rfl
@[simp] theorem setFld_bar2Waits (n o lo w x : Nat) : (d.setFld n o lo w x).bar2Waits = d.bar2Waits := rfl
@[simp] theorem setFld_hostTurns (n o lo w x : Nat) : (d.setFld n o lo w x).hostTurns = d.hostTurns := rfl
@[simp] theorem setFld_hostLast (n o lo w x : Nat) : (d.setFld n o lo w x).hostLast = d.hostLast := rfl
@[simp] theorem setFld_evlog (n o lo w x : Nat) : (d.setFld n o lo w x).evlog = d.evlog := rfl
@[simp] theorem setFld_wipes (n o lo w x : Nat) : (d.setFld n o lo w x).wipes = d.wipes := rfl
@[simp] theorem setFld_fills (n o lo w x : Nat) : (d.setFld n o lo w x).fills = d.fills := rfl
@[simp] theorem setFld_unfilled (n o lo w x : Nat) : (d.setFld n o lo w x).unfilled = d.unfilled := rfl
@[simp] theorem setFld_roleImg (n o lo w x : Nat) : (d.setFld n o lo w x).roleImg = d.roleImg := rfl
@[simp] theorem setFld_svcTest (n o lo w x : Nat) : (d.setFld n o lo w x).svcTest = d.svcTest := rfl
@[simp] theorem setFld_svcPass (n o lo w x : Nat) : (d.setFld n o lo w x).svcPass = d.svcPass := rfl
@[simp] theorem setFld_roots (n o lo w x : Nat) : (d.setFld n o lo w x).roots = d.roots := rfl
@[simp] theorem setFld_sealKeys (n o lo w x : Nat) : (d.setFld n o lo w x).sealKeys = d.sealKeys := rfl
@[simp] theorem setFld_sealQ (n o lo w x : Nat) : (d.setFld n o lo w x).sealQ = d.sealQ := rfl
@[simp] theorem setFld_sealOut (n o lo w x : Nat) : (d.setFld n o lo w x).sealOut = d.sealOut := rfl
@[simp] theorem setFld_sealLast (n o lo w x : Nat) : (d.setFld n o lo w x).sealLast = d.sealLast := rfl
@[simp] theorem setFld_versions (n o lo w x : Nat) : (d.setFld n o lo w x).versions = d.versions := rfl
@[simp] theorem setFld_grants (n o lo w x : Nat) : (d.setFld n o lo w x).grants = d.grants := rfl
@[simp] theorem setFld_battery (n o lo w x : Nat) : (d.setFld n o lo w x).battery = d.battery := rfl
@[simp] theorem setFld_fuseKey (n o lo w x : Nat) : (d.setFld n o lo w x).fuseKey = d.fuseKey := rfl
@[simp] theorem setFld_fuseKeyOk (n o lo w x : Nat) : (d.setFld n o lo w x).fuseKeyOk = d.fuseKeyOk := rfl
@[simp] theorem setFld_load (n o lo w x : Nat) : (d.setFld n o lo w x).load = d.load := rfl
@[simp] theorem setFld_awaitHost (n o lo w x : Nat) : (d.setFld n o lo w x).awaitHost = d.awaitHost := rfl
@[simp] theorem setFld_bootTries (n o lo w x : Nat) : (d.setFld n o lo w x).bootTries = d.bootTries := rfl
@[simp] theorem setFld_cfgDone (n o lo w x : Nat) : (d.setFld n o lo w x).cfgDone = d.cfgDone := rfl
@[simp] theorem setFld_flashCmd (n o lo w x : Nat) : (d.setFld n o lo w x).flashCmd = d.flashCmd := rfl
@[simp] theorem setFld_wakeQueue (n o lo w x : Nat) : (d.setFld n o lo w x).wakeQueue = d.wakeQueue := rfl
@[simp] theorem setFld_jtag (n o lo w x : Nat) : (d.setFld n o lo w x).jtag = d.jtag := rfl
@[simp] theorem setFld_apTag (n o lo w x : Nat) : (d.setFld n o lo w x).apTag = d.apTag := rfl
@[simp] theorem setFld_stateWait (n o lo w x : Nat) : (d.setFld n o lo w x).stateWait = d.stateWait := rfl
@[simp] theorem setFld_wakeWait (n o lo w x : Nat) : (d.setFld n o lo w x).wakeWait = d.wakeWait := rfl
@[simp] theorem setFld_xtrgWait (n o lo w x : Nat) : (d.setFld n o lo w x).xtrgWait = d.xtrgWait := rfl

/-! #### orReg -/

@[simp] theorem orReg_dtime (n o : Nat) (v : Word) : (d.orReg n o v).dtime = d.dtime := rfl
@[simp] theorem orReg_free (n o : Nat) (v : Word) : (d.orReg n o v).free = d.free := rfl
@[simp] theorem orReg_out (n o : Nat) (v : Word) : (d.orReg n o v).out = d.out := rfl
@[simp] theorem orReg_holdRd (n o : Nat) (v : Word) : (d.orReg n o v).holdRd = d.holdRd := rfl
@[simp] theorem orReg_holdWr (n o : Nat) (v : Word) : (d.orReg n o v).holdWr = d.holdWr := rfl
@[simp] theorem orReg_noc (n o : Nat) (v : Word) : (d.orReg n o v).noc = d.noc := rfl
@[simp] theorem orReg_brams (n o : Nat) (v : Word) : (d.orReg n o v).brams = d.brams := rfl
@[simp] theorem orReg_rows (n o : Nat) (v : Word) : (d.orReg n o v).rows = d.rows := rfl
@[simp] theorem orReg_slices (n o : Nat) (v : Word) : (d.orReg n o v).slices = d.slices := rfl
@[simp] theorem orReg_islands (n o : Nat) (v : Word) : (d.orReg n o v).islands = d.islands := rfl
@[simp] theorem orReg_frames (n o : Nat) (v : Word) : (d.orReg n o v).frames = d.frames := rfl
@[simp] theorem orReg_ffs (n o : Nat) (v : Word) : (d.orReg n o v).ffs = d.ffs := rfl
@[simp] theorem orReg_ffUpset (n o : Nat) (v : Word) : (d.orReg n o v).ffUpset = d.ffUpset := rfl
@[simp] theorem orReg_transients (n o : Nat) (v : Word) : (d.orReg n o v).transients = d.transients := rfl
@[simp] theorem orReg_regions (n o : Nat) (v : Word) : (d.orReg n o v).regions = d.regions := rfl
@[simp] theorem orReg_catches (n o : Nat) (v : Word) : (d.orReg n o v).catches = d.catches := rfl
@[simp] theorem orReg_pinLevels (n o : Nat) (v : Word) : (d.orReg n o v).pinLevels = d.pinLevels := rfl
@[simp] theorem orReg_pinOut (n o : Nat) (v : Word) : (d.orReg n o v).pinOut = d.pinOut := rfl
@[simp] theorem orReg_pinEn (n o : Nat) (v : Word) : (d.orReg n o v).pinEn = d.pinEn := rfl
@[simp] theorem orReg_lanes (n o : Nat) (v : Word) : (d.orReg n o v).lanes = d.lanes := rfl
@[simp] theorem orReg_pllMult (n o : Nat) (v : Word) : (d.orReg n o v).pllMult = d.pllMult := rfl
@[simp] theorem orReg_gcinTerm (n o : Nat) (v : Word) : (d.orReg n o v).gcinTerm = d.gcinTerm := rfl
@[simp] theorem orReg_engines (n o : Nat) (v : Word) : (d.orReg n o v).engines = d.engines := rfl
@[simp] theorem orReg_sigs (n o : Nat) (v : Word) : (d.orReg n o v).sigs = d.sigs := rfl
@[simp] theorem orReg_grpLast (n o : Nat) (v : Word) : (d.orReg n o v).grpLast = d.grpLast := rfl
@[simp] theorem orReg_isets (n o : Nat) (v : Word) : (d.orReg n o v).isets = d.isets := rfl
@[simp] theorem orReg_thermTrip (n o : Nat) (v : Word) : (d.orReg n o v).thermTrip = d.thermTrip := rfl
@[simp] theorem orReg_lostQuarters (n o : Nat) (v : Word) : (d.orReg n o v).lostQuarters = d.lostQuarters := rfl
@[simp] theorem orReg_lost (n o : Nat) (v : Word) : (d.orReg n o v).lost = d.lost := rfl
@[simp] theorem orReg_standbyEntering (n o : Nat) (v : Word) : (d.orReg n o v).standbyEntering = d.standbyEntering := rfl
@[simp] theorem orReg_standbyEmulated (n o : Nat) (v : Word) : (d.orReg n o v).standbyEmulated = d.standbyEmulated := rfl
@[simp] theorem orReg_standbyLinks (n o : Nat) (v : Word) : (d.orReg n o v).standbyLinks = d.standbyLinks := rfl
@[simp] theorem orReg_gcEdges (n o : Nat) (v : Word) : (d.orReg n o v).gcEdges = d.gcEdges := rfl
@[simp] theorem orReg_cfgCache (n o : Nat) (v : Word) : (d.orReg n o v).cfgCache = d.cfgCache := rfl
@[simp] theorem orReg_finished (n o : Nat) (v : Word) : (d.orReg n o v).finished = d.finished := rfl
@[simp] theorem orReg_catchIds (n o : Nat) (v : Word) : (d.orReg n o v).catchIds = d.catchIds := rfl
@[simp] theorem orReg_drams (n o : Nat) (v : Word) : (d.orReg n o v).drams = d.drams := rfl
@[simp] theorem orReg_isetNext (n o : Nat) (v : Word) : (d.orReg n o v).isetNext = d.isetNext := rfl
@[simp] theorem orReg_links (n o : Nat) (v : Word) : (d.orReg n o v).links = d.links := rfl
@[simp] theorem orReg_linkIds (n o : Nat) (v : Word) : (d.orReg n o v).linkIds = d.linkIds := rfl
@[simp] theorem orReg_linkChans (n o : Nat) (v : Word) : (d.orReg n o v).linkChans = d.linkChans := rfl
@[simp] theorem orReg_ppm (n o : Nat) (v : Word) : (d.orReg n o v).ppm = d.ppm := rfl
@[simp] theorem orReg_tickFrac (n o : Nat) (v : Word) : (d.orReg n o v).tickFrac = d.tickFrac := rfl
@[simp] theorem orReg_goodMeans (n o : Nat) (v : Word) : (d.orReg n o v).goodMeans = d.goodMeans := rfl
@[simp] theorem orReg_crewCmds (n o : Nat) (v : Word) : (d.orReg n o v).crewCmds = d.crewCmds := rfl
@[simp] theorem orReg_crewId (n o : Nat) (v : Word) : (d.orReg n o v).crewId = d.crewId := rfl
@[simp] theorem orReg_epochWait (n o : Nat) (v : Word) : (d.orReg n o v).epochWait = d.epochWait := rfl
@[simp] theorem orReg_tenants (n o : Nat) (v : Word) : (d.orReg n o v).tenants = d.tenants := rfl
@[simp] theorem orReg_pmeEn (n o : Nat) (v : Word) : (d.orReg n o v).pmeEn = d.pmeEn := rfl
@[simp] theorem orReg_vfEn (n o : Nat) (v : Word) : (d.orReg n o v).vfEn = d.vfEn := rfl
@[simp] theorem orReg_vecs (n o : Nat) (v : Word) : (d.orReg n o v).vecs = d.vecs := rfl
@[simp] theorem orReg_chans (n o : Nat) (v : Word) : (d.orReg n o v).chans = d.chans := rfl
@[simp] theorem orReg_hostAccs (n o : Nat) (v : Word) : (d.orReg n o v).hostAccs = d.hostAccs := rfl
@[simp] theorem orReg_hifUses (n o : Nat) (v : Word) : (d.orReg n o v).hifUses = d.hifUses := rfl
@[simp] theorem orReg_bar2Waits (n o : Nat) (v : Word) : (d.orReg n o v).bar2Waits = d.bar2Waits := rfl
@[simp] theorem orReg_hostTurns (n o : Nat) (v : Word) : (d.orReg n o v).hostTurns = d.hostTurns := rfl
@[simp] theorem orReg_hostLast (n o : Nat) (v : Word) : (d.orReg n o v).hostLast = d.hostLast := rfl
@[simp] theorem orReg_evlog (n o : Nat) (v : Word) : (d.orReg n o v).evlog = d.evlog := rfl
@[simp] theorem orReg_wipes (n o : Nat) (v : Word) : (d.orReg n o v).wipes = d.wipes := rfl
@[simp] theorem orReg_fills (n o : Nat) (v : Word) : (d.orReg n o v).fills = d.fills := rfl
@[simp] theorem orReg_unfilled (n o : Nat) (v : Word) : (d.orReg n o v).unfilled = d.unfilled := rfl
@[simp] theorem orReg_roleImg (n o : Nat) (v : Word) : (d.orReg n o v).roleImg = d.roleImg := rfl
@[simp] theorem orReg_svcTest (n o : Nat) (v : Word) : (d.orReg n o v).svcTest = d.svcTest := rfl
@[simp] theorem orReg_svcPass (n o : Nat) (v : Word) : (d.orReg n o v).svcPass = d.svcPass := rfl
@[simp] theorem orReg_roots (n o : Nat) (v : Word) : (d.orReg n o v).roots = d.roots := rfl
@[simp] theorem orReg_sealKeys (n o : Nat) (v : Word) : (d.orReg n o v).sealKeys = d.sealKeys := rfl
@[simp] theorem orReg_sealQ (n o : Nat) (v : Word) : (d.orReg n o v).sealQ = d.sealQ := rfl
@[simp] theorem orReg_sealOut (n o : Nat) (v : Word) : (d.orReg n o v).sealOut = d.sealOut := rfl
@[simp] theorem orReg_sealLast (n o : Nat) (v : Word) : (d.orReg n o v).sealLast = d.sealLast := rfl
@[simp] theorem orReg_versions (n o : Nat) (v : Word) : (d.orReg n o v).versions = d.versions := rfl
@[simp] theorem orReg_grants (n o : Nat) (v : Word) : (d.orReg n o v).grants = d.grants := rfl
@[simp] theorem orReg_battery (n o : Nat) (v : Word) : (d.orReg n o v).battery = d.battery := rfl
@[simp] theorem orReg_fuseKey (n o : Nat) (v : Word) : (d.orReg n o v).fuseKey = d.fuseKey := rfl
@[simp] theorem orReg_fuseKeyOk (n o : Nat) (v : Word) : (d.orReg n o v).fuseKeyOk = d.fuseKeyOk := rfl
@[simp] theorem orReg_load (n o : Nat) (v : Word) : (d.orReg n o v).load = d.load := rfl
@[simp] theorem orReg_awaitHost (n o : Nat) (v : Word) : (d.orReg n o v).awaitHost = d.awaitHost := rfl
@[simp] theorem orReg_bootTries (n o : Nat) (v : Word) : (d.orReg n o v).bootTries = d.bootTries := rfl
@[simp] theorem orReg_cfgDone (n o : Nat) (v : Word) : (d.orReg n o v).cfgDone = d.cfgDone := rfl
@[simp] theorem orReg_flashCmd (n o : Nat) (v : Word) : (d.orReg n o v).flashCmd = d.flashCmd := rfl
@[simp] theorem orReg_wakeQueue (n o : Nat) (v : Word) : (d.orReg n o v).wakeQueue = d.wakeQueue := rfl
@[simp] theorem orReg_jtag (n o : Nat) (v : Word) : (d.orReg n o v).jtag = d.jtag := rfl
@[simp] theorem orReg_apTag (n o : Nat) (v : Word) : (d.orReg n o v).apTag = d.apTag := rfl
@[simp] theorem orReg_stateWait (n o : Nat) (v : Word) : (d.orReg n o v).stateWait = d.stateWait := rfl
@[simp] theorem orReg_wakeWait (n o : Nat) (v : Word) : (d.orReg n o v).wakeWait = d.wakeWait := rfl
@[simp] theorem orReg_xtrgWait (n o : Nat) (v : Word) : (d.orReg n o v).xtrgWait = d.xtrgWait := rfl

/-! #### clrReg -/

@[simp] theorem clrReg_dtime (n o : Nat) (v : Word) : (d.clrReg n o v).dtime = d.dtime := rfl
@[simp] theorem clrReg_free (n o : Nat) (v : Word) : (d.clrReg n o v).free = d.free := rfl
@[simp] theorem clrReg_out (n o : Nat) (v : Word) : (d.clrReg n o v).out = d.out := rfl
@[simp] theorem clrReg_holdRd (n o : Nat) (v : Word) : (d.clrReg n o v).holdRd = d.holdRd := rfl
@[simp] theorem clrReg_holdWr (n o : Nat) (v : Word) : (d.clrReg n o v).holdWr = d.holdWr := rfl
@[simp] theorem clrReg_noc (n o : Nat) (v : Word) : (d.clrReg n o v).noc = d.noc := rfl
@[simp] theorem clrReg_brams (n o : Nat) (v : Word) : (d.clrReg n o v).brams = d.brams := rfl
@[simp] theorem clrReg_rows (n o : Nat) (v : Word) : (d.clrReg n o v).rows = d.rows := rfl
@[simp] theorem clrReg_slices (n o : Nat) (v : Word) : (d.clrReg n o v).slices = d.slices := rfl
@[simp] theorem clrReg_islands (n o : Nat) (v : Word) : (d.clrReg n o v).islands = d.islands := rfl
@[simp] theorem clrReg_frames (n o : Nat) (v : Word) : (d.clrReg n o v).frames = d.frames := rfl
@[simp] theorem clrReg_ffs (n o : Nat) (v : Word) : (d.clrReg n o v).ffs = d.ffs := rfl
@[simp] theorem clrReg_ffUpset (n o : Nat) (v : Word) : (d.clrReg n o v).ffUpset = d.ffUpset := rfl
@[simp] theorem clrReg_transients (n o : Nat) (v : Word) : (d.clrReg n o v).transients = d.transients := rfl
@[simp] theorem clrReg_regions (n o : Nat) (v : Word) : (d.clrReg n o v).regions = d.regions := rfl
@[simp] theorem clrReg_catches (n o : Nat) (v : Word) : (d.clrReg n o v).catches = d.catches := rfl
@[simp] theorem clrReg_pinLevels (n o : Nat) (v : Word) : (d.clrReg n o v).pinLevels = d.pinLevels := rfl
@[simp] theorem clrReg_pinOut (n o : Nat) (v : Word) : (d.clrReg n o v).pinOut = d.pinOut := rfl
@[simp] theorem clrReg_pinEn (n o : Nat) (v : Word) : (d.clrReg n o v).pinEn = d.pinEn := rfl
@[simp] theorem clrReg_lanes (n o : Nat) (v : Word) : (d.clrReg n o v).lanes = d.lanes := rfl
@[simp] theorem clrReg_pllMult (n o : Nat) (v : Word) : (d.clrReg n o v).pllMult = d.pllMult := rfl
@[simp] theorem clrReg_gcinTerm (n o : Nat) (v : Word) : (d.clrReg n o v).gcinTerm = d.gcinTerm := rfl
@[simp] theorem clrReg_engines (n o : Nat) (v : Word) : (d.clrReg n o v).engines = d.engines := rfl
@[simp] theorem clrReg_sigs (n o : Nat) (v : Word) : (d.clrReg n o v).sigs = d.sigs := rfl
@[simp] theorem clrReg_grpLast (n o : Nat) (v : Word) : (d.clrReg n o v).grpLast = d.grpLast := rfl
@[simp] theorem clrReg_isets (n o : Nat) (v : Word) : (d.clrReg n o v).isets = d.isets := rfl
@[simp] theorem clrReg_thermTrip (n o : Nat) (v : Word) : (d.clrReg n o v).thermTrip = d.thermTrip := rfl
@[simp] theorem clrReg_lostQuarters (n o : Nat) (v : Word) : (d.clrReg n o v).lostQuarters = d.lostQuarters := rfl
@[simp] theorem clrReg_lost (n o : Nat) (v : Word) : (d.clrReg n o v).lost = d.lost := rfl
@[simp] theorem clrReg_standbyEntering (n o : Nat) (v : Word) : (d.clrReg n o v).standbyEntering = d.standbyEntering := rfl
@[simp] theorem clrReg_standbyEmulated (n o : Nat) (v : Word) : (d.clrReg n o v).standbyEmulated = d.standbyEmulated := rfl
@[simp] theorem clrReg_standbyLinks (n o : Nat) (v : Word) : (d.clrReg n o v).standbyLinks = d.standbyLinks := rfl
@[simp] theorem clrReg_gcEdges (n o : Nat) (v : Word) : (d.clrReg n o v).gcEdges = d.gcEdges := rfl
@[simp] theorem clrReg_cfgCache (n o : Nat) (v : Word) : (d.clrReg n o v).cfgCache = d.cfgCache := rfl
@[simp] theorem clrReg_finished (n o : Nat) (v : Word) : (d.clrReg n o v).finished = d.finished := rfl
@[simp] theorem clrReg_catchIds (n o : Nat) (v : Word) : (d.clrReg n o v).catchIds = d.catchIds := rfl
@[simp] theorem clrReg_drams (n o : Nat) (v : Word) : (d.clrReg n o v).drams = d.drams := rfl
@[simp] theorem clrReg_isetNext (n o : Nat) (v : Word) : (d.clrReg n o v).isetNext = d.isetNext := rfl
@[simp] theorem clrReg_links (n o : Nat) (v : Word) : (d.clrReg n o v).links = d.links := rfl
@[simp] theorem clrReg_linkIds (n o : Nat) (v : Word) : (d.clrReg n o v).linkIds = d.linkIds := rfl
@[simp] theorem clrReg_linkChans (n o : Nat) (v : Word) : (d.clrReg n o v).linkChans = d.linkChans := rfl
@[simp] theorem clrReg_ppm (n o : Nat) (v : Word) : (d.clrReg n o v).ppm = d.ppm := rfl
@[simp] theorem clrReg_tickFrac (n o : Nat) (v : Word) : (d.clrReg n o v).tickFrac = d.tickFrac := rfl
@[simp] theorem clrReg_goodMeans (n o : Nat) (v : Word) : (d.clrReg n o v).goodMeans = d.goodMeans := rfl
@[simp] theorem clrReg_crewCmds (n o : Nat) (v : Word) : (d.clrReg n o v).crewCmds = d.crewCmds := rfl
@[simp] theorem clrReg_crewId (n o : Nat) (v : Word) : (d.clrReg n o v).crewId = d.crewId := rfl
@[simp] theorem clrReg_epochWait (n o : Nat) (v : Word) : (d.clrReg n o v).epochWait = d.epochWait := rfl
@[simp] theorem clrReg_tenants (n o : Nat) (v : Word) : (d.clrReg n o v).tenants = d.tenants := rfl
@[simp] theorem clrReg_pmeEn (n o : Nat) (v : Word) : (d.clrReg n o v).pmeEn = d.pmeEn := rfl
@[simp] theorem clrReg_vfEn (n o : Nat) (v : Word) : (d.clrReg n o v).vfEn = d.vfEn := rfl
@[simp] theorem clrReg_vecs (n o : Nat) (v : Word) : (d.clrReg n o v).vecs = d.vecs := rfl
@[simp] theorem clrReg_chans (n o : Nat) (v : Word) : (d.clrReg n o v).chans = d.chans := rfl
@[simp] theorem clrReg_hostAccs (n o : Nat) (v : Word) : (d.clrReg n o v).hostAccs = d.hostAccs := rfl
@[simp] theorem clrReg_hifUses (n o : Nat) (v : Word) : (d.clrReg n o v).hifUses = d.hifUses := rfl
@[simp] theorem clrReg_bar2Waits (n o : Nat) (v : Word) : (d.clrReg n o v).bar2Waits = d.bar2Waits := rfl
@[simp] theorem clrReg_hostTurns (n o : Nat) (v : Word) : (d.clrReg n o v).hostTurns = d.hostTurns := rfl
@[simp] theorem clrReg_hostLast (n o : Nat) (v : Word) : (d.clrReg n o v).hostLast = d.hostLast := rfl
@[simp] theorem clrReg_evlog (n o : Nat) (v : Word) : (d.clrReg n o v).evlog = d.evlog := rfl
@[simp] theorem clrReg_wipes (n o : Nat) (v : Word) : (d.clrReg n o v).wipes = d.wipes := rfl
@[simp] theorem clrReg_fills (n o : Nat) (v : Word) : (d.clrReg n o v).fills = d.fills := rfl
@[simp] theorem clrReg_unfilled (n o : Nat) (v : Word) : (d.clrReg n o v).unfilled = d.unfilled := rfl
@[simp] theorem clrReg_roleImg (n o : Nat) (v : Word) : (d.clrReg n o v).roleImg = d.roleImg := rfl
@[simp] theorem clrReg_svcTest (n o : Nat) (v : Word) : (d.clrReg n o v).svcTest = d.svcTest := rfl
@[simp] theorem clrReg_svcPass (n o : Nat) (v : Word) : (d.clrReg n o v).svcPass = d.svcPass := rfl
@[simp] theorem clrReg_roots (n o : Nat) (v : Word) : (d.clrReg n o v).roots = d.roots := rfl
@[simp] theorem clrReg_sealKeys (n o : Nat) (v : Word) : (d.clrReg n o v).sealKeys = d.sealKeys := rfl
@[simp] theorem clrReg_sealQ (n o : Nat) (v : Word) : (d.clrReg n o v).sealQ = d.sealQ := rfl
@[simp] theorem clrReg_sealOut (n o : Nat) (v : Word) : (d.clrReg n o v).sealOut = d.sealOut := rfl
@[simp] theorem clrReg_sealLast (n o : Nat) (v : Word) : (d.clrReg n o v).sealLast = d.sealLast := rfl
@[simp] theorem clrReg_versions (n o : Nat) (v : Word) : (d.clrReg n o v).versions = d.versions := rfl
@[simp] theorem clrReg_grants (n o : Nat) (v : Word) : (d.clrReg n o v).grants = d.grants := rfl
@[simp] theorem clrReg_battery (n o : Nat) (v : Word) : (d.clrReg n o v).battery = d.battery := rfl
@[simp] theorem clrReg_fuseKey (n o : Nat) (v : Word) : (d.clrReg n o v).fuseKey = d.fuseKey := rfl
@[simp] theorem clrReg_fuseKeyOk (n o : Nat) (v : Word) : (d.clrReg n o v).fuseKeyOk = d.fuseKeyOk := rfl
@[simp] theorem clrReg_load (n o : Nat) (v : Word) : (d.clrReg n o v).load = d.load := rfl
@[simp] theorem clrReg_awaitHost (n o : Nat) (v : Word) : (d.clrReg n o v).awaitHost = d.awaitHost := rfl
@[simp] theorem clrReg_bootTries (n o : Nat) (v : Word) : (d.clrReg n o v).bootTries = d.bootTries := rfl
@[simp] theorem clrReg_cfgDone (n o : Nat) (v : Word) : (d.clrReg n o v).cfgDone = d.cfgDone := rfl
@[simp] theorem clrReg_flashCmd (n o : Nat) (v : Word) : (d.clrReg n o v).flashCmd = d.flashCmd := rfl
@[simp] theorem clrReg_wakeQueue (n o : Nat) (v : Word) : (d.clrReg n o v).wakeQueue = d.wakeQueue := rfl
@[simp] theorem clrReg_jtag (n o : Nat) (v : Word) : (d.clrReg n o v).jtag = d.jtag := rfl
@[simp] theorem clrReg_apTag (n o : Nat) (v : Word) : (d.clrReg n o v).apTag = d.apTag := rfl
@[simp] theorem clrReg_stateWait (n o : Nat) (v : Word) : (d.clrReg n o v).stateWait = d.stateWait := rfl
@[simp] theorem clrReg_wakeWait (n o : Nat) (v : Word) : (d.clrReg n o v).wakeWait = d.wakeWait := rfl
@[simp] theorem clrReg_xtrgWait (n o : Nat) (v : Word) : (d.clrReg n o v).xtrgWait = d.xtrgWait := rfl

/-! #### setReg64 -/

@[simp] theorem setReg64_dtime (n o : Nat) (v : W64) : (d.setReg64 n o v).dtime = d.dtime := (setReg_dtime _ _ _ _).trans (setReg_dtime _ _ _ _)
@[simp] theorem setReg64_free (n o : Nat) (v : W64) : (d.setReg64 n o v).free = d.free := (setReg_free _ _ _ _).trans (setReg_free _ _ _ _)
@[simp] theorem setReg64_out (n o : Nat) (v : W64) : (d.setReg64 n o v).out = d.out := (setReg_out _ _ _ _).trans (setReg_out _ _ _ _)
@[simp] theorem setReg64_holdRd (n o : Nat) (v : W64) : (d.setReg64 n o v).holdRd = d.holdRd := (setReg_holdRd _ _ _ _).trans (setReg_holdRd _ _ _ _)
@[simp] theorem setReg64_holdWr (n o : Nat) (v : W64) : (d.setReg64 n o v).holdWr = d.holdWr := (setReg_holdWr _ _ _ _).trans (setReg_holdWr _ _ _ _)
@[simp] theorem setReg64_noc (n o : Nat) (v : W64) : (d.setReg64 n o v).noc = d.noc := (setReg_noc _ _ _ _).trans (setReg_noc _ _ _ _)
@[simp] theorem setReg64_brams (n o : Nat) (v : W64) : (d.setReg64 n o v).brams = d.brams := (setReg_brams _ _ _ _).trans (setReg_brams _ _ _ _)
@[simp] theorem setReg64_rows (n o : Nat) (v : W64) : (d.setReg64 n o v).rows = d.rows := (setReg_rows _ _ _ _).trans (setReg_rows _ _ _ _)
@[simp] theorem setReg64_slices (n o : Nat) (v : W64) : (d.setReg64 n o v).slices = d.slices := (setReg_slices _ _ _ _).trans (setReg_slices _ _ _ _)
@[simp] theorem setReg64_islands (n o : Nat) (v : W64) : (d.setReg64 n o v).islands = d.islands := (setReg_islands _ _ _ _).trans (setReg_islands _ _ _ _)
@[simp] theorem setReg64_frames (n o : Nat) (v : W64) : (d.setReg64 n o v).frames = d.frames := (setReg_frames _ _ _ _).trans (setReg_frames _ _ _ _)
@[simp] theorem setReg64_ffs (n o : Nat) (v : W64) : (d.setReg64 n o v).ffs = d.ffs := (setReg_ffs _ _ _ _).trans (setReg_ffs _ _ _ _)
@[simp] theorem setReg64_ffUpset (n o : Nat) (v : W64) : (d.setReg64 n o v).ffUpset = d.ffUpset := (setReg_ffUpset _ _ _ _).trans (setReg_ffUpset _ _ _ _)
@[simp] theorem setReg64_transients (n o : Nat) (v : W64) : (d.setReg64 n o v).transients = d.transients := (setReg_transients _ _ _ _).trans (setReg_transients _ _ _ _)
@[simp] theorem setReg64_regions (n o : Nat) (v : W64) : (d.setReg64 n o v).regions = d.regions := (setReg_regions _ _ _ _).trans (setReg_regions _ _ _ _)
@[simp] theorem setReg64_catches (n o : Nat) (v : W64) : (d.setReg64 n o v).catches = d.catches := (setReg_catches _ _ _ _).trans (setReg_catches _ _ _ _)
@[simp] theorem setReg64_pinLevels (n o : Nat) (v : W64) : (d.setReg64 n o v).pinLevels = d.pinLevels := (setReg_pinLevels _ _ _ _).trans (setReg_pinLevels _ _ _ _)
@[simp] theorem setReg64_pinOut (n o : Nat) (v : W64) : (d.setReg64 n o v).pinOut = d.pinOut := (setReg_pinOut _ _ _ _).trans (setReg_pinOut _ _ _ _)
@[simp] theorem setReg64_pinEn (n o : Nat) (v : W64) : (d.setReg64 n o v).pinEn = d.pinEn := (setReg_pinEn _ _ _ _).trans (setReg_pinEn _ _ _ _)
@[simp] theorem setReg64_lanes (n o : Nat) (v : W64) : (d.setReg64 n o v).lanes = d.lanes := (setReg_lanes _ _ _ _).trans (setReg_lanes _ _ _ _)
@[simp] theorem setReg64_pllMult (n o : Nat) (v : W64) : (d.setReg64 n o v).pllMult = d.pllMult := (setReg_pllMult _ _ _ _).trans (setReg_pllMult _ _ _ _)
@[simp] theorem setReg64_gcinTerm (n o : Nat) (v : W64) : (d.setReg64 n o v).gcinTerm = d.gcinTerm := (setReg_gcinTerm _ _ _ _).trans (setReg_gcinTerm _ _ _ _)
@[simp] theorem setReg64_engines (n o : Nat) (v : W64) : (d.setReg64 n o v).engines = d.engines := (setReg_engines _ _ _ _).trans (setReg_engines _ _ _ _)
@[simp] theorem setReg64_sigs (n o : Nat) (v : W64) : (d.setReg64 n o v).sigs = d.sigs := (setReg_sigs _ _ _ _).trans (setReg_sigs _ _ _ _)
@[simp] theorem setReg64_grpLast (n o : Nat) (v : W64) : (d.setReg64 n o v).grpLast = d.grpLast := (setReg_grpLast _ _ _ _).trans (setReg_grpLast _ _ _ _)
@[simp] theorem setReg64_isets (n o : Nat) (v : W64) : (d.setReg64 n o v).isets = d.isets := (setReg_isets _ _ _ _).trans (setReg_isets _ _ _ _)
@[simp] theorem setReg64_thermTrip (n o : Nat) (v : W64) : (d.setReg64 n o v).thermTrip = d.thermTrip := (setReg_thermTrip _ _ _ _).trans (setReg_thermTrip _ _ _ _)
@[simp] theorem setReg64_lostQuarters (n o : Nat) (v : W64) : (d.setReg64 n o v).lostQuarters = d.lostQuarters := (setReg_lostQuarters _ _ _ _).trans (setReg_lostQuarters _ _ _ _)
@[simp] theorem setReg64_lost (n o : Nat) (v : W64) : (d.setReg64 n o v).lost = d.lost := (setReg_lost _ _ _ _).trans (setReg_lost _ _ _ _)
@[simp] theorem setReg64_standbyEntering (n o : Nat) (v : W64) : (d.setReg64 n o v).standbyEntering = d.standbyEntering := (setReg_standbyEntering _ _ _ _).trans (setReg_standbyEntering _ _ _ _)
@[simp] theorem setReg64_standbyEmulated (n o : Nat) (v : W64) : (d.setReg64 n o v).standbyEmulated = d.standbyEmulated := (setReg_standbyEmulated _ _ _ _).trans (setReg_standbyEmulated _ _ _ _)
@[simp] theorem setReg64_standbyLinks (n o : Nat) (v : W64) : (d.setReg64 n o v).standbyLinks = d.standbyLinks := (setReg_standbyLinks _ _ _ _).trans (setReg_standbyLinks _ _ _ _)
@[simp] theorem setReg64_gcEdges (n o : Nat) (v : W64) : (d.setReg64 n o v).gcEdges = d.gcEdges := (setReg_gcEdges _ _ _ _).trans (setReg_gcEdges _ _ _ _)
@[simp] theorem setReg64_cfgCache (n o : Nat) (v : W64) : (d.setReg64 n o v).cfgCache = d.cfgCache := (setReg_cfgCache _ _ _ _).trans (setReg_cfgCache _ _ _ _)
@[simp] theorem setReg64_finished (n o : Nat) (v : W64) : (d.setReg64 n o v).finished = d.finished := (setReg_finished _ _ _ _).trans (setReg_finished _ _ _ _)
@[simp] theorem setReg64_catchIds (n o : Nat) (v : W64) : (d.setReg64 n o v).catchIds = d.catchIds := (setReg_catchIds _ _ _ _).trans (setReg_catchIds _ _ _ _)
@[simp] theorem setReg64_drams (n o : Nat) (v : W64) : (d.setReg64 n o v).drams = d.drams := (setReg_drams _ _ _ _).trans (setReg_drams _ _ _ _)
@[simp] theorem setReg64_isetNext (n o : Nat) (v : W64) : (d.setReg64 n o v).isetNext = d.isetNext := (setReg_isetNext _ _ _ _).trans (setReg_isetNext _ _ _ _)
@[simp] theorem setReg64_links (n o : Nat) (v : W64) : (d.setReg64 n o v).links = d.links := (setReg_links _ _ _ _).trans (setReg_links _ _ _ _)
@[simp] theorem setReg64_linkIds (n o : Nat) (v : W64) : (d.setReg64 n o v).linkIds = d.linkIds := (setReg_linkIds _ _ _ _).trans (setReg_linkIds _ _ _ _)
@[simp] theorem setReg64_linkChans (n o : Nat) (v : W64) : (d.setReg64 n o v).linkChans = d.linkChans := (setReg_linkChans _ _ _ _).trans (setReg_linkChans _ _ _ _)
@[simp] theorem setReg64_ppm (n o : Nat) (v : W64) : (d.setReg64 n o v).ppm = d.ppm := (setReg_ppm _ _ _ _).trans (setReg_ppm _ _ _ _)
@[simp] theorem setReg64_tickFrac (n o : Nat) (v : W64) : (d.setReg64 n o v).tickFrac = d.tickFrac := (setReg_tickFrac _ _ _ _).trans (setReg_tickFrac _ _ _ _)
@[simp] theorem setReg64_goodMeans (n o : Nat) (v : W64) : (d.setReg64 n o v).goodMeans = d.goodMeans := (setReg_goodMeans _ _ _ _).trans (setReg_goodMeans _ _ _ _)
@[simp] theorem setReg64_crewCmds (n o : Nat) (v : W64) : (d.setReg64 n o v).crewCmds = d.crewCmds := (setReg_crewCmds _ _ _ _).trans (setReg_crewCmds _ _ _ _)
@[simp] theorem setReg64_crewId (n o : Nat) (v : W64) : (d.setReg64 n o v).crewId = d.crewId := (setReg_crewId _ _ _ _).trans (setReg_crewId _ _ _ _)
@[simp] theorem setReg64_epochWait (n o : Nat) (v : W64) : (d.setReg64 n o v).epochWait = d.epochWait := (setReg_epochWait _ _ _ _).trans (setReg_epochWait _ _ _ _)
@[simp] theorem setReg64_tenants (n o : Nat) (v : W64) : (d.setReg64 n o v).tenants = d.tenants := (setReg_tenants _ _ _ _).trans (setReg_tenants _ _ _ _)
@[simp] theorem setReg64_pmeEn (n o : Nat) (v : W64) : (d.setReg64 n o v).pmeEn = d.pmeEn := (setReg_pmeEn _ _ _ _).trans (setReg_pmeEn _ _ _ _)
@[simp] theorem setReg64_vfEn (n o : Nat) (v : W64) : (d.setReg64 n o v).vfEn = d.vfEn := (setReg_vfEn _ _ _ _).trans (setReg_vfEn _ _ _ _)
@[simp] theorem setReg64_vecs (n o : Nat) (v : W64) : (d.setReg64 n o v).vecs = d.vecs := (setReg_vecs _ _ _ _).trans (setReg_vecs _ _ _ _)
@[simp] theorem setReg64_chans (n o : Nat) (v : W64) : (d.setReg64 n o v).chans = d.chans := (setReg_chans _ _ _ _).trans (setReg_chans _ _ _ _)
@[simp] theorem setReg64_hostAccs (n o : Nat) (v : W64) : (d.setReg64 n o v).hostAccs = d.hostAccs := (setReg_hostAccs _ _ _ _).trans (setReg_hostAccs _ _ _ _)
@[simp] theorem setReg64_hifUses (n o : Nat) (v : W64) : (d.setReg64 n o v).hifUses = d.hifUses := (setReg_hifUses _ _ _ _).trans (setReg_hifUses _ _ _ _)
@[simp] theorem setReg64_bar2Waits (n o : Nat) (v : W64) : (d.setReg64 n o v).bar2Waits = d.bar2Waits := (setReg_bar2Waits _ _ _ _).trans (setReg_bar2Waits _ _ _ _)
@[simp] theorem setReg64_hostTurns (n o : Nat) (v : W64) : (d.setReg64 n o v).hostTurns = d.hostTurns := (setReg_hostTurns _ _ _ _).trans (setReg_hostTurns _ _ _ _)
@[simp] theorem setReg64_hostLast (n o : Nat) (v : W64) : (d.setReg64 n o v).hostLast = d.hostLast := (setReg_hostLast _ _ _ _).trans (setReg_hostLast _ _ _ _)
@[simp] theorem setReg64_evlog (n o : Nat) (v : W64) : (d.setReg64 n o v).evlog = d.evlog := (setReg_evlog _ _ _ _).trans (setReg_evlog _ _ _ _)
@[simp] theorem setReg64_wipes (n o : Nat) (v : W64) : (d.setReg64 n o v).wipes = d.wipes := (setReg_wipes _ _ _ _).trans (setReg_wipes _ _ _ _)
@[simp] theorem setReg64_fills (n o : Nat) (v : W64) : (d.setReg64 n o v).fills = d.fills := (setReg_fills _ _ _ _).trans (setReg_fills _ _ _ _)
@[simp] theorem setReg64_unfilled (n o : Nat) (v : W64) : (d.setReg64 n o v).unfilled = d.unfilled := (setReg_unfilled _ _ _ _).trans (setReg_unfilled _ _ _ _)
@[simp] theorem setReg64_roleImg (n o : Nat) (v : W64) : (d.setReg64 n o v).roleImg = d.roleImg := (setReg_roleImg _ _ _ _).trans (setReg_roleImg _ _ _ _)
@[simp] theorem setReg64_svcTest (n o : Nat) (v : W64) : (d.setReg64 n o v).svcTest = d.svcTest := (setReg_svcTest _ _ _ _).trans (setReg_svcTest _ _ _ _)
@[simp] theorem setReg64_svcPass (n o : Nat) (v : W64) : (d.setReg64 n o v).svcPass = d.svcPass := (setReg_svcPass _ _ _ _).trans (setReg_svcPass _ _ _ _)
@[simp] theorem setReg64_roots (n o : Nat) (v : W64) : (d.setReg64 n o v).roots = d.roots := (setReg_roots _ _ _ _).trans (setReg_roots _ _ _ _)
@[simp] theorem setReg64_sealKeys (n o : Nat) (v : W64) : (d.setReg64 n o v).sealKeys = d.sealKeys := (setReg_sealKeys _ _ _ _).trans (setReg_sealKeys _ _ _ _)
@[simp] theorem setReg64_sealQ (n o : Nat) (v : W64) : (d.setReg64 n o v).sealQ = d.sealQ := (setReg_sealQ _ _ _ _).trans (setReg_sealQ _ _ _ _)
@[simp] theorem setReg64_sealOut (n o : Nat) (v : W64) : (d.setReg64 n o v).sealOut = d.sealOut := (setReg_sealOut _ _ _ _).trans (setReg_sealOut _ _ _ _)
@[simp] theorem setReg64_sealLast (n o : Nat) (v : W64) : (d.setReg64 n o v).sealLast = d.sealLast := (setReg_sealLast _ _ _ _).trans (setReg_sealLast _ _ _ _)
@[simp] theorem setReg64_versions (n o : Nat) (v : W64) : (d.setReg64 n o v).versions = d.versions := (setReg_versions _ _ _ _).trans (setReg_versions _ _ _ _)
@[simp] theorem setReg64_grants (n o : Nat) (v : W64) : (d.setReg64 n o v).grants = d.grants := (setReg_grants _ _ _ _).trans (setReg_grants _ _ _ _)
@[simp] theorem setReg64_battery (n o : Nat) (v : W64) : (d.setReg64 n o v).battery = d.battery := (setReg_battery _ _ _ _).trans (setReg_battery _ _ _ _)
@[simp] theorem setReg64_fuseKey (n o : Nat) (v : W64) : (d.setReg64 n o v).fuseKey = d.fuseKey := (setReg_fuseKey _ _ _ _).trans (setReg_fuseKey _ _ _ _)
@[simp] theorem setReg64_fuseKeyOk (n o : Nat) (v : W64) : (d.setReg64 n o v).fuseKeyOk = d.fuseKeyOk := (setReg_fuseKeyOk _ _ _ _).trans (setReg_fuseKeyOk _ _ _ _)
@[simp] theorem setReg64_load (n o : Nat) (v : W64) : (d.setReg64 n o v).load = d.load := (setReg_load _ _ _ _).trans (setReg_load _ _ _ _)
@[simp] theorem setReg64_awaitHost (n o : Nat) (v : W64) : (d.setReg64 n o v).awaitHost = d.awaitHost := (setReg_awaitHost _ _ _ _).trans (setReg_awaitHost _ _ _ _)
@[simp] theorem setReg64_bootTries (n o : Nat) (v : W64) : (d.setReg64 n o v).bootTries = d.bootTries := (setReg_bootTries _ _ _ _).trans (setReg_bootTries _ _ _ _)
@[simp] theorem setReg64_cfgDone (n o : Nat) (v : W64) : (d.setReg64 n o v).cfgDone = d.cfgDone := (setReg_cfgDone _ _ _ _).trans (setReg_cfgDone _ _ _ _)
@[simp] theorem setReg64_flashCmd (n o : Nat) (v : W64) : (d.setReg64 n o v).flashCmd = d.flashCmd := (setReg_flashCmd _ _ _ _).trans (setReg_flashCmd _ _ _ _)
@[simp] theorem setReg64_wakeQueue (n o : Nat) (v : W64) : (d.setReg64 n o v).wakeQueue = d.wakeQueue := (setReg_wakeQueue _ _ _ _).trans (setReg_wakeQueue _ _ _ _)
@[simp] theorem setReg64_jtag (n o : Nat) (v : W64) : (d.setReg64 n o v).jtag = d.jtag := (setReg_jtag _ _ _ _).trans (setReg_jtag _ _ _ _)
@[simp] theorem setReg64_apTag (n o : Nat) (v : W64) : (d.setReg64 n o v).apTag = d.apTag := (setReg_apTag _ _ _ _).trans (setReg_apTag _ _ _ _)
@[simp] theorem setReg64_stateWait (n o : Nat) (v : W64) : (d.setReg64 n o v).stateWait = d.stateWait := (setReg_stateWait _ _ _ _).trans (setReg_stateWait _ _ _ _)
@[simp] theorem setReg64_wakeWait (n o : Nat) (v : W64) : (d.setReg64 n o v).wakeWait = d.wakeWait := (setReg_wakeWait _ _ _ _).trans (setReg_wakeWait _ _ _ _)
@[simp] theorem setReg64_xtrgWait (n o : Nat) (v : W64) : (d.setReg64 n o v).xtrgWait = d.xtrgWait := (setReg_xtrgWait _ _ _ _).trans (setReg_xtrgWait _ _ _ _)

/-! #### setReg128 -/

@[simp] theorem setReg128_dtime (n o : Nat) (v : W128) : (d.setReg128 n o v).dtime = d.dtime := (setReg64_dtime _ _ _ _).trans (setReg64_dtime _ _ _ _)
@[simp] theorem setReg128_free (n o : Nat) (v : W128) : (d.setReg128 n o v).free = d.free := (setReg64_free _ _ _ _).trans (setReg64_free _ _ _ _)
@[simp] theorem setReg128_out (n o : Nat) (v : W128) : (d.setReg128 n o v).out = d.out := (setReg64_out _ _ _ _).trans (setReg64_out _ _ _ _)
@[simp] theorem setReg128_holdRd (n o : Nat) (v : W128) : (d.setReg128 n o v).holdRd = d.holdRd := (setReg64_holdRd _ _ _ _).trans (setReg64_holdRd _ _ _ _)
@[simp] theorem setReg128_holdWr (n o : Nat) (v : W128) : (d.setReg128 n o v).holdWr = d.holdWr := (setReg64_holdWr _ _ _ _).trans (setReg64_holdWr _ _ _ _)
@[simp] theorem setReg128_noc (n o : Nat) (v : W128) : (d.setReg128 n o v).noc = d.noc := (setReg64_noc _ _ _ _).trans (setReg64_noc _ _ _ _)
@[simp] theorem setReg128_brams (n o : Nat) (v : W128) : (d.setReg128 n o v).brams = d.brams := (setReg64_brams _ _ _ _).trans (setReg64_brams _ _ _ _)
@[simp] theorem setReg128_rows (n o : Nat) (v : W128) : (d.setReg128 n o v).rows = d.rows := (setReg64_rows _ _ _ _).trans (setReg64_rows _ _ _ _)
@[simp] theorem setReg128_slices (n o : Nat) (v : W128) : (d.setReg128 n o v).slices = d.slices := (setReg64_slices _ _ _ _).trans (setReg64_slices _ _ _ _)
@[simp] theorem setReg128_islands (n o : Nat) (v : W128) : (d.setReg128 n o v).islands = d.islands := (setReg64_islands _ _ _ _).trans (setReg64_islands _ _ _ _)
@[simp] theorem setReg128_frames (n o : Nat) (v : W128) : (d.setReg128 n o v).frames = d.frames := (setReg64_frames _ _ _ _).trans (setReg64_frames _ _ _ _)
@[simp] theorem setReg128_ffs (n o : Nat) (v : W128) : (d.setReg128 n o v).ffs = d.ffs := (setReg64_ffs _ _ _ _).trans (setReg64_ffs _ _ _ _)
@[simp] theorem setReg128_ffUpset (n o : Nat) (v : W128) : (d.setReg128 n o v).ffUpset = d.ffUpset := (setReg64_ffUpset _ _ _ _).trans (setReg64_ffUpset _ _ _ _)
@[simp] theorem setReg128_transients (n o : Nat) (v : W128) : (d.setReg128 n o v).transients = d.transients := (setReg64_transients _ _ _ _).trans (setReg64_transients _ _ _ _)
@[simp] theorem setReg128_regions (n o : Nat) (v : W128) : (d.setReg128 n o v).regions = d.regions := (setReg64_regions _ _ _ _).trans (setReg64_regions _ _ _ _)
@[simp] theorem setReg128_catches (n o : Nat) (v : W128) : (d.setReg128 n o v).catches = d.catches := (setReg64_catches _ _ _ _).trans (setReg64_catches _ _ _ _)
@[simp] theorem setReg128_pinLevels (n o : Nat) (v : W128) : (d.setReg128 n o v).pinLevels = d.pinLevels := (setReg64_pinLevels _ _ _ _).trans (setReg64_pinLevels _ _ _ _)
@[simp] theorem setReg128_pinOut (n o : Nat) (v : W128) : (d.setReg128 n o v).pinOut = d.pinOut := (setReg64_pinOut _ _ _ _).trans (setReg64_pinOut _ _ _ _)
@[simp] theorem setReg128_pinEn (n o : Nat) (v : W128) : (d.setReg128 n o v).pinEn = d.pinEn := (setReg64_pinEn _ _ _ _).trans (setReg64_pinEn _ _ _ _)
@[simp] theorem setReg128_lanes (n o : Nat) (v : W128) : (d.setReg128 n o v).lanes = d.lanes := (setReg64_lanes _ _ _ _).trans (setReg64_lanes _ _ _ _)
@[simp] theorem setReg128_pllMult (n o : Nat) (v : W128) : (d.setReg128 n o v).pllMult = d.pllMult := (setReg64_pllMult _ _ _ _).trans (setReg64_pllMult _ _ _ _)
@[simp] theorem setReg128_gcinTerm (n o : Nat) (v : W128) : (d.setReg128 n o v).gcinTerm = d.gcinTerm := (setReg64_gcinTerm _ _ _ _).trans (setReg64_gcinTerm _ _ _ _)
@[simp] theorem setReg128_engines (n o : Nat) (v : W128) : (d.setReg128 n o v).engines = d.engines := (setReg64_engines _ _ _ _).trans (setReg64_engines _ _ _ _)
@[simp] theorem setReg128_sigs (n o : Nat) (v : W128) : (d.setReg128 n o v).sigs = d.sigs := (setReg64_sigs _ _ _ _).trans (setReg64_sigs _ _ _ _)
@[simp] theorem setReg128_grpLast (n o : Nat) (v : W128) : (d.setReg128 n o v).grpLast = d.grpLast := (setReg64_grpLast _ _ _ _).trans (setReg64_grpLast _ _ _ _)
@[simp] theorem setReg128_isets (n o : Nat) (v : W128) : (d.setReg128 n o v).isets = d.isets := (setReg64_isets _ _ _ _).trans (setReg64_isets _ _ _ _)
@[simp] theorem setReg128_thermTrip (n o : Nat) (v : W128) : (d.setReg128 n o v).thermTrip = d.thermTrip := (setReg64_thermTrip _ _ _ _).trans (setReg64_thermTrip _ _ _ _)
@[simp] theorem setReg128_lostQuarters (n o : Nat) (v : W128) : (d.setReg128 n o v).lostQuarters = d.lostQuarters := (setReg64_lostQuarters _ _ _ _).trans (setReg64_lostQuarters _ _ _ _)
@[simp] theorem setReg128_lost (n o : Nat) (v : W128) : (d.setReg128 n o v).lost = d.lost := (setReg64_lost _ _ _ _).trans (setReg64_lost _ _ _ _)
@[simp] theorem setReg128_standbyEntering (n o : Nat) (v : W128) : (d.setReg128 n o v).standbyEntering = d.standbyEntering := (setReg64_standbyEntering _ _ _ _).trans (setReg64_standbyEntering _ _ _ _)
@[simp] theorem setReg128_standbyEmulated (n o : Nat) (v : W128) : (d.setReg128 n o v).standbyEmulated = d.standbyEmulated := (setReg64_standbyEmulated _ _ _ _).trans (setReg64_standbyEmulated _ _ _ _)
@[simp] theorem setReg128_standbyLinks (n o : Nat) (v : W128) : (d.setReg128 n o v).standbyLinks = d.standbyLinks := (setReg64_standbyLinks _ _ _ _).trans (setReg64_standbyLinks _ _ _ _)
@[simp] theorem setReg128_gcEdges (n o : Nat) (v : W128) : (d.setReg128 n o v).gcEdges = d.gcEdges := (setReg64_gcEdges _ _ _ _).trans (setReg64_gcEdges _ _ _ _)
@[simp] theorem setReg128_cfgCache (n o : Nat) (v : W128) : (d.setReg128 n o v).cfgCache = d.cfgCache := (setReg64_cfgCache _ _ _ _).trans (setReg64_cfgCache _ _ _ _)
@[simp] theorem setReg128_finished (n o : Nat) (v : W128) : (d.setReg128 n o v).finished = d.finished := (setReg64_finished _ _ _ _).trans (setReg64_finished _ _ _ _)
@[simp] theorem setReg128_catchIds (n o : Nat) (v : W128) : (d.setReg128 n o v).catchIds = d.catchIds := (setReg64_catchIds _ _ _ _).trans (setReg64_catchIds _ _ _ _)
@[simp] theorem setReg128_drams (n o : Nat) (v : W128) : (d.setReg128 n o v).drams = d.drams := (setReg64_drams _ _ _ _).trans (setReg64_drams _ _ _ _)
@[simp] theorem setReg128_isetNext (n o : Nat) (v : W128) : (d.setReg128 n o v).isetNext = d.isetNext := (setReg64_isetNext _ _ _ _).trans (setReg64_isetNext _ _ _ _)
@[simp] theorem setReg128_links (n o : Nat) (v : W128) : (d.setReg128 n o v).links = d.links := (setReg64_links _ _ _ _).trans (setReg64_links _ _ _ _)
@[simp] theorem setReg128_linkIds (n o : Nat) (v : W128) : (d.setReg128 n o v).linkIds = d.linkIds := (setReg64_linkIds _ _ _ _).trans (setReg64_linkIds _ _ _ _)
@[simp] theorem setReg128_linkChans (n o : Nat) (v : W128) : (d.setReg128 n o v).linkChans = d.linkChans := (setReg64_linkChans _ _ _ _).trans (setReg64_linkChans _ _ _ _)
@[simp] theorem setReg128_ppm (n o : Nat) (v : W128) : (d.setReg128 n o v).ppm = d.ppm := (setReg64_ppm _ _ _ _).trans (setReg64_ppm _ _ _ _)
@[simp] theorem setReg128_tickFrac (n o : Nat) (v : W128) : (d.setReg128 n o v).tickFrac = d.tickFrac := (setReg64_tickFrac _ _ _ _).trans (setReg64_tickFrac _ _ _ _)
@[simp] theorem setReg128_goodMeans (n o : Nat) (v : W128) : (d.setReg128 n o v).goodMeans = d.goodMeans := (setReg64_goodMeans _ _ _ _).trans (setReg64_goodMeans _ _ _ _)
@[simp] theorem setReg128_crewCmds (n o : Nat) (v : W128) : (d.setReg128 n o v).crewCmds = d.crewCmds := (setReg64_crewCmds _ _ _ _).trans (setReg64_crewCmds _ _ _ _)
@[simp] theorem setReg128_crewId (n o : Nat) (v : W128) : (d.setReg128 n o v).crewId = d.crewId := (setReg64_crewId _ _ _ _).trans (setReg64_crewId _ _ _ _)
@[simp] theorem setReg128_epochWait (n o : Nat) (v : W128) : (d.setReg128 n o v).epochWait = d.epochWait := (setReg64_epochWait _ _ _ _).trans (setReg64_epochWait _ _ _ _)
@[simp] theorem setReg128_tenants (n o : Nat) (v : W128) : (d.setReg128 n o v).tenants = d.tenants := (setReg64_tenants _ _ _ _).trans (setReg64_tenants _ _ _ _)
@[simp] theorem setReg128_pmeEn (n o : Nat) (v : W128) : (d.setReg128 n o v).pmeEn = d.pmeEn := (setReg64_pmeEn _ _ _ _).trans (setReg64_pmeEn _ _ _ _)
@[simp] theorem setReg128_vfEn (n o : Nat) (v : W128) : (d.setReg128 n o v).vfEn = d.vfEn := (setReg64_vfEn _ _ _ _).trans (setReg64_vfEn _ _ _ _)
@[simp] theorem setReg128_vecs (n o : Nat) (v : W128) : (d.setReg128 n o v).vecs = d.vecs := (setReg64_vecs _ _ _ _).trans (setReg64_vecs _ _ _ _)
@[simp] theorem setReg128_chans (n o : Nat) (v : W128) : (d.setReg128 n o v).chans = d.chans := (setReg64_chans _ _ _ _).trans (setReg64_chans _ _ _ _)
@[simp] theorem setReg128_hostAccs (n o : Nat) (v : W128) : (d.setReg128 n o v).hostAccs = d.hostAccs := (setReg64_hostAccs _ _ _ _).trans (setReg64_hostAccs _ _ _ _)
@[simp] theorem setReg128_hifUses (n o : Nat) (v : W128) : (d.setReg128 n o v).hifUses = d.hifUses := (setReg64_hifUses _ _ _ _).trans (setReg64_hifUses _ _ _ _)
@[simp] theorem setReg128_bar2Waits (n o : Nat) (v : W128) : (d.setReg128 n o v).bar2Waits = d.bar2Waits := (setReg64_bar2Waits _ _ _ _).trans (setReg64_bar2Waits _ _ _ _)
@[simp] theorem setReg128_hostTurns (n o : Nat) (v : W128) : (d.setReg128 n o v).hostTurns = d.hostTurns := (setReg64_hostTurns _ _ _ _).trans (setReg64_hostTurns _ _ _ _)
@[simp] theorem setReg128_hostLast (n o : Nat) (v : W128) : (d.setReg128 n o v).hostLast = d.hostLast := (setReg64_hostLast _ _ _ _).trans (setReg64_hostLast _ _ _ _)
@[simp] theorem setReg128_evlog (n o : Nat) (v : W128) : (d.setReg128 n o v).evlog = d.evlog := (setReg64_evlog _ _ _ _).trans (setReg64_evlog _ _ _ _)
@[simp] theorem setReg128_wipes (n o : Nat) (v : W128) : (d.setReg128 n o v).wipes = d.wipes := (setReg64_wipes _ _ _ _).trans (setReg64_wipes _ _ _ _)
@[simp] theorem setReg128_fills (n o : Nat) (v : W128) : (d.setReg128 n o v).fills = d.fills := (setReg64_fills _ _ _ _).trans (setReg64_fills _ _ _ _)
@[simp] theorem setReg128_unfilled (n o : Nat) (v : W128) : (d.setReg128 n o v).unfilled = d.unfilled := (setReg64_unfilled _ _ _ _).trans (setReg64_unfilled _ _ _ _)
@[simp] theorem setReg128_roleImg (n o : Nat) (v : W128) : (d.setReg128 n o v).roleImg = d.roleImg := (setReg64_roleImg _ _ _ _).trans (setReg64_roleImg _ _ _ _)
@[simp] theorem setReg128_svcTest (n o : Nat) (v : W128) : (d.setReg128 n o v).svcTest = d.svcTest := (setReg64_svcTest _ _ _ _).trans (setReg64_svcTest _ _ _ _)
@[simp] theorem setReg128_svcPass (n o : Nat) (v : W128) : (d.setReg128 n o v).svcPass = d.svcPass := (setReg64_svcPass _ _ _ _).trans (setReg64_svcPass _ _ _ _)
@[simp] theorem setReg128_roots (n o : Nat) (v : W128) : (d.setReg128 n o v).roots = d.roots := (setReg64_roots _ _ _ _).trans (setReg64_roots _ _ _ _)
@[simp] theorem setReg128_sealKeys (n o : Nat) (v : W128) : (d.setReg128 n o v).sealKeys = d.sealKeys := (setReg64_sealKeys _ _ _ _).trans (setReg64_sealKeys _ _ _ _)
@[simp] theorem setReg128_sealQ (n o : Nat) (v : W128) : (d.setReg128 n o v).sealQ = d.sealQ := (setReg64_sealQ _ _ _ _).trans (setReg64_sealQ _ _ _ _)
@[simp] theorem setReg128_sealOut (n o : Nat) (v : W128) : (d.setReg128 n o v).sealOut = d.sealOut := (setReg64_sealOut _ _ _ _).trans (setReg64_sealOut _ _ _ _)
@[simp] theorem setReg128_sealLast (n o : Nat) (v : W128) : (d.setReg128 n o v).sealLast = d.sealLast := (setReg64_sealLast _ _ _ _).trans (setReg64_sealLast _ _ _ _)
@[simp] theorem setReg128_versions (n o : Nat) (v : W128) : (d.setReg128 n o v).versions = d.versions := (setReg64_versions _ _ _ _).trans (setReg64_versions _ _ _ _)
@[simp] theorem setReg128_grants (n o : Nat) (v : W128) : (d.setReg128 n o v).grants = d.grants := (setReg64_grants _ _ _ _).trans (setReg64_grants _ _ _ _)
@[simp] theorem setReg128_battery (n o : Nat) (v : W128) : (d.setReg128 n o v).battery = d.battery := (setReg64_battery _ _ _ _).trans (setReg64_battery _ _ _ _)
@[simp] theorem setReg128_fuseKey (n o : Nat) (v : W128) : (d.setReg128 n o v).fuseKey = d.fuseKey := (setReg64_fuseKey _ _ _ _).trans (setReg64_fuseKey _ _ _ _)
@[simp] theorem setReg128_fuseKeyOk (n o : Nat) (v : W128) : (d.setReg128 n o v).fuseKeyOk = d.fuseKeyOk := (setReg64_fuseKeyOk _ _ _ _).trans (setReg64_fuseKeyOk _ _ _ _)
@[simp] theorem setReg128_load (n o : Nat) (v : W128) : (d.setReg128 n o v).load = d.load := (setReg64_load _ _ _ _).trans (setReg64_load _ _ _ _)
@[simp] theorem setReg128_awaitHost (n o : Nat) (v : W128) : (d.setReg128 n o v).awaitHost = d.awaitHost := (setReg64_awaitHost _ _ _ _).trans (setReg64_awaitHost _ _ _ _)
@[simp] theorem setReg128_bootTries (n o : Nat) (v : W128) : (d.setReg128 n o v).bootTries = d.bootTries := (setReg64_bootTries _ _ _ _).trans (setReg64_bootTries _ _ _ _)
@[simp] theorem setReg128_cfgDone (n o : Nat) (v : W128) : (d.setReg128 n o v).cfgDone = d.cfgDone := (setReg64_cfgDone _ _ _ _).trans (setReg64_cfgDone _ _ _ _)
@[simp] theorem setReg128_flashCmd (n o : Nat) (v : W128) : (d.setReg128 n o v).flashCmd = d.flashCmd := (setReg64_flashCmd _ _ _ _).trans (setReg64_flashCmd _ _ _ _)
@[simp] theorem setReg128_wakeQueue (n o : Nat) (v : W128) : (d.setReg128 n o v).wakeQueue = d.wakeQueue := (setReg64_wakeQueue _ _ _ _).trans (setReg64_wakeQueue _ _ _ _)
@[simp] theorem setReg128_jtag (n o : Nat) (v : W128) : (d.setReg128 n o v).jtag = d.jtag := (setReg64_jtag _ _ _ _).trans (setReg64_jtag _ _ _ _)
@[simp] theorem setReg128_apTag (n o : Nat) (v : W128) : (d.setReg128 n o v).apTag = d.apTag := (setReg64_apTag _ _ _ _).trans (setReg64_apTag _ _ _ _)
@[simp] theorem setReg128_stateWait (n o : Nat) (v : W128) : (d.setReg128 n o v).stateWait = d.stateWait := (setReg64_stateWait _ _ _ _).trans (setReg64_stateWait _ _ _ _)
@[simp] theorem setReg128_wakeWait (n o : Nat) (v : W128) : (d.setReg128 n o v).wakeWait = d.wakeWait := (setReg64_wakeWait _ _ _ _).trans (setReg64_wakeWait _ _ _ _)
@[simp] theorem setReg128_xtrgWait (n o : Nat) (v : W128) : (d.setReg128 n o v).xtrgWait = d.xtrgWait := (setReg64_xtrgWait _ _ _ _).trans (setReg64_xtrgWait _ _ _ _)

/-! #### countFld -/

@[simp] theorem countFld_dtime (n o lo w x : Nat) : (d.countFld n o lo w x).dtime = d.dtime := rfl
@[simp] theorem countFld_free (n o lo w x : Nat) : (d.countFld n o lo w x).free = d.free := rfl
@[simp] theorem countFld_out (n o lo w x : Nat) : (d.countFld n o lo w x).out = d.out := rfl
@[simp] theorem countFld_holdRd (n o lo w x : Nat) : (d.countFld n o lo w x).holdRd = d.holdRd := rfl
@[simp] theorem countFld_holdWr (n o lo w x : Nat) : (d.countFld n o lo w x).holdWr = d.holdWr := rfl
@[simp] theorem countFld_noc (n o lo w x : Nat) : (d.countFld n o lo w x).noc = d.noc := rfl
@[simp] theorem countFld_brams (n o lo w x : Nat) : (d.countFld n o lo w x).brams = d.brams := rfl
@[simp] theorem countFld_rows (n o lo w x : Nat) : (d.countFld n o lo w x).rows = d.rows := rfl
@[simp] theorem countFld_slices (n o lo w x : Nat) : (d.countFld n o lo w x).slices = d.slices := rfl
@[simp] theorem countFld_islands (n o lo w x : Nat) : (d.countFld n o lo w x).islands = d.islands := rfl
@[simp] theorem countFld_frames (n o lo w x : Nat) : (d.countFld n o lo w x).frames = d.frames := rfl
@[simp] theorem countFld_ffs (n o lo w x : Nat) : (d.countFld n o lo w x).ffs = d.ffs := rfl
@[simp] theorem countFld_ffUpset (n o lo w x : Nat) : (d.countFld n o lo w x).ffUpset = d.ffUpset := rfl
@[simp] theorem countFld_transients (n o lo w x : Nat) : (d.countFld n o lo w x).transients = d.transients := rfl
@[simp] theorem countFld_regions (n o lo w x : Nat) : (d.countFld n o lo w x).regions = d.regions := rfl
@[simp] theorem countFld_catches (n o lo w x : Nat) : (d.countFld n o lo w x).catches = d.catches := rfl
@[simp] theorem countFld_pinLevels (n o lo w x : Nat) : (d.countFld n o lo w x).pinLevels = d.pinLevels := rfl
@[simp] theorem countFld_pinOut (n o lo w x : Nat) : (d.countFld n o lo w x).pinOut = d.pinOut := rfl
@[simp] theorem countFld_pinEn (n o lo w x : Nat) : (d.countFld n o lo w x).pinEn = d.pinEn := rfl
@[simp] theorem countFld_lanes (n o lo w x : Nat) : (d.countFld n o lo w x).lanes = d.lanes := rfl
@[simp] theorem countFld_pllMult (n o lo w x : Nat) : (d.countFld n o lo w x).pllMult = d.pllMult := rfl
@[simp] theorem countFld_gcinTerm (n o lo w x : Nat) : (d.countFld n o lo w x).gcinTerm = d.gcinTerm := rfl
@[simp] theorem countFld_engines (n o lo w x : Nat) : (d.countFld n o lo w x).engines = d.engines := rfl
@[simp] theorem countFld_sigs (n o lo w x : Nat) : (d.countFld n o lo w x).sigs = d.sigs := rfl
@[simp] theorem countFld_grpLast (n o lo w x : Nat) : (d.countFld n o lo w x).grpLast = d.grpLast := rfl
@[simp] theorem countFld_isets (n o lo w x : Nat) : (d.countFld n o lo w x).isets = d.isets := rfl
@[simp] theorem countFld_thermTrip (n o lo w x : Nat) : (d.countFld n o lo w x).thermTrip = d.thermTrip := rfl
@[simp] theorem countFld_lostQuarters (n o lo w x : Nat) : (d.countFld n o lo w x).lostQuarters = d.lostQuarters := rfl
@[simp] theorem countFld_lost (n o lo w x : Nat) : (d.countFld n o lo w x).lost = d.lost := rfl
@[simp] theorem countFld_standbyEntering (n o lo w x : Nat) : (d.countFld n o lo w x).standbyEntering = d.standbyEntering := rfl
@[simp] theorem countFld_standbyEmulated (n o lo w x : Nat) : (d.countFld n o lo w x).standbyEmulated = d.standbyEmulated := rfl
@[simp] theorem countFld_standbyLinks (n o lo w x : Nat) : (d.countFld n o lo w x).standbyLinks = d.standbyLinks := rfl
@[simp] theorem countFld_gcEdges (n o lo w x : Nat) : (d.countFld n o lo w x).gcEdges = d.gcEdges := rfl
@[simp] theorem countFld_cfgCache (n o lo w x : Nat) : (d.countFld n o lo w x).cfgCache = d.cfgCache := rfl
@[simp] theorem countFld_finished (n o lo w x : Nat) : (d.countFld n o lo w x).finished = d.finished := rfl
@[simp] theorem countFld_catchIds (n o lo w x : Nat) : (d.countFld n o lo w x).catchIds = d.catchIds := rfl
@[simp] theorem countFld_drams (n o lo w x : Nat) : (d.countFld n o lo w x).drams = d.drams := rfl
@[simp] theorem countFld_isetNext (n o lo w x : Nat) : (d.countFld n o lo w x).isetNext = d.isetNext := rfl
@[simp] theorem countFld_links (n o lo w x : Nat) : (d.countFld n o lo w x).links = d.links := rfl
@[simp] theorem countFld_linkIds (n o lo w x : Nat) : (d.countFld n o lo w x).linkIds = d.linkIds := rfl
@[simp] theorem countFld_linkChans (n o lo w x : Nat) : (d.countFld n o lo w x).linkChans = d.linkChans := rfl
@[simp] theorem countFld_ppm (n o lo w x : Nat) : (d.countFld n o lo w x).ppm = d.ppm := rfl
@[simp] theorem countFld_tickFrac (n o lo w x : Nat) : (d.countFld n o lo w x).tickFrac = d.tickFrac := rfl
@[simp] theorem countFld_goodMeans (n o lo w x : Nat) : (d.countFld n o lo w x).goodMeans = d.goodMeans := rfl
@[simp] theorem countFld_crewCmds (n o lo w x : Nat) : (d.countFld n o lo w x).crewCmds = d.crewCmds := rfl
@[simp] theorem countFld_crewId (n o lo w x : Nat) : (d.countFld n o lo w x).crewId = d.crewId := rfl
@[simp] theorem countFld_epochWait (n o lo w x : Nat) : (d.countFld n o lo w x).epochWait = d.epochWait := rfl
@[simp] theorem countFld_tenants (n o lo w x : Nat) : (d.countFld n o lo w x).tenants = d.tenants := rfl
@[simp] theorem countFld_pmeEn (n o lo w x : Nat) : (d.countFld n o lo w x).pmeEn = d.pmeEn := rfl
@[simp] theorem countFld_vfEn (n o lo w x : Nat) : (d.countFld n o lo w x).vfEn = d.vfEn := rfl
@[simp] theorem countFld_vecs (n o lo w x : Nat) : (d.countFld n o lo w x).vecs = d.vecs := rfl
@[simp] theorem countFld_chans (n o lo w x : Nat) : (d.countFld n o lo w x).chans = d.chans := rfl
@[simp] theorem countFld_hostAccs (n o lo w x : Nat) : (d.countFld n o lo w x).hostAccs = d.hostAccs := rfl
@[simp] theorem countFld_hifUses (n o lo w x : Nat) : (d.countFld n o lo w x).hifUses = d.hifUses := rfl
@[simp] theorem countFld_bar2Waits (n o lo w x : Nat) : (d.countFld n o lo w x).bar2Waits = d.bar2Waits := rfl
@[simp] theorem countFld_hostTurns (n o lo w x : Nat) : (d.countFld n o lo w x).hostTurns = d.hostTurns := rfl
@[simp] theorem countFld_hostLast (n o lo w x : Nat) : (d.countFld n o lo w x).hostLast = d.hostLast := rfl
@[simp] theorem countFld_evlog (n o lo w x : Nat) : (d.countFld n o lo w x).evlog = d.evlog := rfl
@[simp] theorem countFld_wipes (n o lo w x : Nat) : (d.countFld n o lo w x).wipes = d.wipes := rfl
@[simp] theorem countFld_fills (n o lo w x : Nat) : (d.countFld n o lo w x).fills = d.fills := rfl
@[simp] theorem countFld_unfilled (n o lo w x : Nat) : (d.countFld n o lo w x).unfilled = d.unfilled := rfl
@[simp] theorem countFld_roleImg (n o lo w x : Nat) : (d.countFld n o lo w x).roleImg = d.roleImg := rfl
@[simp] theorem countFld_svcTest (n o lo w x : Nat) : (d.countFld n o lo w x).svcTest = d.svcTest := rfl
@[simp] theorem countFld_svcPass (n o lo w x : Nat) : (d.countFld n o lo w x).svcPass = d.svcPass := rfl
@[simp] theorem countFld_roots (n o lo w x : Nat) : (d.countFld n o lo w x).roots = d.roots := rfl
@[simp] theorem countFld_sealKeys (n o lo w x : Nat) : (d.countFld n o lo w x).sealKeys = d.sealKeys := rfl
@[simp] theorem countFld_sealQ (n o lo w x : Nat) : (d.countFld n o lo w x).sealQ = d.sealQ := rfl
@[simp] theorem countFld_sealOut (n o lo w x : Nat) : (d.countFld n o lo w x).sealOut = d.sealOut := rfl
@[simp] theorem countFld_sealLast (n o lo w x : Nat) : (d.countFld n o lo w x).sealLast = d.sealLast := rfl
@[simp] theorem countFld_versions (n o lo w x : Nat) : (d.countFld n o lo w x).versions = d.versions := rfl
@[simp] theorem countFld_grants (n o lo w x : Nat) : (d.countFld n o lo w x).grants = d.grants := rfl
@[simp] theorem countFld_battery (n o lo w x : Nat) : (d.countFld n o lo w x).battery = d.battery := rfl
@[simp] theorem countFld_fuseKey (n o lo w x : Nat) : (d.countFld n o lo w x).fuseKey = d.fuseKey := rfl
@[simp] theorem countFld_fuseKeyOk (n o lo w x : Nat) : (d.countFld n o lo w x).fuseKeyOk = d.fuseKeyOk := rfl
@[simp] theorem countFld_load (n o lo w x : Nat) : (d.countFld n o lo w x).load = d.load := rfl
@[simp] theorem countFld_awaitHost (n o lo w x : Nat) : (d.countFld n o lo w x).awaitHost = d.awaitHost := rfl
@[simp] theorem countFld_bootTries (n o lo w x : Nat) : (d.countFld n o lo w x).bootTries = d.bootTries := rfl
@[simp] theorem countFld_cfgDone (n o lo w x : Nat) : (d.countFld n o lo w x).cfgDone = d.cfgDone := rfl
@[simp] theorem countFld_flashCmd (n o lo w x : Nat) : (d.countFld n o lo w x).flashCmd = d.flashCmd := rfl
@[simp] theorem countFld_wakeQueue (n o lo w x : Nat) : (d.countFld n o lo w x).wakeQueue = d.wakeQueue := rfl
@[simp] theorem countFld_jtag (n o lo w x : Nat) : (d.countFld n o lo w x).jtag = d.jtag := rfl
@[simp] theorem countFld_apTag (n o lo w x : Nat) : (d.countFld n o lo w x).apTag = d.apTag := rfl
@[simp] theorem countFld_stateWait (n o lo w x : Nat) : (d.countFld n o lo w x).stateWait = d.stateWait := rfl
@[simp] theorem countFld_wakeWait (n o lo w x : Nat) : (d.countFld n o lo w x).wakeWait = d.wakeWait := rfl
@[simp] theorem countFld_xtrgWait (n o lo w x : Nat) : (d.countFld n o lo w x).xtrgWait = d.xtrgWait := rfl

/-! #### resetRegs -/

@[simp] theorem resetRegs_dtime (n lo hi : Nat) : (d.resetRegs n lo hi).dtime = d.dtime := rfl
@[simp] theorem resetRegs_free (n lo hi : Nat) : (d.resetRegs n lo hi).free = d.free := rfl
@[simp] theorem resetRegs_out (n lo hi : Nat) : (d.resetRegs n lo hi).out = d.out := rfl
@[simp] theorem resetRegs_holdRd (n lo hi : Nat) : (d.resetRegs n lo hi).holdRd = d.holdRd := rfl
@[simp] theorem resetRegs_holdWr (n lo hi : Nat) : (d.resetRegs n lo hi).holdWr = d.holdWr := rfl
@[simp] theorem resetRegs_noc (n lo hi : Nat) : (d.resetRegs n lo hi).noc = d.noc := rfl
@[simp] theorem resetRegs_brams (n lo hi : Nat) : (d.resetRegs n lo hi).brams = d.brams := rfl
@[simp] theorem resetRegs_rows (n lo hi : Nat) : (d.resetRegs n lo hi).rows = d.rows := rfl
@[simp] theorem resetRegs_slices (n lo hi : Nat) : (d.resetRegs n lo hi).slices = d.slices := rfl
@[simp] theorem resetRegs_islands (n lo hi : Nat) : (d.resetRegs n lo hi).islands = d.islands := rfl
@[simp] theorem resetRegs_frames (n lo hi : Nat) : (d.resetRegs n lo hi).frames = d.frames := rfl
@[simp] theorem resetRegs_ffs (n lo hi : Nat) : (d.resetRegs n lo hi).ffs = d.ffs := rfl
@[simp] theorem resetRegs_ffUpset (n lo hi : Nat) : (d.resetRegs n lo hi).ffUpset = d.ffUpset := rfl
@[simp] theorem resetRegs_transients (n lo hi : Nat) : (d.resetRegs n lo hi).transients = d.transients := rfl
@[simp] theorem resetRegs_regions (n lo hi : Nat) : (d.resetRegs n lo hi).regions = d.regions := rfl
@[simp] theorem resetRegs_catches (n lo hi : Nat) : (d.resetRegs n lo hi).catches = d.catches := rfl
@[simp] theorem resetRegs_pinLevels (n lo hi : Nat) : (d.resetRegs n lo hi).pinLevels = d.pinLevels := rfl
@[simp] theorem resetRegs_pinOut (n lo hi : Nat) : (d.resetRegs n lo hi).pinOut = d.pinOut := rfl
@[simp] theorem resetRegs_pinEn (n lo hi : Nat) : (d.resetRegs n lo hi).pinEn = d.pinEn := rfl
@[simp] theorem resetRegs_lanes (n lo hi : Nat) : (d.resetRegs n lo hi).lanes = d.lanes := rfl
@[simp] theorem resetRegs_pllMult (n lo hi : Nat) : (d.resetRegs n lo hi).pllMult = d.pllMult := rfl
@[simp] theorem resetRegs_gcinTerm (n lo hi : Nat) : (d.resetRegs n lo hi).gcinTerm = d.gcinTerm := rfl
@[simp] theorem resetRegs_engines (n lo hi : Nat) : (d.resetRegs n lo hi).engines = d.engines := rfl
@[simp] theorem resetRegs_sigs (n lo hi : Nat) : (d.resetRegs n lo hi).sigs = d.sigs := rfl
@[simp] theorem resetRegs_grpLast (n lo hi : Nat) : (d.resetRegs n lo hi).grpLast = d.grpLast := rfl
@[simp] theorem resetRegs_isets (n lo hi : Nat) : (d.resetRegs n lo hi).isets = d.isets := rfl
@[simp] theorem resetRegs_thermTrip (n lo hi : Nat) : (d.resetRegs n lo hi).thermTrip = d.thermTrip := rfl
@[simp] theorem resetRegs_lostQuarters (n lo hi : Nat) : (d.resetRegs n lo hi).lostQuarters = d.lostQuarters := rfl
@[simp] theorem resetRegs_lost (n lo hi : Nat) : (d.resetRegs n lo hi).lost = d.lost := rfl
@[simp] theorem resetRegs_standbyEntering (n lo hi : Nat) : (d.resetRegs n lo hi).standbyEntering = d.standbyEntering := rfl
@[simp] theorem resetRegs_standbyEmulated (n lo hi : Nat) : (d.resetRegs n lo hi).standbyEmulated = d.standbyEmulated := rfl
@[simp] theorem resetRegs_standbyLinks (n lo hi : Nat) : (d.resetRegs n lo hi).standbyLinks = d.standbyLinks := rfl
@[simp] theorem resetRegs_gcEdges (n lo hi : Nat) : (d.resetRegs n lo hi).gcEdges = d.gcEdges := rfl
@[simp] theorem resetRegs_cfgCache (n lo hi : Nat) : (d.resetRegs n lo hi).cfgCache = d.cfgCache := rfl
@[simp] theorem resetRegs_finished (n lo hi : Nat) : (d.resetRegs n lo hi).finished = d.finished := rfl
@[simp] theorem resetRegs_catchIds (n lo hi : Nat) : (d.resetRegs n lo hi).catchIds = d.catchIds := rfl
@[simp] theorem resetRegs_drams (n lo hi : Nat) : (d.resetRegs n lo hi).drams = d.drams := rfl
@[simp] theorem resetRegs_isetNext (n lo hi : Nat) : (d.resetRegs n lo hi).isetNext = d.isetNext := rfl
@[simp] theorem resetRegs_links (n lo hi : Nat) : (d.resetRegs n lo hi).links = d.links := rfl
@[simp] theorem resetRegs_linkIds (n lo hi : Nat) : (d.resetRegs n lo hi).linkIds = d.linkIds := rfl
@[simp] theorem resetRegs_linkChans (n lo hi : Nat) : (d.resetRegs n lo hi).linkChans = d.linkChans := rfl
@[simp] theorem resetRegs_ppm (n lo hi : Nat) : (d.resetRegs n lo hi).ppm = d.ppm := rfl
@[simp] theorem resetRegs_tickFrac (n lo hi : Nat) : (d.resetRegs n lo hi).tickFrac = d.tickFrac := rfl
@[simp] theorem resetRegs_goodMeans (n lo hi : Nat) : (d.resetRegs n lo hi).goodMeans = d.goodMeans := rfl
@[simp] theorem resetRegs_crewCmds (n lo hi : Nat) : (d.resetRegs n lo hi).crewCmds = d.crewCmds := rfl
@[simp] theorem resetRegs_crewId (n lo hi : Nat) : (d.resetRegs n lo hi).crewId = d.crewId := rfl
@[simp] theorem resetRegs_epochWait (n lo hi : Nat) : (d.resetRegs n lo hi).epochWait = d.epochWait := rfl
@[simp] theorem resetRegs_tenants (n lo hi : Nat) : (d.resetRegs n lo hi).tenants = d.tenants := rfl
@[simp] theorem resetRegs_pmeEn (n lo hi : Nat) : (d.resetRegs n lo hi).pmeEn = d.pmeEn := rfl
@[simp] theorem resetRegs_vfEn (n lo hi : Nat) : (d.resetRegs n lo hi).vfEn = d.vfEn := rfl
@[simp] theorem resetRegs_vecs (n lo hi : Nat) : (d.resetRegs n lo hi).vecs = d.vecs := rfl
@[simp] theorem resetRegs_chans (n lo hi : Nat) : (d.resetRegs n lo hi).chans = d.chans := rfl
@[simp] theorem resetRegs_hostAccs (n lo hi : Nat) : (d.resetRegs n lo hi).hostAccs = d.hostAccs := rfl
@[simp] theorem resetRegs_hifUses (n lo hi : Nat) : (d.resetRegs n lo hi).hifUses = d.hifUses := rfl
@[simp] theorem resetRegs_bar2Waits (n lo hi : Nat) : (d.resetRegs n lo hi).bar2Waits = d.bar2Waits := rfl
@[simp] theorem resetRegs_hostTurns (n lo hi : Nat) : (d.resetRegs n lo hi).hostTurns = d.hostTurns := rfl
@[simp] theorem resetRegs_hostLast (n lo hi : Nat) : (d.resetRegs n lo hi).hostLast = d.hostLast := rfl
@[simp] theorem resetRegs_evlog (n lo hi : Nat) : (d.resetRegs n lo hi).evlog = d.evlog := rfl
@[simp] theorem resetRegs_wipes (n lo hi : Nat) : (d.resetRegs n lo hi).wipes = d.wipes := rfl
@[simp] theorem resetRegs_fills (n lo hi : Nat) : (d.resetRegs n lo hi).fills = d.fills := rfl
@[simp] theorem resetRegs_unfilled (n lo hi : Nat) : (d.resetRegs n lo hi).unfilled = d.unfilled := rfl
@[simp] theorem resetRegs_roleImg (n lo hi : Nat) : (d.resetRegs n lo hi).roleImg = d.roleImg := rfl
@[simp] theorem resetRegs_svcTest (n lo hi : Nat) : (d.resetRegs n lo hi).svcTest = d.svcTest := rfl
@[simp] theorem resetRegs_svcPass (n lo hi : Nat) : (d.resetRegs n lo hi).svcPass = d.svcPass := rfl
@[simp] theorem resetRegs_roots (n lo hi : Nat) : (d.resetRegs n lo hi).roots = d.roots := rfl
@[simp] theorem resetRegs_sealKeys (n lo hi : Nat) : (d.resetRegs n lo hi).sealKeys = d.sealKeys := rfl
@[simp] theorem resetRegs_sealQ (n lo hi : Nat) : (d.resetRegs n lo hi).sealQ = d.sealQ := rfl
@[simp] theorem resetRegs_sealOut (n lo hi : Nat) : (d.resetRegs n lo hi).sealOut = d.sealOut := rfl
@[simp] theorem resetRegs_sealLast (n lo hi : Nat) : (d.resetRegs n lo hi).sealLast = d.sealLast := rfl
@[simp] theorem resetRegs_versions (n lo hi : Nat) : (d.resetRegs n lo hi).versions = d.versions := rfl
@[simp] theorem resetRegs_grants (n lo hi : Nat) : (d.resetRegs n lo hi).grants = d.grants := rfl
@[simp] theorem resetRegs_battery (n lo hi : Nat) : (d.resetRegs n lo hi).battery = d.battery := rfl
@[simp] theorem resetRegs_fuseKey (n lo hi : Nat) : (d.resetRegs n lo hi).fuseKey = d.fuseKey := rfl
@[simp] theorem resetRegs_fuseKeyOk (n lo hi : Nat) : (d.resetRegs n lo hi).fuseKeyOk = d.fuseKeyOk := rfl
@[simp] theorem resetRegs_load (n lo hi : Nat) : (d.resetRegs n lo hi).load = d.load := rfl
@[simp] theorem resetRegs_awaitHost (n lo hi : Nat) : (d.resetRegs n lo hi).awaitHost = d.awaitHost := rfl
@[simp] theorem resetRegs_bootTries (n lo hi : Nat) : (d.resetRegs n lo hi).bootTries = d.bootTries := rfl
@[simp] theorem resetRegs_cfgDone (n lo hi : Nat) : (d.resetRegs n lo hi).cfgDone = d.cfgDone := rfl
@[simp] theorem resetRegs_flashCmd (n lo hi : Nat) : (d.resetRegs n lo hi).flashCmd = d.flashCmd := rfl
@[simp] theorem resetRegs_wakeQueue (n lo hi : Nat) : (d.resetRegs n lo hi).wakeQueue = d.wakeQueue := rfl
@[simp] theorem resetRegs_jtag (n lo hi : Nat) : (d.resetRegs n lo hi).jtag = d.jtag := rfl
@[simp] theorem resetRegs_apTag (n lo hi : Nat) : (d.resetRegs n lo hi).apTag = d.apTag := rfl
@[simp] theorem resetRegs_stateWait (n lo hi : Nat) : (d.resetRegs n lo hi).stateWait = d.stateWait := rfl
@[simp] theorem resetRegs_wakeWait (n lo hi : Nat) : (d.resetRegs n lo hi).wakeWait = d.wakeWait := rfl
@[simp] theorem resetRegs_xtrgWait (n lo hi : Nat) : (d.resetRegs n lo hi).xtrgWait = d.xtrgWait := rfl

/-! #### setIsl -/

@[simp] theorem setIsl_dtime (i : Nat) (x : Island) : (d.setIsl i x).dtime = d.dtime := rfl
@[simp] theorem setIsl_free (i : Nat) (x : Island) : (d.setIsl i x).free = d.free := rfl
@[simp] theorem setIsl_out (i : Nat) (x : Island) : (d.setIsl i x).out = d.out := rfl
@[simp] theorem setIsl_regs (i : Nat) (x : Island) : (d.setIsl i x).regs = d.regs := rfl
@[simp] theorem setIsl_holdRd (i : Nat) (x : Island) : (d.setIsl i x).holdRd = d.holdRd := rfl
@[simp] theorem setIsl_holdWr (i : Nat) (x : Island) : (d.setIsl i x).holdWr = d.holdWr := rfl
@[simp] theorem setIsl_noc (i : Nat) (x : Island) : (d.setIsl i x).noc = d.noc := rfl
@[simp] theorem setIsl_brams (i : Nat) (x : Island) : (d.setIsl i x).brams = d.brams := rfl
@[simp] theorem setIsl_rows (i : Nat) (x : Island) : (d.setIsl i x).rows = d.rows := rfl
@[simp] theorem setIsl_slices (i : Nat) (x : Island) : (d.setIsl i x).slices = d.slices := rfl
@[simp] theorem setIsl_frames (i : Nat) (x : Island) : (d.setIsl i x).frames = d.frames := rfl
@[simp] theorem setIsl_ffs (i : Nat) (x : Island) : (d.setIsl i x).ffs = d.ffs := rfl
@[simp] theorem setIsl_ffUpset (i : Nat) (x : Island) : (d.setIsl i x).ffUpset = d.ffUpset := rfl
@[simp] theorem setIsl_transients (i : Nat) (x : Island) : (d.setIsl i x).transients = d.transients := rfl
@[simp] theorem setIsl_regions (i : Nat) (x : Island) : (d.setIsl i x).regions = d.regions := rfl
@[simp] theorem setIsl_catches (i : Nat) (x : Island) : (d.setIsl i x).catches = d.catches := rfl
@[simp] theorem setIsl_pinLevels (i : Nat) (x : Island) : (d.setIsl i x).pinLevels = d.pinLevels := rfl
@[simp] theorem setIsl_pinOut (i : Nat) (x : Island) : (d.setIsl i x).pinOut = d.pinOut := rfl
@[simp] theorem setIsl_pinEn (i : Nat) (x : Island) : (d.setIsl i x).pinEn = d.pinEn := rfl
@[simp] theorem setIsl_lanes (i : Nat) (x : Island) : (d.setIsl i x).lanes = d.lanes := rfl
@[simp] theorem setIsl_pllMult (i : Nat) (x : Island) : (d.setIsl i x).pllMult = d.pllMult := rfl
@[simp] theorem setIsl_gcinTerm (i : Nat) (x : Island) : (d.setIsl i x).gcinTerm = d.gcinTerm := rfl
@[simp] theorem setIsl_engines (i : Nat) (x : Island) : (d.setIsl i x).engines = d.engines := rfl
@[simp] theorem setIsl_sigs (i : Nat) (x : Island) : (d.setIsl i x).sigs = d.sigs := rfl
@[simp] theorem setIsl_grpLast (i : Nat) (x : Island) : (d.setIsl i x).grpLast = d.grpLast := rfl
@[simp] theorem setIsl_isets (i : Nat) (x : Island) : (d.setIsl i x).isets = d.isets := rfl
@[simp] theorem setIsl_thermTrip (i : Nat) (x : Island) : (d.setIsl i x).thermTrip = d.thermTrip := rfl
@[simp] theorem setIsl_lostQuarters (i : Nat) (x : Island) : (d.setIsl i x).lostQuarters = d.lostQuarters := rfl
@[simp] theorem setIsl_lost (i : Nat) (x : Island) : (d.setIsl i x).lost = d.lost := rfl
@[simp] theorem setIsl_standbyEntering (i : Nat) (x : Island) : (d.setIsl i x).standbyEntering = d.standbyEntering := rfl
@[simp] theorem setIsl_standbyEmulated (i : Nat) (x : Island) : (d.setIsl i x).standbyEmulated = d.standbyEmulated := rfl
@[simp] theorem setIsl_standbyLinks (i : Nat) (x : Island) : (d.setIsl i x).standbyLinks = d.standbyLinks := rfl
@[simp] theorem setIsl_gcEdges (i : Nat) (x : Island) : (d.setIsl i x).gcEdges = d.gcEdges := rfl
@[simp] theorem setIsl_cfgCache (i : Nat) (x : Island) : (d.setIsl i x).cfgCache = d.cfgCache := rfl
@[simp] theorem setIsl_finished (i : Nat) (x : Island) : (d.setIsl i x).finished = d.finished := rfl
@[simp] theorem setIsl_catchIds (i : Nat) (x : Island) : (d.setIsl i x).catchIds = d.catchIds := rfl
@[simp] theorem setIsl_drams (i : Nat) (x : Island) : (d.setIsl i x).drams = d.drams := rfl
@[simp] theorem setIsl_isetNext (i : Nat) (x : Island) : (d.setIsl i x).isetNext = d.isetNext := rfl
@[simp] theorem setIsl_links (i : Nat) (x : Island) : (d.setIsl i x).links = d.links := rfl
@[simp] theorem setIsl_linkIds (i : Nat) (x : Island) : (d.setIsl i x).linkIds = d.linkIds := rfl
@[simp] theorem setIsl_linkChans (i : Nat) (x : Island) : (d.setIsl i x).linkChans = d.linkChans := rfl
@[simp] theorem setIsl_ppm (i : Nat) (x : Island) : (d.setIsl i x).ppm = d.ppm := rfl
@[simp] theorem setIsl_tickFrac (i : Nat) (x : Island) : (d.setIsl i x).tickFrac = d.tickFrac := rfl
@[simp] theorem setIsl_goodMeans (i : Nat) (x : Island) : (d.setIsl i x).goodMeans = d.goodMeans := rfl
@[simp] theorem setIsl_crewCmds (i : Nat) (x : Island) : (d.setIsl i x).crewCmds = d.crewCmds := rfl
@[simp] theorem setIsl_crewId (i : Nat) (x : Island) : (d.setIsl i x).crewId = d.crewId := rfl
@[simp] theorem setIsl_epochWait (i : Nat) (x : Island) : (d.setIsl i x).epochWait = d.epochWait := rfl
@[simp] theorem setIsl_tenants (i : Nat) (x : Island) : (d.setIsl i x).tenants = d.tenants := rfl
@[simp] theorem setIsl_pmeEn (i : Nat) (x : Island) : (d.setIsl i x).pmeEn = d.pmeEn := rfl
@[simp] theorem setIsl_vfEn (i : Nat) (x : Island) : (d.setIsl i x).vfEn = d.vfEn := rfl
@[simp] theorem setIsl_vecs (i : Nat) (x : Island) : (d.setIsl i x).vecs = d.vecs := rfl
@[simp] theorem setIsl_chans (i : Nat) (x : Island) : (d.setIsl i x).chans = d.chans := rfl
@[simp] theorem setIsl_hostAccs (i : Nat) (x : Island) : (d.setIsl i x).hostAccs = d.hostAccs := rfl
@[simp] theorem setIsl_hifUses (i : Nat) (x : Island) : (d.setIsl i x).hifUses = d.hifUses := rfl
@[simp] theorem setIsl_bar2Waits (i : Nat) (x : Island) : (d.setIsl i x).bar2Waits = d.bar2Waits := rfl
@[simp] theorem setIsl_hostTurns (i : Nat) (x : Island) : (d.setIsl i x).hostTurns = d.hostTurns := rfl
@[simp] theorem setIsl_hostLast (i : Nat) (x : Island) : (d.setIsl i x).hostLast = d.hostLast := rfl
@[simp] theorem setIsl_evlog (i : Nat) (x : Island) : (d.setIsl i x).evlog = d.evlog := rfl
@[simp] theorem setIsl_wipes (i : Nat) (x : Island) : (d.setIsl i x).wipes = d.wipes := rfl
@[simp] theorem setIsl_fills (i : Nat) (x : Island) : (d.setIsl i x).fills = d.fills := rfl
@[simp] theorem setIsl_unfilled (i : Nat) (x : Island) : (d.setIsl i x).unfilled = d.unfilled := rfl
@[simp] theorem setIsl_roleImg (i : Nat) (x : Island) : (d.setIsl i x).roleImg = d.roleImg := rfl
@[simp] theorem setIsl_svcTest (i : Nat) (x : Island) : (d.setIsl i x).svcTest = d.svcTest := rfl
@[simp] theorem setIsl_svcPass (i : Nat) (x : Island) : (d.setIsl i x).svcPass = d.svcPass := rfl
@[simp] theorem setIsl_roots (i : Nat) (x : Island) : (d.setIsl i x).roots = d.roots := rfl
@[simp] theorem setIsl_sealKeys (i : Nat) (x : Island) : (d.setIsl i x).sealKeys = d.sealKeys := rfl
@[simp] theorem setIsl_sealQ (i : Nat) (x : Island) : (d.setIsl i x).sealQ = d.sealQ := rfl
@[simp] theorem setIsl_sealOut (i : Nat) (x : Island) : (d.setIsl i x).sealOut = d.sealOut := rfl
@[simp] theorem setIsl_sealLast (i : Nat) (x : Island) : (d.setIsl i x).sealLast = d.sealLast := rfl
@[simp] theorem setIsl_versions (i : Nat) (x : Island) : (d.setIsl i x).versions = d.versions := rfl
@[simp] theorem setIsl_grants (i : Nat) (x : Island) : (d.setIsl i x).grants = d.grants := rfl
@[simp] theorem setIsl_battery (i : Nat) (x : Island) : (d.setIsl i x).battery = d.battery := rfl
@[simp] theorem setIsl_fuseKey (i : Nat) (x : Island) : (d.setIsl i x).fuseKey = d.fuseKey := rfl
@[simp] theorem setIsl_fuseKeyOk (i : Nat) (x : Island) : (d.setIsl i x).fuseKeyOk = d.fuseKeyOk := rfl
@[simp] theorem setIsl_load (i : Nat) (x : Island) : (d.setIsl i x).load = d.load := rfl
@[simp] theorem setIsl_awaitHost (i : Nat) (x : Island) : (d.setIsl i x).awaitHost = d.awaitHost := rfl
@[simp] theorem setIsl_bootTries (i : Nat) (x : Island) : (d.setIsl i x).bootTries = d.bootTries := rfl
@[simp] theorem setIsl_cfgDone (i : Nat) (x : Island) : (d.setIsl i x).cfgDone = d.cfgDone := rfl
@[simp] theorem setIsl_flashCmd (i : Nat) (x : Island) : (d.setIsl i x).flashCmd = d.flashCmd := rfl
@[simp] theorem setIsl_wakeQueue (i : Nat) (x : Island) : (d.setIsl i x).wakeQueue = d.wakeQueue := rfl
@[simp] theorem setIsl_jtag (i : Nat) (x : Island) : (d.setIsl i x).jtag = d.jtag := rfl
@[simp] theorem setIsl_apTag (i : Nat) (x : Island) : (d.setIsl i x).apTag = d.apTag := rfl
@[simp] theorem setIsl_stateWait (i : Nat) (x : Island) : (d.setIsl i x).stateWait = d.stateWait := rfl
@[simp] theorem setIsl_wakeWait (i : Nat) (x : Island) : (d.setIsl i x).wakeWait = d.wakeWait := rfl
@[simp] theorem setIsl_xtrgWait (i : Nat) (x : Island) : (d.setIsl i x).xtrgWait = d.xtrgWait := rfl

/-! #### updIsl -/

@[simp] theorem updIsl_dtime (i : Nat) (f : Island → Island) : (d.updIsl i f).dtime = d.dtime := rfl
@[simp] theorem updIsl_free (i : Nat) (f : Island → Island) : (d.updIsl i f).free = d.free := rfl
@[simp] theorem updIsl_out (i : Nat) (f : Island → Island) : (d.updIsl i f).out = d.out := rfl
@[simp] theorem updIsl_regs (i : Nat) (f : Island → Island) : (d.updIsl i f).regs = d.regs := rfl
@[simp] theorem updIsl_holdRd (i : Nat) (f : Island → Island) : (d.updIsl i f).holdRd = d.holdRd := rfl
@[simp] theorem updIsl_holdWr (i : Nat) (f : Island → Island) : (d.updIsl i f).holdWr = d.holdWr := rfl
@[simp] theorem updIsl_noc (i : Nat) (f : Island → Island) : (d.updIsl i f).noc = d.noc := rfl
@[simp] theorem updIsl_brams (i : Nat) (f : Island → Island) : (d.updIsl i f).brams = d.brams := rfl
@[simp] theorem updIsl_rows (i : Nat) (f : Island → Island) : (d.updIsl i f).rows = d.rows := rfl
@[simp] theorem updIsl_slices (i : Nat) (f : Island → Island) : (d.updIsl i f).slices = d.slices := rfl
@[simp] theorem updIsl_frames (i : Nat) (f : Island → Island) : (d.updIsl i f).frames = d.frames := rfl
@[simp] theorem updIsl_ffs (i : Nat) (f : Island → Island) : (d.updIsl i f).ffs = d.ffs := rfl
@[simp] theorem updIsl_ffUpset (i : Nat) (f : Island → Island) : (d.updIsl i f).ffUpset = d.ffUpset := rfl
@[simp] theorem updIsl_transients (i : Nat) (f : Island → Island) : (d.updIsl i f).transients = d.transients := rfl
@[simp] theorem updIsl_regions (i : Nat) (f : Island → Island) : (d.updIsl i f).regions = d.regions := rfl
@[simp] theorem updIsl_catches (i : Nat) (f : Island → Island) : (d.updIsl i f).catches = d.catches := rfl
@[simp] theorem updIsl_pinLevels (i : Nat) (f : Island → Island) : (d.updIsl i f).pinLevels = d.pinLevels := rfl
@[simp] theorem updIsl_pinOut (i : Nat) (f : Island → Island) : (d.updIsl i f).pinOut = d.pinOut := rfl
@[simp] theorem updIsl_pinEn (i : Nat) (f : Island → Island) : (d.updIsl i f).pinEn = d.pinEn := rfl
@[simp] theorem updIsl_lanes (i : Nat) (f : Island → Island) : (d.updIsl i f).lanes = d.lanes := rfl
@[simp] theorem updIsl_pllMult (i : Nat) (f : Island → Island) : (d.updIsl i f).pllMult = d.pllMult := rfl
@[simp] theorem updIsl_gcinTerm (i : Nat) (f : Island → Island) : (d.updIsl i f).gcinTerm = d.gcinTerm := rfl
@[simp] theorem updIsl_engines (i : Nat) (f : Island → Island) : (d.updIsl i f).engines = d.engines := rfl
@[simp] theorem updIsl_sigs (i : Nat) (f : Island → Island) : (d.updIsl i f).sigs = d.sigs := rfl
@[simp] theorem updIsl_grpLast (i : Nat) (f : Island → Island) : (d.updIsl i f).grpLast = d.grpLast := rfl
@[simp] theorem updIsl_isets (i : Nat) (f : Island → Island) : (d.updIsl i f).isets = d.isets := rfl
@[simp] theorem updIsl_thermTrip (i : Nat) (f : Island → Island) : (d.updIsl i f).thermTrip = d.thermTrip := rfl
@[simp] theorem updIsl_lostQuarters (i : Nat) (f : Island → Island) : (d.updIsl i f).lostQuarters = d.lostQuarters := rfl
@[simp] theorem updIsl_lost (i : Nat) (f : Island → Island) : (d.updIsl i f).lost = d.lost := rfl
@[simp] theorem updIsl_standbyEntering (i : Nat) (f : Island → Island) : (d.updIsl i f).standbyEntering = d.standbyEntering := rfl
@[simp] theorem updIsl_standbyEmulated (i : Nat) (f : Island → Island) : (d.updIsl i f).standbyEmulated = d.standbyEmulated := rfl
@[simp] theorem updIsl_standbyLinks (i : Nat) (f : Island → Island) : (d.updIsl i f).standbyLinks = d.standbyLinks := rfl
@[simp] theorem updIsl_gcEdges (i : Nat) (f : Island → Island) : (d.updIsl i f).gcEdges = d.gcEdges := rfl
@[simp] theorem updIsl_cfgCache (i : Nat) (f : Island → Island) : (d.updIsl i f).cfgCache = d.cfgCache := rfl
@[simp] theorem updIsl_finished (i : Nat) (f : Island → Island) : (d.updIsl i f).finished = d.finished := rfl
@[simp] theorem updIsl_catchIds (i : Nat) (f : Island → Island) : (d.updIsl i f).catchIds = d.catchIds := rfl
@[simp] theorem updIsl_drams (i : Nat) (f : Island → Island) : (d.updIsl i f).drams = d.drams := rfl
@[simp] theorem updIsl_isetNext (i : Nat) (f : Island → Island) : (d.updIsl i f).isetNext = d.isetNext := rfl
@[simp] theorem updIsl_links (i : Nat) (f : Island → Island) : (d.updIsl i f).links = d.links := rfl
@[simp] theorem updIsl_linkIds (i : Nat) (f : Island → Island) : (d.updIsl i f).linkIds = d.linkIds := rfl
@[simp] theorem updIsl_linkChans (i : Nat) (f : Island → Island) : (d.updIsl i f).linkChans = d.linkChans := rfl
@[simp] theorem updIsl_ppm (i : Nat) (f : Island → Island) : (d.updIsl i f).ppm = d.ppm := rfl
@[simp] theorem updIsl_tickFrac (i : Nat) (f : Island → Island) : (d.updIsl i f).tickFrac = d.tickFrac := rfl
@[simp] theorem updIsl_goodMeans (i : Nat) (f : Island → Island) : (d.updIsl i f).goodMeans = d.goodMeans := rfl
@[simp] theorem updIsl_crewCmds (i : Nat) (f : Island → Island) : (d.updIsl i f).crewCmds = d.crewCmds := rfl
@[simp] theorem updIsl_crewId (i : Nat) (f : Island → Island) : (d.updIsl i f).crewId = d.crewId := rfl
@[simp] theorem updIsl_epochWait (i : Nat) (f : Island → Island) : (d.updIsl i f).epochWait = d.epochWait := rfl
@[simp] theorem updIsl_tenants (i : Nat) (f : Island → Island) : (d.updIsl i f).tenants = d.tenants := rfl
@[simp] theorem updIsl_pmeEn (i : Nat) (f : Island → Island) : (d.updIsl i f).pmeEn = d.pmeEn := rfl
@[simp] theorem updIsl_vfEn (i : Nat) (f : Island → Island) : (d.updIsl i f).vfEn = d.vfEn := rfl
@[simp] theorem updIsl_vecs (i : Nat) (f : Island → Island) : (d.updIsl i f).vecs = d.vecs := rfl
@[simp] theorem updIsl_chans (i : Nat) (f : Island → Island) : (d.updIsl i f).chans = d.chans := rfl
@[simp] theorem updIsl_hostAccs (i : Nat) (f : Island → Island) : (d.updIsl i f).hostAccs = d.hostAccs := rfl
@[simp] theorem updIsl_hifUses (i : Nat) (f : Island → Island) : (d.updIsl i f).hifUses = d.hifUses := rfl
@[simp] theorem updIsl_bar2Waits (i : Nat) (f : Island → Island) : (d.updIsl i f).bar2Waits = d.bar2Waits := rfl
@[simp] theorem updIsl_hostTurns (i : Nat) (f : Island → Island) : (d.updIsl i f).hostTurns = d.hostTurns := rfl
@[simp] theorem updIsl_hostLast (i : Nat) (f : Island → Island) : (d.updIsl i f).hostLast = d.hostLast := rfl
@[simp] theorem updIsl_evlog (i : Nat) (f : Island → Island) : (d.updIsl i f).evlog = d.evlog := rfl
@[simp] theorem updIsl_wipes (i : Nat) (f : Island → Island) : (d.updIsl i f).wipes = d.wipes := rfl
@[simp] theorem updIsl_fills (i : Nat) (f : Island → Island) : (d.updIsl i f).fills = d.fills := rfl
@[simp] theorem updIsl_unfilled (i : Nat) (f : Island → Island) : (d.updIsl i f).unfilled = d.unfilled := rfl
@[simp] theorem updIsl_roleImg (i : Nat) (f : Island → Island) : (d.updIsl i f).roleImg = d.roleImg := rfl
@[simp] theorem updIsl_svcTest (i : Nat) (f : Island → Island) : (d.updIsl i f).svcTest = d.svcTest := rfl
@[simp] theorem updIsl_svcPass (i : Nat) (f : Island → Island) : (d.updIsl i f).svcPass = d.svcPass := rfl
@[simp] theorem updIsl_roots (i : Nat) (f : Island → Island) : (d.updIsl i f).roots = d.roots := rfl
@[simp] theorem updIsl_sealKeys (i : Nat) (f : Island → Island) : (d.updIsl i f).sealKeys = d.sealKeys := rfl
@[simp] theorem updIsl_sealQ (i : Nat) (f : Island → Island) : (d.updIsl i f).sealQ = d.sealQ := rfl
@[simp] theorem updIsl_sealOut (i : Nat) (f : Island → Island) : (d.updIsl i f).sealOut = d.sealOut := rfl
@[simp] theorem updIsl_sealLast (i : Nat) (f : Island → Island) : (d.updIsl i f).sealLast = d.sealLast := rfl
@[simp] theorem updIsl_versions (i : Nat) (f : Island → Island) : (d.updIsl i f).versions = d.versions := rfl
@[simp] theorem updIsl_grants (i : Nat) (f : Island → Island) : (d.updIsl i f).grants = d.grants := rfl
@[simp] theorem updIsl_battery (i : Nat) (f : Island → Island) : (d.updIsl i f).battery = d.battery := rfl
@[simp] theorem updIsl_fuseKey (i : Nat) (f : Island → Island) : (d.updIsl i f).fuseKey = d.fuseKey := rfl
@[simp] theorem updIsl_fuseKeyOk (i : Nat) (f : Island → Island) : (d.updIsl i f).fuseKeyOk = d.fuseKeyOk := rfl
@[simp] theorem updIsl_load (i : Nat) (f : Island → Island) : (d.updIsl i f).load = d.load := rfl
@[simp] theorem updIsl_awaitHost (i : Nat) (f : Island → Island) : (d.updIsl i f).awaitHost = d.awaitHost := rfl
@[simp] theorem updIsl_bootTries (i : Nat) (f : Island → Island) : (d.updIsl i f).bootTries = d.bootTries := rfl
@[simp] theorem updIsl_cfgDone (i : Nat) (f : Island → Island) : (d.updIsl i f).cfgDone = d.cfgDone := rfl
@[simp] theorem updIsl_flashCmd (i : Nat) (f : Island → Island) : (d.updIsl i f).flashCmd = d.flashCmd := rfl
@[simp] theorem updIsl_wakeQueue (i : Nat) (f : Island → Island) : (d.updIsl i f).wakeQueue = d.wakeQueue := rfl
@[simp] theorem updIsl_jtag (i : Nat) (f : Island → Island) : (d.updIsl i f).jtag = d.jtag := rfl
@[simp] theorem updIsl_apTag (i : Nat) (f : Island → Island) : (d.updIsl i f).apTag = d.apTag := rfl
@[simp] theorem updIsl_stateWait (i : Nat) (f : Island → Island) : (d.updIsl i f).stateWait = d.stateWait := rfl
@[simp] theorem updIsl_wakeWait (i : Nat) (f : Island → Island) : (d.updIsl i f).wakeWait = d.wakeWait := rfl
@[simp] theorem updIsl_xtrgWait (i : Nat) (f : Island → Island) : (d.updIsl i f).xtrgWait = d.xtrgWait := rfl

/-! #### setBram -/

@[simp] theorem setBram_dtime (k : Nat) (x : Bram) : (d.setBram k x).dtime = d.dtime := rfl
@[simp] theorem setBram_free (k : Nat) (x : Bram) : (d.setBram k x).free = d.free := rfl
@[simp] theorem setBram_out (k : Nat) (x : Bram) : (d.setBram k x).out = d.out := rfl
@[simp] theorem setBram_regs (k : Nat) (x : Bram) : (d.setBram k x).regs = d.regs := rfl
@[simp] theorem setBram_holdRd (k : Nat) (x : Bram) : (d.setBram k x).holdRd = d.holdRd := rfl
@[simp] theorem setBram_holdWr (k : Nat) (x : Bram) : (d.setBram k x).holdWr = d.holdWr := rfl
@[simp] theorem setBram_noc (k : Nat) (x : Bram) : (d.setBram k x).noc = d.noc := rfl
@[simp] theorem setBram_rows (k : Nat) (x : Bram) : (d.setBram k x).rows = d.rows := rfl
@[simp] theorem setBram_slices (k : Nat) (x : Bram) : (d.setBram k x).slices = d.slices := rfl
@[simp] theorem setBram_islands (k : Nat) (x : Bram) : (d.setBram k x).islands = d.islands := rfl
@[simp] theorem setBram_frames (k : Nat) (x : Bram) : (d.setBram k x).frames = d.frames := rfl
@[simp] theorem setBram_ffs (k : Nat) (x : Bram) : (d.setBram k x).ffs = d.ffs := rfl
@[simp] theorem setBram_ffUpset (k : Nat) (x : Bram) : (d.setBram k x).ffUpset = d.ffUpset := rfl
@[simp] theorem setBram_transients (k : Nat) (x : Bram) : (d.setBram k x).transients = d.transients := rfl
@[simp] theorem setBram_regions (k : Nat) (x : Bram) : (d.setBram k x).regions = d.regions := rfl
@[simp] theorem setBram_catches (k : Nat) (x : Bram) : (d.setBram k x).catches = d.catches := rfl
@[simp] theorem setBram_pinLevels (k : Nat) (x : Bram) : (d.setBram k x).pinLevels = d.pinLevels := rfl
@[simp] theorem setBram_pinOut (k : Nat) (x : Bram) : (d.setBram k x).pinOut = d.pinOut := rfl
@[simp] theorem setBram_pinEn (k : Nat) (x : Bram) : (d.setBram k x).pinEn = d.pinEn := rfl
@[simp] theorem setBram_lanes (k : Nat) (x : Bram) : (d.setBram k x).lanes = d.lanes := rfl
@[simp] theorem setBram_pllMult (k : Nat) (x : Bram) : (d.setBram k x).pllMult = d.pllMult := rfl
@[simp] theorem setBram_gcinTerm (k : Nat) (x : Bram) : (d.setBram k x).gcinTerm = d.gcinTerm := rfl
@[simp] theorem setBram_engines (k : Nat) (x : Bram) : (d.setBram k x).engines = d.engines := rfl
@[simp] theorem setBram_sigs (k : Nat) (x : Bram) : (d.setBram k x).sigs = d.sigs := rfl
@[simp] theorem setBram_grpLast (k : Nat) (x : Bram) : (d.setBram k x).grpLast = d.grpLast := rfl
@[simp] theorem setBram_isets (k : Nat) (x : Bram) : (d.setBram k x).isets = d.isets := rfl
@[simp] theorem setBram_thermTrip (k : Nat) (x : Bram) : (d.setBram k x).thermTrip = d.thermTrip := rfl
@[simp] theorem setBram_lostQuarters (k : Nat) (x : Bram) : (d.setBram k x).lostQuarters = d.lostQuarters := rfl
@[simp] theorem setBram_lost (k : Nat) (x : Bram) : (d.setBram k x).lost = d.lost := rfl
@[simp] theorem setBram_standbyEntering (k : Nat) (x : Bram) : (d.setBram k x).standbyEntering = d.standbyEntering := rfl
@[simp] theorem setBram_standbyEmulated (k : Nat) (x : Bram) : (d.setBram k x).standbyEmulated = d.standbyEmulated := rfl
@[simp] theorem setBram_standbyLinks (k : Nat) (x : Bram) : (d.setBram k x).standbyLinks = d.standbyLinks := rfl
@[simp] theorem setBram_gcEdges (k : Nat) (x : Bram) : (d.setBram k x).gcEdges = d.gcEdges := rfl
@[simp] theorem setBram_cfgCache (k : Nat) (x : Bram) : (d.setBram k x).cfgCache = d.cfgCache := rfl
@[simp] theorem setBram_finished (k : Nat) (x : Bram) : (d.setBram k x).finished = d.finished := rfl
@[simp] theorem setBram_catchIds (k : Nat) (x : Bram) : (d.setBram k x).catchIds = d.catchIds := rfl
@[simp] theorem setBram_drams (k : Nat) (x : Bram) : (d.setBram k x).drams = d.drams := rfl
@[simp] theorem setBram_isetNext (k : Nat) (x : Bram) : (d.setBram k x).isetNext = d.isetNext := rfl
@[simp] theorem setBram_links (k : Nat) (x : Bram) : (d.setBram k x).links = d.links := rfl
@[simp] theorem setBram_linkIds (k : Nat) (x : Bram) : (d.setBram k x).linkIds = d.linkIds := rfl
@[simp] theorem setBram_linkChans (k : Nat) (x : Bram) : (d.setBram k x).linkChans = d.linkChans := rfl
@[simp] theorem setBram_ppm (k : Nat) (x : Bram) : (d.setBram k x).ppm = d.ppm := rfl
@[simp] theorem setBram_tickFrac (k : Nat) (x : Bram) : (d.setBram k x).tickFrac = d.tickFrac := rfl
@[simp] theorem setBram_goodMeans (k : Nat) (x : Bram) : (d.setBram k x).goodMeans = d.goodMeans := rfl
@[simp] theorem setBram_crewCmds (k : Nat) (x : Bram) : (d.setBram k x).crewCmds = d.crewCmds := rfl
@[simp] theorem setBram_crewId (k : Nat) (x : Bram) : (d.setBram k x).crewId = d.crewId := rfl
@[simp] theorem setBram_epochWait (k : Nat) (x : Bram) : (d.setBram k x).epochWait = d.epochWait := rfl
@[simp] theorem setBram_tenants (k : Nat) (x : Bram) : (d.setBram k x).tenants = d.tenants := rfl
@[simp] theorem setBram_pmeEn (k : Nat) (x : Bram) : (d.setBram k x).pmeEn = d.pmeEn := rfl
@[simp] theorem setBram_vfEn (k : Nat) (x : Bram) : (d.setBram k x).vfEn = d.vfEn := rfl
@[simp] theorem setBram_vecs (k : Nat) (x : Bram) : (d.setBram k x).vecs = d.vecs := rfl
@[simp] theorem setBram_chans (k : Nat) (x : Bram) : (d.setBram k x).chans = d.chans := rfl
@[simp] theorem setBram_hostAccs (k : Nat) (x : Bram) : (d.setBram k x).hostAccs = d.hostAccs := rfl
@[simp] theorem setBram_hifUses (k : Nat) (x : Bram) : (d.setBram k x).hifUses = d.hifUses := rfl
@[simp] theorem setBram_bar2Waits (k : Nat) (x : Bram) : (d.setBram k x).bar2Waits = d.bar2Waits := rfl
@[simp] theorem setBram_hostTurns (k : Nat) (x : Bram) : (d.setBram k x).hostTurns = d.hostTurns := rfl
@[simp] theorem setBram_hostLast (k : Nat) (x : Bram) : (d.setBram k x).hostLast = d.hostLast := rfl
@[simp] theorem setBram_evlog (k : Nat) (x : Bram) : (d.setBram k x).evlog = d.evlog := rfl
@[simp] theorem setBram_wipes (k : Nat) (x : Bram) : (d.setBram k x).wipes = d.wipes := rfl
@[simp] theorem setBram_fills (k : Nat) (x : Bram) : (d.setBram k x).fills = d.fills := rfl
@[simp] theorem setBram_unfilled (k : Nat) (x : Bram) : (d.setBram k x).unfilled = d.unfilled := rfl
@[simp] theorem setBram_roleImg (k : Nat) (x : Bram) : (d.setBram k x).roleImg = d.roleImg := rfl
@[simp] theorem setBram_svcTest (k : Nat) (x : Bram) : (d.setBram k x).svcTest = d.svcTest := rfl
@[simp] theorem setBram_svcPass (k : Nat) (x : Bram) : (d.setBram k x).svcPass = d.svcPass := rfl
@[simp] theorem setBram_roots (k : Nat) (x : Bram) : (d.setBram k x).roots = d.roots := rfl
@[simp] theorem setBram_sealKeys (k : Nat) (x : Bram) : (d.setBram k x).sealKeys = d.sealKeys := rfl
@[simp] theorem setBram_sealQ (k : Nat) (x : Bram) : (d.setBram k x).sealQ = d.sealQ := rfl
@[simp] theorem setBram_sealOut (k : Nat) (x : Bram) : (d.setBram k x).sealOut = d.sealOut := rfl
@[simp] theorem setBram_sealLast (k : Nat) (x : Bram) : (d.setBram k x).sealLast = d.sealLast := rfl
@[simp] theorem setBram_versions (k : Nat) (x : Bram) : (d.setBram k x).versions = d.versions := rfl
@[simp] theorem setBram_grants (k : Nat) (x : Bram) : (d.setBram k x).grants = d.grants := rfl
@[simp] theorem setBram_battery (k : Nat) (x : Bram) : (d.setBram k x).battery = d.battery := rfl
@[simp] theorem setBram_fuseKey (k : Nat) (x : Bram) : (d.setBram k x).fuseKey = d.fuseKey := rfl
@[simp] theorem setBram_fuseKeyOk (k : Nat) (x : Bram) : (d.setBram k x).fuseKeyOk = d.fuseKeyOk := rfl
@[simp] theorem setBram_load (k : Nat) (x : Bram) : (d.setBram k x).load = d.load := rfl
@[simp] theorem setBram_awaitHost (k : Nat) (x : Bram) : (d.setBram k x).awaitHost = d.awaitHost := rfl
@[simp] theorem setBram_bootTries (k : Nat) (x : Bram) : (d.setBram k x).bootTries = d.bootTries := rfl
@[simp] theorem setBram_cfgDone (k : Nat) (x : Bram) : (d.setBram k x).cfgDone = d.cfgDone := rfl
@[simp] theorem setBram_flashCmd (k : Nat) (x : Bram) : (d.setBram k x).flashCmd = d.flashCmd := rfl
@[simp] theorem setBram_wakeQueue (k : Nat) (x : Bram) : (d.setBram k x).wakeQueue = d.wakeQueue := rfl
@[simp] theorem setBram_jtag (k : Nat) (x : Bram) : (d.setBram k x).jtag = d.jtag := rfl
@[simp] theorem setBram_apTag (k : Nat) (x : Bram) : (d.setBram k x).apTag = d.apTag := rfl
@[simp] theorem setBram_stateWait (k : Nat) (x : Bram) : (d.setBram k x).stateWait = d.stateWait := rfl
@[simp] theorem setBram_wakeWait (k : Nat) (x : Bram) : (d.setBram k x).wakeWait = d.wakeWait := rfl
@[simp] theorem setBram_xtrgWait (k : Nat) (x : Bram) : (d.setBram k x).xtrgWait = d.xtrgWait := rfl

/-! #### setSlice -/

@[simp] theorem setSlice_dtime (k : Nat) (x : Slice) : (d.setSlice k x).dtime = d.dtime := rfl
@[simp] theorem setSlice_free (k : Nat) (x : Slice) : (d.setSlice k x).free = d.free := rfl
@[simp] theorem setSlice_out (k : Nat) (x : Slice) : (d.setSlice k x).out = d.out := rfl
@[simp] theorem setSlice_regs (k : Nat) (x : Slice) : (d.setSlice k x).regs = d.regs := rfl
@[simp] theorem setSlice_holdRd (k : Nat) (x : Slice) : (d.setSlice k x).holdRd = d.holdRd := rfl
@[simp] theorem setSlice_holdWr (k : Nat) (x : Slice) : (d.setSlice k x).holdWr = d.holdWr := rfl
@[simp] theorem setSlice_noc (k : Nat) (x : Slice) : (d.setSlice k x).noc = d.noc := rfl
@[simp] theorem setSlice_brams (k : Nat) (x : Slice) : (d.setSlice k x).brams = d.brams := rfl
@[simp] theorem setSlice_rows (k : Nat) (x : Slice) : (d.setSlice k x).rows = d.rows := rfl
@[simp] theorem setSlice_islands (k : Nat) (x : Slice) : (d.setSlice k x).islands = d.islands := rfl
@[simp] theorem setSlice_frames (k : Nat) (x : Slice) : (d.setSlice k x).frames = d.frames := rfl
@[simp] theorem setSlice_ffs (k : Nat) (x : Slice) : (d.setSlice k x).ffs = d.ffs := rfl
@[simp] theorem setSlice_ffUpset (k : Nat) (x : Slice) : (d.setSlice k x).ffUpset = d.ffUpset := rfl
@[simp] theorem setSlice_transients (k : Nat) (x : Slice) : (d.setSlice k x).transients = d.transients := rfl
@[simp] theorem setSlice_regions (k : Nat) (x : Slice) : (d.setSlice k x).regions = d.regions := rfl
@[simp] theorem setSlice_catches (k : Nat) (x : Slice) : (d.setSlice k x).catches = d.catches := rfl
@[simp] theorem setSlice_pinLevels (k : Nat) (x : Slice) : (d.setSlice k x).pinLevels = d.pinLevels := rfl
@[simp] theorem setSlice_pinOut (k : Nat) (x : Slice) : (d.setSlice k x).pinOut = d.pinOut := rfl
@[simp] theorem setSlice_pinEn (k : Nat) (x : Slice) : (d.setSlice k x).pinEn = d.pinEn := rfl
@[simp] theorem setSlice_lanes (k : Nat) (x : Slice) : (d.setSlice k x).lanes = d.lanes := rfl
@[simp] theorem setSlice_pllMult (k : Nat) (x : Slice) : (d.setSlice k x).pllMult = d.pllMult := rfl
@[simp] theorem setSlice_gcinTerm (k : Nat) (x : Slice) : (d.setSlice k x).gcinTerm = d.gcinTerm := rfl
@[simp] theorem setSlice_engines (k : Nat) (x : Slice) : (d.setSlice k x).engines = d.engines := rfl
@[simp] theorem setSlice_sigs (k : Nat) (x : Slice) : (d.setSlice k x).sigs = d.sigs := rfl
@[simp] theorem setSlice_grpLast (k : Nat) (x : Slice) : (d.setSlice k x).grpLast = d.grpLast := rfl
@[simp] theorem setSlice_isets (k : Nat) (x : Slice) : (d.setSlice k x).isets = d.isets := rfl
@[simp] theorem setSlice_thermTrip (k : Nat) (x : Slice) : (d.setSlice k x).thermTrip = d.thermTrip := rfl
@[simp] theorem setSlice_lostQuarters (k : Nat) (x : Slice) : (d.setSlice k x).lostQuarters = d.lostQuarters := rfl
@[simp] theorem setSlice_lost (k : Nat) (x : Slice) : (d.setSlice k x).lost = d.lost := rfl
@[simp] theorem setSlice_standbyEntering (k : Nat) (x : Slice) : (d.setSlice k x).standbyEntering = d.standbyEntering := rfl
@[simp] theorem setSlice_standbyEmulated (k : Nat) (x : Slice) : (d.setSlice k x).standbyEmulated = d.standbyEmulated := rfl
@[simp] theorem setSlice_standbyLinks (k : Nat) (x : Slice) : (d.setSlice k x).standbyLinks = d.standbyLinks := rfl
@[simp] theorem setSlice_gcEdges (k : Nat) (x : Slice) : (d.setSlice k x).gcEdges = d.gcEdges := rfl
@[simp] theorem setSlice_cfgCache (k : Nat) (x : Slice) : (d.setSlice k x).cfgCache = d.cfgCache := rfl
@[simp] theorem setSlice_finished (k : Nat) (x : Slice) : (d.setSlice k x).finished = d.finished := rfl
@[simp] theorem setSlice_catchIds (k : Nat) (x : Slice) : (d.setSlice k x).catchIds = d.catchIds := rfl
@[simp] theorem setSlice_drams (k : Nat) (x : Slice) : (d.setSlice k x).drams = d.drams := rfl
@[simp] theorem setSlice_isetNext (k : Nat) (x : Slice) : (d.setSlice k x).isetNext = d.isetNext := rfl
@[simp] theorem setSlice_links (k : Nat) (x : Slice) : (d.setSlice k x).links = d.links := rfl
@[simp] theorem setSlice_linkIds (k : Nat) (x : Slice) : (d.setSlice k x).linkIds = d.linkIds := rfl
@[simp] theorem setSlice_linkChans (k : Nat) (x : Slice) : (d.setSlice k x).linkChans = d.linkChans := rfl
@[simp] theorem setSlice_ppm (k : Nat) (x : Slice) : (d.setSlice k x).ppm = d.ppm := rfl
@[simp] theorem setSlice_tickFrac (k : Nat) (x : Slice) : (d.setSlice k x).tickFrac = d.tickFrac := rfl
@[simp] theorem setSlice_goodMeans (k : Nat) (x : Slice) : (d.setSlice k x).goodMeans = d.goodMeans := rfl
@[simp] theorem setSlice_crewCmds (k : Nat) (x : Slice) : (d.setSlice k x).crewCmds = d.crewCmds := rfl
@[simp] theorem setSlice_crewId (k : Nat) (x : Slice) : (d.setSlice k x).crewId = d.crewId := rfl
@[simp] theorem setSlice_epochWait (k : Nat) (x : Slice) : (d.setSlice k x).epochWait = d.epochWait := rfl
@[simp] theorem setSlice_tenants (k : Nat) (x : Slice) : (d.setSlice k x).tenants = d.tenants := rfl
@[simp] theorem setSlice_pmeEn (k : Nat) (x : Slice) : (d.setSlice k x).pmeEn = d.pmeEn := rfl
@[simp] theorem setSlice_vfEn (k : Nat) (x : Slice) : (d.setSlice k x).vfEn = d.vfEn := rfl
@[simp] theorem setSlice_vecs (k : Nat) (x : Slice) : (d.setSlice k x).vecs = d.vecs := rfl
@[simp] theorem setSlice_chans (k : Nat) (x : Slice) : (d.setSlice k x).chans = d.chans := rfl
@[simp] theorem setSlice_hostAccs (k : Nat) (x : Slice) : (d.setSlice k x).hostAccs = d.hostAccs := rfl
@[simp] theorem setSlice_hifUses (k : Nat) (x : Slice) : (d.setSlice k x).hifUses = d.hifUses := rfl
@[simp] theorem setSlice_bar2Waits (k : Nat) (x : Slice) : (d.setSlice k x).bar2Waits = d.bar2Waits := rfl
@[simp] theorem setSlice_hostTurns (k : Nat) (x : Slice) : (d.setSlice k x).hostTurns = d.hostTurns := rfl
@[simp] theorem setSlice_hostLast (k : Nat) (x : Slice) : (d.setSlice k x).hostLast = d.hostLast := rfl
@[simp] theorem setSlice_evlog (k : Nat) (x : Slice) : (d.setSlice k x).evlog = d.evlog := rfl
@[simp] theorem setSlice_wipes (k : Nat) (x : Slice) : (d.setSlice k x).wipes = d.wipes := rfl
@[simp] theorem setSlice_fills (k : Nat) (x : Slice) : (d.setSlice k x).fills = d.fills := rfl
@[simp] theorem setSlice_unfilled (k : Nat) (x : Slice) : (d.setSlice k x).unfilled = d.unfilled := rfl
@[simp] theorem setSlice_roleImg (k : Nat) (x : Slice) : (d.setSlice k x).roleImg = d.roleImg := rfl
@[simp] theorem setSlice_svcTest (k : Nat) (x : Slice) : (d.setSlice k x).svcTest = d.svcTest := rfl
@[simp] theorem setSlice_svcPass (k : Nat) (x : Slice) : (d.setSlice k x).svcPass = d.svcPass := rfl
@[simp] theorem setSlice_roots (k : Nat) (x : Slice) : (d.setSlice k x).roots = d.roots := rfl
@[simp] theorem setSlice_sealKeys (k : Nat) (x : Slice) : (d.setSlice k x).sealKeys = d.sealKeys := rfl
@[simp] theorem setSlice_sealQ (k : Nat) (x : Slice) : (d.setSlice k x).sealQ = d.sealQ := rfl
@[simp] theorem setSlice_sealOut (k : Nat) (x : Slice) : (d.setSlice k x).sealOut = d.sealOut := rfl
@[simp] theorem setSlice_sealLast (k : Nat) (x : Slice) : (d.setSlice k x).sealLast = d.sealLast := rfl
@[simp] theorem setSlice_versions (k : Nat) (x : Slice) : (d.setSlice k x).versions = d.versions := rfl
@[simp] theorem setSlice_grants (k : Nat) (x : Slice) : (d.setSlice k x).grants = d.grants := rfl
@[simp] theorem setSlice_battery (k : Nat) (x : Slice) : (d.setSlice k x).battery = d.battery := rfl
@[simp] theorem setSlice_fuseKey (k : Nat) (x : Slice) : (d.setSlice k x).fuseKey = d.fuseKey := rfl
@[simp] theorem setSlice_fuseKeyOk (k : Nat) (x : Slice) : (d.setSlice k x).fuseKeyOk = d.fuseKeyOk := rfl
@[simp] theorem setSlice_load (k : Nat) (x : Slice) : (d.setSlice k x).load = d.load := rfl
@[simp] theorem setSlice_awaitHost (k : Nat) (x : Slice) : (d.setSlice k x).awaitHost = d.awaitHost := rfl
@[simp] theorem setSlice_bootTries (k : Nat) (x : Slice) : (d.setSlice k x).bootTries = d.bootTries := rfl
@[simp] theorem setSlice_cfgDone (k : Nat) (x : Slice) : (d.setSlice k x).cfgDone = d.cfgDone := rfl
@[simp] theorem setSlice_flashCmd (k : Nat) (x : Slice) : (d.setSlice k x).flashCmd = d.flashCmd := rfl
@[simp] theorem setSlice_wakeQueue (k : Nat) (x : Slice) : (d.setSlice k x).wakeQueue = d.wakeQueue := rfl
@[simp] theorem setSlice_jtag (k : Nat) (x : Slice) : (d.setSlice k x).jtag = d.jtag := rfl
@[simp] theorem setSlice_apTag (k : Nat) (x : Slice) : (d.setSlice k x).apTag = d.apTag := rfl
@[simp] theorem setSlice_stateWait (k : Nat) (x : Slice) : (d.setSlice k x).stateWait = d.stateWait := rfl
@[simp] theorem setSlice_wakeWait (k : Nat) (x : Slice) : (d.setSlice k x).wakeWait = d.wakeWait := rfl
@[simp] theorem setSlice_xtrgWait (k : Nat) (x : Slice) : (d.setSlice k x).xtrgWait = d.xtrgWait := rfl

/-! #### setRow -/

@[simp] theorem setRow_dtime (k r : Nat) (v : Row) : (d.setRow k r v).dtime = d.dtime := rfl
@[simp] theorem setRow_free (k r : Nat) (v : Row) : (d.setRow k r v).free = d.free := rfl
@[simp] theorem setRow_out (k r : Nat) (v : Row) : (d.setRow k r v).out = d.out := rfl
@[simp] theorem setRow_regs (k r : Nat) (v : Row) : (d.setRow k r v).regs = d.regs := rfl
@[simp] theorem setRow_holdRd (k r : Nat) (v : Row) : (d.setRow k r v).holdRd = d.holdRd := rfl
@[simp] theorem setRow_holdWr (k r : Nat) (v : Row) : (d.setRow k r v).holdWr = d.holdWr := rfl
@[simp] theorem setRow_noc (k r : Nat) (v : Row) : (d.setRow k r v).noc = d.noc := rfl
@[simp] theorem setRow_brams (k r : Nat) (v : Row) : (d.setRow k r v).brams = d.brams := rfl
@[simp] theorem setRow_slices (k r : Nat) (v : Row) : (d.setRow k r v).slices = d.slices := rfl
@[simp] theorem setRow_islands (k r : Nat) (v : Row) : (d.setRow k r v).islands = d.islands := rfl
@[simp] theorem setRow_frames (k r : Nat) (v : Row) : (d.setRow k r v).frames = d.frames := rfl
@[simp] theorem setRow_ffs (k r : Nat) (v : Row) : (d.setRow k r v).ffs = d.ffs := rfl
@[simp] theorem setRow_ffUpset (k r : Nat) (v : Row) : (d.setRow k r v).ffUpset = d.ffUpset := rfl
@[simp] theorem setRow_transients (k r : Nat) (v : Row) : (d.setRow k r v).transients = d.transients := rfl
@[simp] theorem setRow_regions (k r : Nat) (v : Row) : (d.setRow k r v).regions = d.regions := rfl
@[simp] theorem setRow_catches (k r : Nat) (v : Row) : (d.setRow k r v).catches = d.catches := rfl
@[simp] theorem setRow_pinLevels (k r : Nat) (v : Row) : (d.setRow k r v).pinLevels = d.pinLevels := rfl
@[simp] theorem setRow_pinOut (k r : Nat) (v : Row) : (d.setRow k r v).pinOut = d.pinOut := rfl
@[simp] theorem setRow_pinEn (k r : Nat) (v : Row) : (d.setRow k r v).pinEn = d.pinEn := rfl
@[simp] theorem setRow_lanes (k r : Nat) (v : Row) : (d.setRow k r v).lanes = d.lanes := rfl
@[simp] theorem setRow_pllMult (k r : Nat) (v : Row) : (d.setRow k r v).pllMult = d.pllMult := rfl
@[simp] theorem setRow_gcinTerm (k r : Nat) (v : Row) : (d.setRow k r v).gcinTerm = d.gcinTerm := rfl
@[simp] theorem setRow_engines (k r : Nat) (v : Row) : (d.setRow k r v).engines = d.engines := rfl
@[simp] theorem setRow_sigs (k r : Nat) (v : Row) : (d.setRow k r v).sigs = d.sigs := rfl
@[simp] theorem setRow_grpLast (k r : Nat) (v : Row) : (d.setRow k r v).grpLast = d.grpLast := rfl
@[simp] theorem setRow_isets (k r : Nat) (v : Row) : (d.setRow k r v).isets = d.isets := rfl
@[simp] theorem setRow_thermTrip (k r : Nat) (v : Row) : (d.setRow k r v).thermTrip = d.thermTrip := rfl
@[simp] theorem setRow_lostQuarters (k r : Nat) (v : Row) : (d.setRow k r v).lostQuarters = d.lostQuarters := rfl
@[simp] theorem setRow_lost (k r : Nat) (v : Row) : (d.setRow k r v).lost = d.lost := rfl
@[simp] theorem setRow_standbyEntering (k r : Nat) (v : Row) : (d.setRow k r v).standbyEntering = d.standbyEntering := rfl
@[simp] theorem setRow_standbyEmulated (k r : Nat) (v : Row) : (d.setRow k r v).standbyEmulated = d.standbyEmulated := rfl
@[simp] theorem setRow_standbyLinks (k r : Nat) (v : Row) : (d.setRow k r v).standbyLinks = d.standbyLinks := rfl
@[simp] theorem setRow_gcEdges (k r : Nat) (v : Row) : (d.setRow k r v).gcEdges = d.gcEdges := rfl
@[simp] theorem setRow_cfgCache (k r : Nat) (v : Row) : (d.setRow k r v).cfgCache = d.cfgCache := rfl
@[simp] theorem setRow_finished (k r : Nat) (v : Row) : (d.setRow k r v).finished = d.finished := rfl
@[simp] theorem setRow_catchIds (k r : Nat) (v : Row) : (d.setRow k r v).catchIds = d.catchIds := rfl
@[simp] theorem setRow_drams (k r : Nat) (v : Row) : (d.setRow k r v).drams = d.drams := rfl
@[simp] theorem setRow_isetNext (k r : Nat) (v : Row) : (d.setRow k r v).isetNext = d.isetNext := rfl
@[simp] theorem setRow_links (k r : Nat) (v : Row) : (d.setRow k r v).links = d.links := rfl
@[simp] theorem setRow_linkIds (k r : Nat) (v : Row) : (d.setRow k r v).linkIds = d.linkIds := rfl
@[simp] theorem setRow_linkChans (k r : Nat) (v : Row) : (d.setRow k r v).linkChans = d.linkChans := rfl
@[simp] theorem setRow_ppm (k r : Nat) (v : Row) : (d.setRow k r v).ppm = d.ppm := rfl
@[simp] theorem setRow_tickFrac (k r : Nat) (v : Row) : (d.setRow k r v).tickFrac = d.tickFrac := rfl
@[simp] theorem setRow_goodMeans (k r : Nat) (v : Row) : (d.setRow k r v).goodMeans = d.goodMeans := rfl
@[simp] theorem setRow_crewCmds (k r : Nat) (v : Row) : (d.setRow k r v).crewCmds = d.crewCmds := rfl
@[simp] theorem setRow_crewId (k r : Nat) (v : Row) : (d.setRow k r v).crewId = d.crewId := rfl
@[simp] theorem setRow_epochWait (k r : Nat) (v : Row) : (d.setRow k r v).epochWait = d.epochWait := rfl
@[simp] theorem setRow_tenants (k r : Nat) (v : Row) : (d.setRow k r v).tenants = d.tenants := rfl
@[simp] theorem setRow_pmeEn (k r : Nat) (v : Row) : (d.setRow k r v).pmeEn = d.pmeEn := rfl
@[simp] theorem setRow_vfEn (k r : Nat) (v : Row) : (d.setRow k r v).vfEn = d.vfEn := rfl
@[simp] theorem setRow_vecs (k r : Nat) (v : Row) : (d.setRow k r v).vecs = d.vecs := rfl
@[simp] theorem setRow_chans (k r : Nat) (v : Row) : (d.setRow k r v).chans = d.chans := rfl
@[simp] theorem setRow_hostAccs (k r : Nat) (v : Row) : (d.setRow k r v).hostAccs = d.hostAccs := rfl
@[simp] theorem setRow_hifUses (k r : Nat) (v : Row) : (d.setRow k r v).hifUses = d.hifUses := rfl
@[simp] theorem setRow_bar2Waits (k r : Nat) (v : Row) : (d.setRow k r v).bar2Waits = d.bar2Waits := rfl
@[simp] theorem setRow_hostTurns (k r : Nat) (v : Row) : (d.setRow k r v).hostTurns = d.hostTurns := rfl
@[simp] theorem setRow_hostLast (k r : Nat) (v : Row) : (d.setRow k r v).hostLast = d.hostLast := rfl
@[simp] theorem setRow_evlog (k r : Nat) (v : Row) : (d.setRow k r v).evlog = d.evlog := rfl
@[simp] theorem setRow_wipes (k r : Nat) (v : Row) : (d.setRow k r v).wipes = d.wipes := rfl
@[simp] theorem setRow_fills (k r : Nat) (v : Row) : (d.setRow k r v).fills = d.fills := rfl
@[simp] theorem setRow_unfilled (k r : Nat) (v : Row) : (d.setRow k r v).unfilled = d.unfilled := rfl
@[simp] theorem setRow_roleImg (k r : Nat) (v : Row) : (d.setRow k r v).roleImg = d.roleImg := rfl
@[simp] theorem setRow_svcTest (k r : Nat) (v : Row) : (d.setRow k r v).svcTest = d.svcTest := rfl
@[simp] theorem setRow_svcPass (k r : Nat) (v : Row) : (d.setRow k r v).svcPass = d.svcPass := rfl
@[simp] theorem setRow_roots (k r : Nat) (v : Row) : (d.setRow k r v).roots = d.roots := rfl
@[simp] theorem setRow_sealKeys (k r : Nat) (v : Row) : (d.setRow k r v).sealKeys = d.sealKeys := rfl
@[simp] theorem setRow_sealQ (k r : Nat) (v : Row) : (d.setRow k r v).sealQ = d.sealQ := rfl
@[simp] theorem setRow_sealOut (k r : Nat) (v : Row) : (d.setRow k r v).sealOut = d.sealOut := rfl
@[simp] theorem setRow_sealLast (k r : Nat) (v : Row) : (d.setRow k r v).sealLast = d.sealLast := rfl
@[simp] theorem setRow_versions (k r : Nat) (v : Row) : (d.setRow k r v).versions = d.versions := rfl
@[simp] theorem setRow_grants (k r : Nat) (v : Row) : (d.setRow k r v).grants = d.grants := rfl
@[simp] theorem setRow_battery (k r : Nat) (v : Row) : (d.setRow k r v).battery = d.battery := rfl
@[simp] theorem setRow_fuseKey (k r : Nat) (v : Row) : (d.setRow k r v).fuseKey = d.fuseKey := rfl
@[simp] theorem setRow_fuseKeyOk (k r : Nat) (v : Row) : (d.setRow k r v).fuseKeyOk = d.fuseKeyOk := rfl
@[simp] theorem setRow_load (k r : Nat) (v : Row) : (d.setRow k r v).load = d.load := rfl
@[simp] theorem setRow_awaitHost (k r : Nat) (v : Row) : (d.setRow k r v).awaitHost = d.awaitHost := rfl
@[simp] theorem setRow_bootTries (k r : Nat) (v : Row) : (d.setRow k r v).bootTries = d.bootTries := rfl
@[simp] theorem setRow_cfgDone (k r : Nat) (v : Row) : (d.setRow k r v).cfgDone = d.cfgDone := rfl
@[simp] theorem setRow_flashCmd (k r : Nat) (v : Row) : (d.setRow k r v).flashCmd = d.flashCmd := rfl
@[simp] theorem setRow_wakeQueue (k r : Nat) (v : Row) : (d.setRow k r v).wakeQueue = d.wakeQueue := rfl
@[simp] theorem setRow_jtag (k r : Nat) (v : Row) : (d.setRow k r v).jtag = d.jtag := rfl
@[simp] theorem setRow_apTag (k r : Nat) (v : Row) : (d.setRow k r v).apTag = d.apTag := rfl
@[simp] theorem setRow_stateWait (k r : Nat) (v : Row) : (d.setRow k r v).stateWait = d.stateWait := rfl
@[simp] theorem setRow_wakeWait (k r : Nat) (v : Row) : (d.setRow k r v).wakeWait = d.wakeWait := rfl
@[simp] theorem setRow_xtrgWait (k r : Nat) (v : Row) : (d.setRow k r v).xtrgWait = d.xtrgWait := rfl

/-! #### setFf -/

@[simp] theorem setFf_dtime (i c : Nat) (v : W64) : (d.setFf i c v).dtime = d.dtime := rfl
@[simp] theorem setFf_free (i c : Nat) (v : W64) : (d.setFf i c v).free = d.free := rfl
@[simp] theorem setFf_out (i c : Nat) (v : W64) : (d.setFf i c v).out = d.out := rfl
@[simp] theorem setFf_regs (i c : Nat) (v : W64) : (d.setFf i c v).regs = d.regs := rfl
@[simp] theorem setFf_holdRd (i c : Nat) (v : W64) : (d.setFf i c v).holdRd = d.holdRd := rfl
@[simp] theorem setFf_holdWr (i c : Nat) (v : W64) : (d.setFf i c v).holdWr = d.holdWr := rfl
@[simp] theorem setFf_noc (i c : Nat) (v : W64) : (d.setFf i c v).noc = d.noc := rfl
@[simp] theorem setFf_brams (i c : Nat) (v : W64) : (d.setFf i c v).brams = d.brams := rfl
@[simp] theorem setFf_rows (i c : Nat) (v : W64) : (d.setFf i c v).rows = d.rows := rfl
@[simp] theorem setFf_slices (i c : Nat) (v : W64) : (d.setFf i c v).slices = d.slices := rfl
@[simp] theorem setFf_islands (i c : Nat) (v : W64) : (d.setFf i c v).islands = d.islands := rfl
@[simp] theorem setFf_frames (i c : Nat) (v : W64) : (d.setFf i c v).frames = d.frames := rfl
@[simp] theorem setFf_ffUpset (i c : Nat) (v : W64) : (d.setFf i c v).ffUpset = d.ffUpset := rfl
@[simp] theorem setFf_transients (i c : Nat) (v : W64) : (d.setFf i c v).transients = d.transients := rfl
@[simp] theorem setFf_regions (i c : Nat) (v : W64) : (d.setFf i c v).regions = d.regions := rfl
@[simp] theorem setFf_catches (i c : Nat) (v : W64) : (d.setFf i c v).catches = d.catches := rfl
@[simp] theorem setFf_pinLevels (i c : Nat) (v : W64) : (d.setFf i c v).pinLevels = d.pinLevels := rfl
@[simp] theorem setFf_pinOut (i c : Nat) (v : W64) : (d.setFf i c v).pinOut = d.pinOut := rfl
@[simp] theorem setFf_pinEn (i c : Nat) (v : W64) : (d.setFf i c v).pinEn = d.pinEn := rfl
@[simp] theorem setFf_lanes (i c : Nat) (v : W64) : (d.setFf i c v).lanes = d.lanes := rfl
@[simp] theorem setFf_pllMult (i c : Nat) (v : W64) : (d.setFf i c v).pllMult = d.pllMult := rfl
@[simp] theorem setFf_gcinTerm (i c : Nat) (v : W64) : (d.setFf i c v).gcinTerm = d.gcinTerm := rfl
@[simp] theorem setFf_engines (i c : Nat) (v : W64) : (d.setFf i c v).engines = d.engines := rfl
@[simp] theorem setFf_sigs (i c : Nat) (v : W64) : (d.setFf i c v).sigs = d.sigs := rfl
@[simp] theorem setFf_grpLast (i c : Nat) (v : W64) : (d.setFf i c v).grpLast = d.grpLast := rfl
@[simp] theorem setFf_isets (i c : Nat) (v : W64) : (d.setFf i c v).isets = d.isets := rfl
@[simp] theorem setFf_thermTrip (i c : Nat) (v : W64) : (d.setFf i c v).thermTrip = d.thermTrip := rfl
@[simp] theorem setFf_lostQuarters (i c : Nat) (v : W64) : (d.setFf i c v).lostQuarters = d.lostQuarters := rfl
@[simp] theorem setFf_lost (i c : Nat) (v : W64) : (d.setFf i c v).lost = d.lost := rfl
@[simp] theorem setFf_standbyEntering (i c : Nat) (v : W64) : (d.setFf i c v).standbyEntering = d.standbyEntering := rfl
@[simp] theorem setFf_standbyEmulated (i c : Nat) (v : W64) : (d.setFf i c v).standbyEmulated = d.standbyEmulated := rfl
@[simp] theorem setFf_standbyLinks (i c : Nat) (v : W64) : (d.setFf i c v).standbyLinks = d.standbyLinks := rfl
@[simp] theorem setFf_gcEdges (i c : Nat) (v : W64) : (d.setFf i c v).gcEdges = d.gcEdges := rfl
@[simp] theorem setFf_cfgCache (i c : Nat) (v : W64) : (d.setFf i c v).cfgCache = d.cfgCache := rfl
@[simp] theorem setFf_finished (i c : Nat) (v : W64) : (d.setFf i c v).finished = d.finished := rfl
@[simp] theorem setFf_catchIds (i c : Nat) (v : W64) : (d.setFf i c v).catchIds = d.catchIds := rfl
@[simp] theorem setFf_drams (i c : Nat) (v : W64) : (d.setFf i c v).drams = d.drams := rfl
@[simp] theorem setFf_isetNext (i c : Nat) (v : W64) : (d.setFf i c v).isetNext = d.isetNext := rfl
@[simp] theorem setFf_links (i c : Nat) (v : W64) : (d.setFf i c v).links = d.links := rfl
@[simp] theorem setFf_linkIds (i c : Nat) (v : W64) : (d.setFf i c v).linkIds = d.linkIds := rfl
@[simp] theorem setFf_linkChans (i c : Nat) (v : W64) : (d.setFf i c v).linkChans = d.linkChans := rfl
@[simp] theorem setFf_ppm (i c : Nat) (v : W64) : (d.setFf i c v).ppm = d.ppm := rfl
@[simp] theorem setFf_tickFrac (i c : Nat) (v : W64) : (d.setFf i c v).tickFrac = d.tickFrac := rfl
@[simp] theorem setFf_goodMeans (i c : Nat) (v : W64) : (d.setFf i c v).goodMeans = d.goodMeans := rfl
@[simp] theorem setFf_crewCmds (i c : Nat) (v : W64) : (d.setFf i c v).crewCmds = d.crewCmds := rfl
@[simp] theorem setFf_crewId (i c : Nat) (v : W64) : (d.setFf i c v).crewId = d.crewId := rfl
@[simp] theorem setFf_epochWait (i c : Nat) (v : W64) : (d.setFf i c v).epochWait = d.epochWait := rfl
@[simp] theorem setFf_tenants (i c : Nat) (v : W64) : (d.setFf i c v).tenants = d.tenants := rfl
@[simp] theorem setFf_pmeEn (i c : Nat) (v : W64) : (d.setFf i c v).pmeEn = d.pmeEn := rfl
@[simp] theorem setFf_vfEn (i c : Nat) (v : W64) : (d.setFf i c v).vfEn = d.vfEn := rfl
@[simp] theorem setFf_vecs (i c : Nat) (v : W64) : (d.setFf i c v).vecs = d.vecs := rfl
@[simp] theorem setFf_chans (i c : Nat) (v : W64) : (d.setFf i c v).chans = d.chans := rfl
@[simp] theorem setFf_hostAccs (i c : Nat) (v : W64) : (d.setFf i c v).hostAccs = d.hostAccs := rfl
@[simp] theorem setFf_hifUses (i c : Nat) (v : W64) : (d.setFf i c v).hifUses = d.hifUses := rfl
@[simp] theorem setFf_bar2Waits (i c : Nat) (v : W64) : (d.setFf i c v).bar2Waits = d.bar2Waits := rfl
@[simp] theorem setFf_hostTurns (i c : Nat) (v : W64) : (d.setFf i c v).hostTurns = d.hostTurns := rfl
@[simp] theorem setFf_hostLast (i c : Nat) (v : W64) : (d.setFf i c v).hostLast = d.hostLast := rfl
@[simp] theorem setFf_evlog (i c : Nat) (v : W64) : (d.setFf i c v).evlog = d.evlog := rfl
@[simp] theorem setFf_wipes (i c : Nat) (v : W64) : (d.setFf i c v).wipes = d.wipes := rfl
@[simp] theorem setFf_fills (i c : Nat) (v : W64) : (d.setFf i c v).fills = d.fills := rfl
@[simp] theorem setFf_unfilled (i c : Nat) (v : W64) : (d.setFf i c v).unfilled = d.unfilled := rfl
@[simp] theorem setFf_roleImg (i c : Nat) (v : W64) : (d.setFf i c v).roleImg = d.roleImg := rfl
@[simp] theorem setFf_svcTest (i c : Nat) (v : W64) : (d.setFf i c v).svcTest = d.svcTest := rfl
@[simp] theorem setFf_svcPass (i c : Nat) (v : W64) : (d.setFf i c v).svcPass = d.svcPass := rfl
@[simp] theorem setFf_roots (i c : Nat) (v : W64) : (d.setFf i c v).roots = d.roots := rfl
@[simp] theorem setFf_sealKeys (i c : Nat) (v : W64) : (d.setFf i c v).sealKeys = d.sealKeys := rfl
@[simp] theorem setFf_sealQ (i c : Nat) (v : W64) : (d.setFf i c v).sealQ = d.sealQ := rfl
@[simp] theorem setFf_sealOut (i c : Nat) (v : W64) : (d.setFf i c v).sealOut = d.sealOut := rfl
@[simp] theorem setFf_sealLast (i c : Nat) (v : W64) : (d.setFf i c v).sealLast = d.sealLast := rfl
@[simp] theorem setFf_versions (i c : Nat) (v : W64) : (d.setFf i c v).versions = d.versions := rfl
@[simp] theorem setFf_grants (i c : Nat) (v : W64) : (d.setFf i c v).grants = d.grants := rfl
@[simp] theorem setFf_battery (i c : Nat) (v : W64) : (d.setFf i c v).battery = d.battery := rfl
@[simp] theorem setFf_fuseKey (i c : Nat) (v : W64) : (d.setFf i c v).fuseKey = d.fuseKey := rfl
@[simp] theorem setFf_fuseKeyOk (i c : Nat) (v : W64) : (d.setFf i c v).fuseKeyOk = d.fuseKeyOk := rfl
@[simp] theorem setFf_load (i c : Nat) (v : W64) : (d.setFf i c v).load = d.load := rfl
@[simp] theorem setFf_awaitHost (i c : Nat) (v : W64) : (d.setFf i c v).awaitHost = d.awaitHost := rfl
@[simp] theorem setFf_bootTries (i c : Nat) (v : W64) : (d.setFf i c v).bootTries = d.bootTries := rfl
@[simp] theorem setFf_cfgDone (i c : Nat) (v : W64) : (d.setFf i c v).cfgDone = d.cfgDone := rfl
@[simp] theorem setFf_flashCmd (i c : Nat) (v : W64) : (d.setFf i c v).flashCmd = d.flashCmd := rfl
@[simp] theorem setFf_wakeQueue (i c : Nat) (v : W64) : (d.setFf i c v).wakeQueue = d.wakeQueue := rfl
@[simp] theorem setFf_jtag (i c : Nat) (v : W64) : (d.setFf i c v).jtag = d.jtag := rfl
@[simp] theorem setFf_apTag (i c : Nat) (v : W64) : (d.setFf i c v).apTag = d.apTag := rfl
@[simp] theorem setFf_stateWait (i c : Nat) (v : W64) : (d.setFf i c v).stateWait = d.stateWait := rfl
@[simp] theorem setFf_wakeWait (i c : Nat) (v : W64) : (d.setFf i c v).wakeWait = d.wakeWait := rfl
@[simp] theorem setFf_xtrgWait (i c : Nat) (v : W64) : (d.setFf i c v).xtrgWait = d.xtrgWait := rfl

/-! #### setFrame -/

@[simp] theorem setFrame_dtime (i f : Nat) (v : FrameNodes) : (d.setFrame i f v).dtime = d.dtime := rfl
@[simp] theorem setFrame_free (i f : Nat) (v : FrameNodes) : (d.setFrame i f v).free = d.free := rfl
@[simp] theorem setFrame_out (i f : Nat) (v : FrameNodes) : (d.setFrame i f v).out = d.out := rfl
@[simp] theorem setFrame_regs (i f : Nat) (v : FrameNodes) : (d.setFrame i f v).regs = d.regs := rfl
@[simp] theorem setFrame_holdRd (i f : Nat) (v : FrameNodes) : (d.setFrame i f v).holdRd = d.holdRd := rfl
@[simp] theorem setFrame_holdWr (i f : Nat) (v : FrameNodes) : (d.setFrame i f v).holdWr = d.holdWr := rfl
@[simp] theorem setFrame_noc (i f : Nat) (v : FrameNodes) : (d.setFrame i f v).noc = d.noc := rfl
@[simp] theorem setFrame_brams (i f : Nat) (v : FrameNodes) : (d.setFrame i f v).brams = d.brams := rfl
@[simp] theorem setFrame_rows (i f : Nat) (v : FrameNodes) : (d.setFrame i f v).rows = d.rows := rfl
@[simp] theorem setFrame_slices (i f : Nat) (v : FrameNodes) : (d.setFrame i f v).slices = d.slices := rfl
@[simp] theorem setFrame_islands (i f : Nat) (v : FrameNodes) : (d.setFrame i f v).islands = d.islands := rfl
@[simp] theorem setFrame_ffs (i f : Nat) (v : FrameNodes) : (d.setFrame i f v).ffs = d.ffs := rfl
@[simp] theorem setFrame_ffUpset (i f : Nat) (v : FrameNodes) : (d.setFrame i f v).ffUpset = d.ffUpset := rfl
@[simp] theorem setFrame_transients (i f : Nat) (v : FrameNodes) : (d.setFrame i f v).transients = d.transients := rfl
@[simp] theorem setFrame_regions (i f : Nat) (v : FrameNodes) : (d.setFrame i f v).regions = d.regions := rfl
@[simp] theorem setFrame_catches (i f : Nat) (v : FrameNodes) : (d.setFrame i f v).catches = d.catches := rfl
@[simp] theorem setFrame_pinLevels (i f : Nat) (v : FrameNodes) : (d.setFrame i f v).pinLevels = d.pinLevels := rfl
@[simp] theorem setFrame_pinOut (i f : Nat) (v : FrameNodes) : (d.setFrame i f v).pinOut = d.pinOut := rfl
@[simp] theorem setFrame_pinEn (i f : Nat) (v : FrameNodes) : (d.setFrame i f v).pinEn = d.pinEn := rfl
@[simp] theorem setFrame_lanes (i f : Nat) (v : FrameNodes) : (d.setFrame i f v).lanes = d.lanes := rfl
@[simp] theorem setFrame_pllMult (i f : Nat) (v : FrameNodes) : (d.setFrame i f v).pllMult = d.pllMult := rfl
@[simp] theorem setFrame_gcinTerm (i f : Nat) (v : FrameNodes) : (d.setFrame i f v).gcinTerm = d.gcinTerm := rfl
@[simp] theorem setFrame_engines (i f : Nat) (v : FrameNodes) : (d.setFrame i f v).engines = d.engines := rfl
@[simp] theorem setFrame_sigs (i f : Nat) (v : FrameNodes) : (d.setFrame i f v).sigs = d.sigs := rfl
@[simp] theorem setFrame_grpLast (i f : Nat) (v : FrameNodes) : (d.setFrame i f v).grpLast = d.grpLast := rfl
@[simp] theorem setFrame_isets (i f : Nat) (v : FrameNodes) : (d.setFrame i f v).isets = d.isets := rfl
@[simp] theorem setFrame_thermTrip (i f : Nat) (v : FrameNodes) : (d.setFrame i f v).thermTrip = d.thermTrip := rfl
@[simp] theorem setFrame_lostQuarters (i f : Nat) (v : FrameNodes) : (d.setFrame i f v).lostQuarters = d.lostQuarters := rfl
@[simp] theorem setFrame_lost (i f : Nat) (v : FrameNodes) : (d.setFrame i f v).lost = d.lost := rfl
@[simp] theorem setFrame_standbyEntering (i f : Nat) (v : FrameNodes) : (d.setFrame i f v).standbyEntering = d.standbyEntering := rfl
@[simp] theorem setFrame_standbyEmulated (i f : Nat) (v : FrameNodes) : (d.setFrame i f v).standbyEmulated = d.standbyEmulated := rfl
@[simp] theorem setFrame_standbyLinks (i f : Nat) (v : FrameNodes) : (d.setFrame i f v).standbyLinks = d.standbyLinks := rfl
@[simp] theorem setFrame_gcEdges (i f : Nat) (v : FrameNodes) : (d.setFrame i f v).gcEdges = d.gcEdges := rfl
@[simp] theorem setFrame_cfgCache (i f : Nat) (v : FrameNodes) : (d.setFrame i f v).cfgCache = d.cfgCache := rfl
@[simp] theorem setFrame_finished (i f : Nat) (v : FrameNodes) : (d.setFrame i f v).finished = d.finished := rfl
@[simp] theorem setFrame_catchIds (i f : Nat) (v : FrameNodes) : (d.setFrame i f v).catchIds = d.catchIds := rfl
@[simp] theorem setFrame_drams (i f : Nat) (v : FrameNodes) : (d.setFrame i f v).drams = d.drams := rfl
@[simp] theorem setFrame_isetNext (i f : Nat) (v : FrameNodes) : (d.setFrame i f v).isetNext = d.isetNext := rfl
@[simp] theorem setFrame_links (i f : Nat) (v : FrameNodes) : (d.setFrame i f v).links = d.links := rfl
@[simp] theorem setFrame_linkIds (i f : Nat) (v : FrameNodes) : (d.setFrame i f v).linkIds = d.linkIds := rfl
@[simp] theorem setFrame_linkChans (i f : Nat) (v : FrameNodes) : (d.setFrame i f v).linkChans = d.linkChans := rfl
@[simp] theorem setFrame_ppm (i f : Nat) (v : FrameNodes) : (d.setFrame i f v).ppm = d.ppm := rfl
@[simp] theorem setFrame_tickFrac (i f : Nat) (v : FrameNodes) : (d.setFrame i f v).tickFrac = d.tickFrac := rfl
@[simp] theorem setFrame_goodMeans (i f : Nat) (v : FrameNodes) : (d.setFrame i f v).goodMeans = d.goodMeans := rfl
@[simp] theorem setFrame_crewCmds (i f : Nat) (v : FrameNodes) : (d.setFrame i f v).crewCmds = d.crewCmds := rfl
@[simp] theorem setFrame_crewId (i f : Nat) (v : FrameNodes) : (d.setFrame i f v).crewId = d.crewId := rfl
@[simp] theorem setFrame_epochWait (i f : Nat) (v : FrameNodes) : (d.setFrame i f v).epochWait = d.epochWait := rfl
@[simp] theorem setFrame_tenants (i f : Nat) (v : FrameNodes) : (d.setFrame i f v).tenants = d.tenants := rfl
@[simp] theorem setFrame_pmeEn (i f : Nat) (v : FrameNodes) : (d.setFrame i f v).pmeEn = d.pmeEn := rfl
@[simp] theorem setFrame_vfEn (i f : Nat) (v : FrameNodes) : (d.setFrame i f v).vfEn = d.vfEn := rfl
@[simp] theorem setFrame_vecs (i f : Nat) (v : FrameNodes) : (d.setFrame i f v).vecs = d.vecs := rfl
@[simp] theorem setFrame_chans (i f : Nat) (v : FrameNodes) : (d.setFrame i f v).chans = d.chans := rfl
@[simp] theorem setFrame_hostAccs (i f : Nat) (v : FrameNodes) : (d.setFrame i f v).hostAccs = d.hostAccs := rfl
@[simp] theorem setFrame_hifUses (i f : Nat) (v : FrameNodes) : (d.setFrame i f v).hifUses = d.hifUses := rfl
@[simp] theorem setFrame_bar2Waits (i f : Nat) (v : FrameNodes) : (d.setFrame i f v).bar2Waits = d.bar2Waits := rfl
@[simp] theorem setFrame_hostTurns (i f : Nat) (v : FrameNodes) : (d.setFrame i f v).hostTurns = d.hostTurns := rfl
@[simp] theorem setFrame_hostLast (i f : Nat) (v : FrameNodes) : (d.setFrame i f v).hostLast = d.hostLast := rfl
@[simp] theorem setFrame_evlog (i f : Nat) (v : FrameNodes) : (d.setFrame i f v).evlog = d.evlog := rfl
@[simp] theorem setFrame_wipes (i f : Nat) (v : FrameNodes) : (d.setFrame i f v).wipes = d.wipes := rfl
@[simp] theorem setFrame_fills (i f : Nat) (v : FrameNodes) : (d.setFrame i f v).fills = d.fills := rfl
@[simp] theorem setFrame_unfilled (i f : Nat) (v : FrameNodes) : (d.setFrame i f v).unfilled = d.unfilled := rfl
@[simp] theorem setFrame_roleImg (i f : Nat) (v : FrameNodes) : (d.setFrame i f v).roleImg = d.roleImg := rfl
@[simp] theorem setFrame_svcTest (i f : Nat) (v : FrameNodes) : (d.setFrame i f v).svcTest = d.svcTest := rfl
@[simp] theorem setFrame_svcPass (i f : Nat) (v : FrameNodes) : (d.setFrame i f v).svcPass = d.svcPass := rfl
@[simp] theorem setFrame_roots (i f : Nat) (v : FrameNodes) : (d.setFrame i f v).roots = d.roots := rfl
@[simp] theorem setFrame_sealKeys (i f : Nat) (v : FrameNodes) : (d.setFrame i f v).sealKeys = d.sealKeys := rfl
@[simp] theorem setFrame_sealQ (i f : Nat) (v : FrameNodes) : (d.setFrame i f v).sealQ = d.sealQ := rfl
@[simp] theorem setFrame_sealOut (i f : Nat) (v : FrameNodes) : (d.setFrame i f v).sealOut = d.sealOut := rfl
@[simp] theorem setFrame_sealLast (i f : Nat) (v : FrameNodes) : (d.setFrame i f v).sealLast = d.sealLast := rfl
@[simp] theorem setFrame_versions (i f : Nat) (v : FrameNodes) : (d.setFrame i f v).versions = d.versions := rfl
@[simp] theorem setFrame_grants (i f : Nat) (v : FrameNodes) : (d.setFrame i f v).grants = d.grants := rfl
@[simp] theorem setFrame_battery (i f : Nat) (v : FrameNodes) : (d.setFrame i f v).battery = d.battery := rfl
@[simp] theorem setFrame_fuseKey (i f : Nat) (v : FrameNodes) : (d.setFrame i f v).fuseKey = d.fuseKey := rfl
@[simp] theorem setFrame_fuseKeyOk (i f : Nat) (v : FrameNodes) : (d.setFrame i f v).fuseKeyOk = d.fuseKeyOk := rfl
@[simp] theorem setFrame_load (i f : Nat) (v : FrameNodes) : (d.setFrame i f v).load = d.load := rfl
@[simp] theorem setFrame_awaitHost (i f : Nat) (v : FrameNodes) : (d.setFrame i f v).awaitHost = d.awaitHost := rfl
@[simp] theorem setFrame_bootTries (i f : Nat) (v : FrameNodes) : (d.setFrame i f v).bootTries = d.bootTries := rfl
@[simp] theorem setFrame_cfgDone (i f : Nat) (v : FrameNodes) : (d.setFrame i f v).cfgDone = d.cfgDone := rfl
@[simp] theorem setFrame_flashCmd (i f : Nat) (v : FrameNodes) : (d.setFrame i f v).flashCmd = d.flashCmd := rfl
@[simp] theorem setFrame_wakeQueue (i f : Nat) (v : FrameNodes) : (d.setFrame i f v).wakeQueue = d.wakeQueue := rfl
@[simp] theorem setFrame_jtag (i f : Nat) (v : FrameNodes) : (d.setFrame i f v).jtag = d.jtag := rfl
@[simp] theorem setFrame_apTag (i f : Nat) (v : FrameNodes) : (d.setFrame i f v).apTag = d.apTag := rfl
@[simp] theorem setFrame_stateWait (i f : Nat) (v : FrameNodes) : (d.setFrame i f v).stateWait = d.stateWait := rfl
@[simp] theorem setFrame_wakeWait (i f : Nat) (v : FrameNodes) : (d.setFrame i f v).wakeWait = d.wakeWait := rfl
@[simp] theorem setFrame_xtrgWait (i f : Nat) (v : FrameNodes) : (d.setFrame i f v).xtrgWait = d.xtrgWait := rfl

/-! #### setEng -/

@[simp] theorem setEng_dtime (e : Nat) (x : Engine) : (d.setEng e x).dtime = d.dtime := rfl
@[simp] theorem setEng_free (e : Nat) (x : Engine) : (d.setEng e x).free = d.free := rfl
@[simp] theorem setEng_out (e : Nat) (x : Engine) : (d.setEng e x).out = d.out := rfl
@[simp] theorem setEng_regs (e : Nat) (x : Engine) : (d.setEng e x).regs = d.regs := rfl
@[simp] theorem setEng_holdRd (e : Nat) (x : Engine) : (d.setEng e x).holdRd = d.holdRd := rfl
@[simp] theorem setEng_holdWr (e : Nat) (x : Engine) : (d.setEng e x).holdWr = d.holdWr := rfl
@[simp] theorem setEng_noc (e : Nat) (x : Engine) : (d.setEng e x).noc = d.noc := rfl
@[simp] theorem setEng_brams (e : Nat) (x : Engine) : (d.setEng e x).brams = d.brams := rfl
@[simp] theorem setEng_rows (e : Nat) (x : Engine) : (d.setEng e x).rows = d.rows := rfl
@[simp] theorem setEng_slices (e : Nat) (x : Engine) : (d.setEng e x).slices = d.slices := rfl
@[simp] theorem setEng_islands (e : Nat) (x : Engine) : (d.setEng e x).islands = d.islands := rfl
@[simp] theorem setEng_frames (e : Nat) (x : Engine) : (d.setEng e x).frames = d.frames := rfl
@[simp] theorem setEng_ffs (e : Nat) (x : Engine) : (d.setEng e x).ffs = d.ffs := rfl
@[simp] theorem setEng_ffUpset (e : Nat) (x : Engine) : (d.setEng e x).ffUpset = d.ffUpset := rfl
@[simp] theorem setEng_transients (e : Nat) (x : Engine) : (d.setEng e x).transients = d.transients := rfl
@[simp] theorem setEng_regions (e : Nat) (x : Engine) : (d.setEng e x).regions = d.regions := rfl
@[simp] theorem setEng_catches (e : Nat) (x : Engine) : (d.setEng e x).catches = d.catches := rfl
@[simp] theorem setEng_pinLevels (e : Nat) (x : Engine) : (d.setEng e x).pinLevels = d.pinLevels := rfl
@[simp] theorem setEng_pinOut (e : Nat) (x : Engine) : (d.setEng e x).pinOut = d.pinOut := rfl
@[simp] theorem setEng_pinEn (e : Nat) (x : Engine) : (d.setEng e x).pinEn = d.pinEn := rfl
@[simp] theorem setEng_lanes (e : Nat) (x : Engine) : (d.setEng e x).lanes = d.lanes := rfl
@[simp] theorem setEng_pllMult (e : Nat) (x : Engine) : (d.setEng e x).pllMult = d.pllMult := rfl
@[simp] theorem setEng_gcinTerm (e : Nat) (x : Engine) : (d.setEng e x).gcinTerm = d.gcinTerm := rfl
@[simp] theorem setEng_sigs (e : Nat) (x : Engine) : (d.setEng e x).sigs = d.sigs := rfl
@[simp] theorem setEng_grpLast (e : Nat) (x : Engine) : (d.setEng e x).grpLast = d.grpLast := rfl
@[simp] theorem setEng_isets (e : Nat) (x : Engine) : (d.setEng e x).isets = d.isets := rfl
@[simp] theorem setEng_thermTrip (e : Nat) (x : Engine) : (d.setEng e x).thermTrip = d.thermTrip := rfl
@[simp] theorem setEng_lostQuarters (e : Nat) (x : Engine) : (d.setEng e x).lostQuarters = d.lostQuarters := rfl
@[simp] theorem setEng_lost (e : Nat) (x : Engine) : (d.setEng e x).lost = d.lost := rfl
@[simp] theorem setEng_standbyEntering (e : Nat) (x : Engine) : (d.setEng e x).standbyEntering = d.standbyEntering := rfl
@[simp] theorem setEng_standbyEmulated (e : Nat) (x : Engine) : (d.setEng e x).standbyEmulated = d.standbyEmulated := rfl
@[simp] theorem setEng_standbyLinks (e : Nat) (x : Engine) : (d.setEng e x).standbyLinks = d.standbyLinks := rfl
@[simp] theorem setEng_gcEdges (e : Nat) (x : Engine) : (d.setEng e x).gcEdges = d.gcEdges := rfl
@[simp] theorem setEng_cfgCache (e : Nat) (x : Engine) : (d.setEng e x).cfgCache = d.cfgCache := rfl
@[simp] theorem setEng_finished (e : Nat) (x : Engine) : (d.setEng e x).finished = d.finished := rfl
@[simp] theorem setEng_catchIds (e : Nat) (x : Engine) : (d.setEng e x).catchIds = d.catchIds := rfl
@[simp] theorem setEng_drams (e : Nat) (x : Engine) : (d.setEng e x).drams = d.drams := rfl
@[simp] theorem setEng_isetNext (e : Nat) (x : Engine) : (d.setEng e x).isetNext = d.isetNext := rfl
@[simp] theorem setEng_links (e : Nat) (x : Engine) : (d.setEng e x).links = d.links := rfl
@[simp] theorem setEng_linkIds (e : Nat) (x : Engine) : (d.setEng e x).linkIds = d.linkIds := rfl
@[simp] theorem setEng_linkChans (e : Nat) (x : Engine) : (d.setEng e x).linkChans = d.linkChans := rfl
@[simp] theorem setEng_ppm (e : Nat) (x : Engine) : (d.setEng e x).ppm = d.ppm := rfl
@[simp] theorem setEng_tickFrac (e : Nat) (x : Engine) : (d.setEng e x).tickFrac = d.tickFrac := rfl
@[simp] theorem setEng_goodMeans (e : Nat) (x : Engine) : (d.setEng e x).goodMeans = d.goodMeans := rfl
@[simp] theorem setEng_crewCmds (e : Nat) (x : Engine) : (d.setEng e x).crewCmds = d.crewCmds := rfl
@[simp] theorem setEng_crewId (e : Nat) (x : Engine) : (d.setEng e x).crewId = d.crewId := rfl
@[simp] theorem setEng_epochWait (e : Nat) (x : Engine) : (d.setEng e x).epochWait = d.epochWait := rfl
@[simp] theorem setEng_tenants (e : Nat) (x : Engine) : (d.setEng e x).tenants = d.tenants := rfl
@[simp] theorem setEng_pmeEn (e : Nat) (x : Engine) : (d.setEng e x).pmeEn = d.pmeEn := rfl
@[simp] theorem setEng_vfEn (e : Nat) (x : Engine) : (d.setEng e x).vfEn = d.vfEn := rfl
@[simp] theorem setEng_vecs (e : Nat) (x : Engine) : (d.setEng e x).vecs = d.vecs := rfl
@[simp] theorem setEng_chans (e : Nat) (x : Engine) : (d.setEng e x).chans = d.chans := rfl
@[simp] theorem setEng_hostAccs (e : Nat) (x : Engine) : (d.setEng e x).hostAccs = d.hostAccs := rfl
@[simp] theorem setEng_hifUses (e : Nat) (x : Engine) : (d.setEng e x).hifUses = d.hifUses := rfl
@[simp] theorem setEng_bar2Waits (e : Nat) (x : Engine) : (d.setEng e x).bar2Waits = d.bar2Waits := rfl
@[simp] theorem setEng_hostTurns (e : Nat) (x : Engine) : (d.setEng e x).hostTurns = d.hostTurns := rfl
@[simp] theorem setEng_hostLast (e : Nat) (x : Engine) : (d.setEng e x).hostLast = d.hostLast := rfl
@[simp] theorem setEng_evlog (e : Nat) (x : Engine) : (d.setEng e x).evlog = d.evlog := rfl
@[simp] theorem setEng_wipes (e : Nat) (x : Engine) : (d.setEng e x).wipes = d.wipes := rfl
@[simp] theorem setEng_fills (e : Nat) (x : Engine) : (d.setEng e x).fills = d.fills := rfl
@[simp] theorem setEng_unfilled (e : Nat) (x : Engine) : (d.setEng e x).unfilled = d.unfilled := rfl
@[simp] theorem setEng_roleImg (e : Nat) (x : Engine) : (d.setEng e x).roleImg = d.roleImg := rfl
@[simp] theorem setEng_svcTest (e : Nat) (x : Engine) : (d.setEng e x).svcTest = d.svcTest := rfl
@[simp] theorem setEng_svcPass (e : Nat) (x : Engine) : (d.setEng e x).svcPass = d.svcPass := rfl
@[simp] theorem setEng_roots (e : Nat) (x : Engine) : (d.setEng e x).roots = d.roots := rfl
@[simp] theorem setEng_sealKeys (e : Nat) (x : Engine) : (d.setEng e x).sealKeys = d.sealKeys := rfl
@[simp] theorem setEng_sealQ (e : Nat) (x : Engine) : (d.setEng e x).sealQ = d.sealQ := rfl
@[simp] theorem setEng_sealOut (e : Nat) (x : Engine) : (d.setEng e x).sealOut = d.sealOut := rfl
@[simp] theorem setEng_sealLast (e : Nat) (x : Engine) : (d.setEng e x).sealLast = d.sealLast := rfl
@[simp] theorem setEng_versions (e : Nat) (x : Engine) : (d.setEng e x).versions = d.versions := rfl
@[simp] theorem setEng_grants (e : Nat) (x : Engine) : (d.setEng e x).grants = d.grants := rfl
@[simp] theorem setEng_battery (e : Nat) (x : Engine) : (d.setEng e x).battery = d.battery := rfl
@[simp] theorem setEng_fuseKey (e : Nat) (x : Engine) : (d.setEng e x).fuseKey = d.fuseKey := rfl
@[simp] theorem setEng_fuseKeyOk (e : Nat) (x : Engine) : (d.setEng e x).fuseKeyOk = d.fuseKeyOk := rfl
@[simp] theorem setEng_load (e : Nat) (x : Engine) : (d.setEng e x).load = d.load := rfl
@[simp] theorem setEng_awaitHost (e : Nat) (x : Engine) : (d.setEng e x).awaitHost = d.awaitHost := rfl
@[simp] theorem setEng_bootTries (e : Nat) (x : Engine) : (d.setEng e x).bootTries = d.bootTries := rfl
@[simp] theorem setEng_cfgDone (e : Nat) (x : Engine) : (d.setEng e x).cfgDone = d.cfgDone := rfl
@[simp] theorem setEng_flashCmd (e : Nat) (x : Engine) : (d.setEng e x).flashCmd = d.flashCmd := rfl
@[simp] theorem setEng_wakeQueue (e : Nat) (x : Engine) : (d.setEng e x).wakeQueue = d.wakeQueue := rfl
@[simp] theorem setEng_jtag (e : Nat) (x : Engine) : (d.setEng e x).jtag = d.jtag := rfl
@[simp] theorem setEng_apTag (e : Nat) (x : Engine) : (d.setEng e x).apTag = d.apTag := rfl
@[simp] theorem setEng_stateWait (e : Nat) (x : Engine) : (d.setEng e x).stateWait = d.stateWait := rfl
@[simp] theorem setEng_wakeWait (e : Nat) (x : Engine) : (d.setEng e x).wakeWait = d.wakeWait := rfl
@[simp] theorem setEng_xtrgWait (e : Nat) (x : Engine) : (d.setEng e x).xtrgWait = d.xtrgWait := rfl

/-! #### updEng -/

@[simp] theorem updEng_dtime (e : Nat) (f : Engine → Engine) : (d.updEng e f).dtime = d.dtime := rfl
@[simp] theorem updEng_free (e : Nat) (f : Engine → Engine) : (d.updEng e f).free = d.free := rfl
@[simp] theorem updEng_out (e : Nat) (f : Engine → Engine) : (d.updEng e f).out = d.out := rfl
@[simp] theorem updEng_regs (e : Nat) (f : Engine → Engine) : (d.updEng e f).regs = d.regs := rfl
@[simp] theorem updEng_holdRd (e : Nat) (f : Engine → Engine) : (d.updEng e f).holdRd = d.holdRd := rfl
@[simp] theorem updEng_holdWr (e : Nat) (f : Engine → Engine) : (d.updEng e f).holdWr = d.holdWr := rfl
@[simp] theorem updEng_noc (e : Nat) (f : Engine → Engine) : (d.updEng e f).noc = d.noc := rfl
@[simp] theorem updEng_brams (e : Nat) (f : Engine → Engine) : (d.updEng e f).brams = d.brams := rfl
@[simp] theorem updEng_rows (e : Nat) (f : Engine → Engine) : (d.updEng e f).rows = d.rows := rfl
@[simp] theorem updEng_slices (e : Nat) (f : Engine → Engine) : (d.updEng e f).slices = d.slices := rfl
@[simp] theorem updEng_islands (e : Nat) (f : Engine → Engine) : (d.updEng e f).islands = d.islands := rfl
@[simp] theorem updEng_frames (e : Nat) (f : Engine → Engine) : (d.updEng e f).frames = d.frames := rfl
@[simp] theorem updEng_ffs (e : Nat) (f : Engine → Engine) : (d.updEng e f).ffs = d.ffs := rfl
@[simp] theorem updEng_ffUpset (e : Nat) (f : Engine → Engine) : (d.updEng e f).ffUpset = d.ffUpset := rfl
@[simp] theorem updEng_transients (e : Nat) (f : Engine → Engine) : (d.updEng e f).transients = d.transients := rfl
@[simp] theorem updEng_regions (e : Nat) (f : Engine → Engine) : (d.updEng e f).regions = d.regions := rfl
@[simp] theorem updEng_catches (e : Nat) (f : Engine → Engine) : (d.updEng e f).catches = d.catches := rfl
@[simp] theorem updEng_pinLevels (e : Nat) (f : Engine → Engine) : (d.updEng e f).pinLevels = d.pinLevels := rfl
@[simp] theorem updEng_pinOut (e : Nat) (f : Engine → Engine) : (d.updEng e f).pinOut = d.pinOut := rfl
@[simp] theorem updEng_pinEn (e : Nat) (f : Engine → Engine) : (d.updEng e f).pinEn = d.pinEn := rfl
@[simp] theorem updEng_lanes (e : Nat) (f : Engine → Engine) : (d.updEng e f).lanes = d.lanes := rfl
@[simp] theorem updEng_pllMult (e : Nat) (f : Engine → Engine) : (d.updEng e f).pllMult = d.pllMult := rfl
@[simp] theorem updEng_gcinTerm (e : Nat) (f : Engine → Engine) : (d.updEng e f).gcinTerm = d.gcinTerm := rfl
@[simp] theorem updEng_sigs (e : Nat) (f : Engine → Engine) : (d.updEng e f).sigs = d.sigs := rfl
@[simp] theorem updEng_grpLast (e : Nat) (f : Engine → Engine) : (d.updEng e f).grpLast = d.grpLast := rfl
@[simp] theorem updEng_isets (e : Nat) (f : Engine → Engine) : (d.updEng e f).isets = d.isets := rfl
@[simp] theorem updEng_thermTrip (e : Nat) (f : Engine → Engine) : (d.updEng e f).thermTrip = d.thermTrip := rfl
@[simp] theorem updEng_lostQuarters (e : Nat) (f : Engine → Engine) : (d.updEng e f).lostQuarters = d.lostQuarters := rfl
@[simp] theorem updEng_lost (e : Nat) (f : Engine → Engine) : (d.updEng e f).lost = d.lost := rfl
@[simp] theorem updEng_standbyEntering (e : Nat) (f : Engine → Engine) : (d.updEng e f).standbyEntering = d.standbyEntering := rfl
@[simp] theorem updEng_standbyEmulated (e : Nat) (f : Engine → Engine) : (d.updEng e f).standbyEmulated = d.standbyEmulated := rfl
@[simp] theorem updEng_standbyLinks (e : Nat) (f : Engine → Engine) : (d.updEng e f).standbyLinks = d.standbyLinks := rfl
@[simp] theorem updEng_gcEdges (e : Nat) (f : Engine → Engine) : (d.updEng e f).gcEdges = d.gcEdges := rfl
@[simp] theorem updEng_cfgCache (e : Nat) (f : Engine → Engine) : (d.updEng e f).cfgCache = d.cfgCache := rfl
@[simp] theorem updEng_finished (e : Nat) (f : Engine → Engine) : (d.updEng e f).finished = d.finished := rfl
@[simp] theorem updEng_catchIds (e : Nat) (f : Engine → Engine) : (d.updEng e f).catchIds = d.catchIds := rfl
@[simp] theorem updEng_drams (e : Nat) (f : Engine → Engine) : (d.updEng e f).drams = d.drams := rfl
@[simp] theorem updEng_isetNext (e : Nat) (f : Engine → Engine) : (d.updEng e f).isetNext = d.isetNext := rfl
@[simp] theorem updEng_links (e : Nat) (f : Engine → Engine) : (d.updEng e f).links = d.links := rfl
@[simp] theorem updEng_linkIds (e : Nat) (f : Engine → Engine) : (d.updEng e f).linkIds = d.linkIds := rfl
@[simp] theorem updEng_linkChans (e : Nat) (f : Engine → Engine) : (d.updEng e f).linkChans = d.linkChans := rfl
@[simp] theorem updEng_ppm (e : Nat) (f : Engine → Engine) : (d.updEng e f).ppm = d.ppm := rfl
@[simp] theorem updEng_tickFrac (e : Nat) (f : Engine → Engine) : (d.updEng e f).tickFrac = d.tickFrac := rfl
@[simp] theorem updEng_goodMeans (e : Nat) (f : Engine → Engine) : (d.updEng e f).goodMeans = d.goodMeans := rfl
@[simp] theorem updEng_crewCmds (e : Nat) (f : Engine → Engine) : (d.updEng e f).crewCmds = d.crewCmds := rfl
@[simp] theorem updEng_crewId (e : Nat) (f : Engine → Engine) : (d.updEng e f).crewId = d.crewId := rfl
@[simp] theorem updEng_epochWait (e : Nat) (f : Engine → Engine) : (d.updEng e f).epochWait = d.epochWait := rfl
@[simp] theorem updEng_tenants (e : Nat) (f : Engine → Engine) : (d.updEng e f).tenants = d.tenants := rfl
@[simp] theorem updEng_pmeEn (e : Nat) (f : Engine → Engine) : (d.updEng e f).pmeEn = d.pmeEn := rfl
@[simp] theorem updEng_vfEn (e : Nat) (f : Engine → Engine) : (d.updEng e f).vfEn = d.vfEn := rfl
@[simp] theorem updEng_vecs (e : Nat) (f : Engine → Engine) : (d.updEng e f).vecs = d.vecs := rfl
@[simp] theorem updEng_chans (e : Nat) (f : Engine → Engine) : (d.updEng e f).chans = d.chans := rfl
@[simp] theorem updEng_hostAccs (e : Nat) (f : Engine → Engine) : (d.updEng e f).hostAccs = d.hostAccs := rfl
@[simp] theorem updEng_hifUses (e : Nat) (f : Engine → Engine) : (d.updEng e f).hifUses = d.hifUses := rfl
@[simp] theorem updEng_bar2Waits (e : Nat) (f : Engine → Engine) : (d.updEng e f).bar2Waits = d.bar2Waits := rfl
@[simp] theorem updEng_hostTurns (e : Nat) (f : Engine → Engine) : (d.updEng e f).hostTurns = d.hostTurns := rfl
@[simp] theorem updEng_hostLast (e : Nat) (f : Engine → Engine) : (d.updEng e f).hostLast = d.hostLast := rfl
@[simp] theorem updEng_evlog (e : Nat) (f : Engine → Engine) : (d.updEng e f).evlog = d.evlog := rfl
@[simp] theorem updEng_wipes (e : Nat) (f : Engine → Engine) : (d.updEng e f).wipes = d.wipes := rfl
@[simp] theorem updEng_fills (e : Nat) (f : Engine → Engine) : (d.updEng e f).fills = d.fills := rfl
@[simp] theorem updEng_unfilled (e : Nat) (f : Engine → Engine) : (d.updEng e f).unfilled = d.unfilled := rfl
@[simp] theorem updEng_roleImg (e : Nat) (f : Engine → Engine) : (d.updEng e f).roleImg = d.roleImg := rfl
@[simp] theorem updEng_svcTest (e : Nat) (f : Engine → Engine) : (d.updEng e f).svcTest = d.svcTest := rfl
@[simp] theorem updEng_svcPass (e : Nat) (f : Engine → Engine) : (d.updEng e f).svcPass = d.svcPass := rfl
@[simp] theorem updEng_roots (e : Nat) (f : Engine → Engine) : (d.updEng e f).roots = d.roots := rfl
@[simp] theorem updEng_sealKeys (e : Nat) (f : Engine → Engine) : (d.updEng e f).sealKeys = d.sealKeys := rfl
@[simp] theorem updEng_sealQ (e : Nat) (f : Engine → Engine) : (d.updEng e f).sealQ = d.sealQ := rfl
@[simp] theorem updEng_sealOut (e : Nat) (f : Engine → Engine) : (d.updEng e f).sealOut = d.sealOut := rfl
@[simp] theorem updEng_sealLast (e : Nat) (f : Engine → Engine) : (d.updEng e f).sealLast = d.sealLast := rfl
@[simp] theorem updEng_versions (e : Nat) (f : Engine → Engine) : (d.updEng e f).versions = d.versions := rfl
@[simp] theorem updEng_grants (e : Nat) (f : Engine → Engine) : (d.updEng e f).grants = d.grants := rfl
@[simp] theorem updEng_battery (e : Nat) (f : Engine → Engine) : (d.updEng e f).battery = d.battery := rfl
@[simp] theorem updEng_fuseKey (e : Nat) (f : Engine → Engine) : (d.updEng e f).fuseKey = d.fuseKey := rfl
@[simp] theorem updEng_fuseKeyOk (e : Nat) (f : Engine → Engine) : (d.updEng e f).fuseKeyOk = d.fuseKeyOk := rfl
@[simp] theorem updEng_load (e : Nat) (f : Engine → Engine) : (d.updEng e f).load = d.load := rfl
@[simp] theorem updEng_awaitHost (e : Nat) (f : Engine → Engine) : (d.updEng e f).awaitHost = d.awaitHost := rfl
@[simp] theorem updEng_bootTries (e : Nat) (f : Engine → Engine) : (d.updEng e f).bootTries = d.bootTries := rfl
@[simp] theorem updEng_cfgDone (e : Nat) (f : Engine → Engine) : (d.updEng e f).cfgDone = d.cfgDone := rfl
@[simp] theorem updEng_flashCmd (e : Nat) (f : Engine → Engine) : (d.updEng e f).flashCmd = d.flashCmd := rfl
@[simp] theorem updEng_wakeQueue (e : Nat) (f : Engine → Engine) : (d.updEng e f).wakeQueue = d.wakeQueue := rfl
@[simp] theorem updEng_jtag (e : Nat) (f : Engine → Engine) : (d.updEng e f).jtag = d.jtag := rfl
@[simp] theorem updEng_apTag (e : Nat) (f : Engine → Engine) : (d.updEng e f).apTag = d.apTag := rfl
@[simp] theorem updEng_stateWait (e : Nat) (f : Engine → Engine) : (d.updEng e f).stateWait = d.stateWait := rfl
@[simp] theorem updEng_wakeWait (e : Nat) (f : Engine → Engine) : (d.updEng e f).wakeWait = d.wakeWait := rfl
@[simp] theorem updEng_xtrgWait (e : Nat) (f : Engine → Engine) : (d.updEng e f).xtrgWait = d.xtrgWait := rfl

/-! #### setLane -/

@[simp] theorem setLane_dtime (g : Nat) (x : Lane) : (d.setLane g x).dtime = d.dtime := rfl
@[simp] theorem setLane_free (g : Nat) (x : Lane) : (d.setLane g x).free = d.free := rfl
@[simp] theorem setLane_out (g : Nat) (x : Lane) : (d.setLane g x).out = d.out := rfl
@[simp] theorem setLane_regs (g : Nat) (x : Lane) : (d.setLane g x).regs = d.regs := rfl
@[simp] theorem setLane_holdRd (g : Nat) (x : Lane) : (d.setLane g x).holdRd = d.holdRd := rfl
@[simp] theorem setLane_holdWr (g : Nat) (x : Lane) : (d.setLane g x).holdWr = d.holdWr := rfl
@[simp] theorem setLane_noc (g : Nat) (x : Lane) : (d.setLane g x).noc = d.noc := rfl
@[simp] theorem setLane_brams (g : Nat) (x : Lane) : (d.setLane g x).brams = d.brams := rfl
@[simp] theorem setLane_rows (g : Nat) (x : Lane) : (d.setLane g x).rows = d.rows := rfl
@[simp] theorem setLane_slices (g : Nat) (x : Lane) : (d.setLane g x).slices = d.slices := rfl
@[simp] theorem setLane_islands (g : Nat) (x : Lane) : (d.setLane g x).islands = d.islands := rfl
@[simp] theorem setLane_frames (g : Nat) (x : Lane) : (d.setLane g x).frames = d.frames := rfl
@[simp] theorem setLane_ffs (g : Nat) (x : Lane) : (d.setLane g x).ffs = d.ffs := rfl
@[simp] theorem setLane_ffUpset (g : Nat) (x : Lane) : (d.setLane g x).ffUpset = d.ffUpset := rfl
@[simp] theorem setLane_transients (g : Nat) (x : Lane) : (d.setLane g x).transients = d.transients := rfl
@[simp] theorem setLane_regions (g : Nat) (x : Lane) : (d.setLane g x).regions = d.regions := rfl
@[simp] theorem setLane_catches (g : Nat) (x : Lane) : (d.setLane g x).catches = d.catches := rfl
@[simp] theorem setLane_pinLevels (g : Nat) (x : Lane) : (d.setLane g x).pinLevels = d.pinLevels := rfl
@[simp] theorem setLane_pinOut (g : Nat) (x : Lane) : (d.setLane g x).pinOut = d.pinOut := rfl
@[simp] theorem setLane_pinEn (g : Nat) (x : Lane) : (d.setLane g x).pinEn = d.pinEn := rfl
@[simp] theorem setLane_pllMult (g : Nat) (x : Lane) : (d.setLane g x).pllMult = d.pllMult := rfl
@[simp] theorem setLane_gcinTerm (g : Nat) (x : Lane) : (d.setLane g x).gcinTerm = d.gcinTerm := rfl
@[simp] theorem setLane_engines (g : Nat) (x : Lane) : (d.setLane g x).engines = d.engines := rfl
@[simp] theorem setLane_sigs (g : Nat) (x : Lane) : (d.setLane g x).sigs = d.sigs := rfl
@[simp] theorem setLane_grpLast (g : Nat) (x : Lane) : (d.setLane g x).grpLast = d.grpLast := rfl
@[simp] theorem setLane_isets (g : Nat) (x : Lane) : (d.setLane g x).isets = d.isets := rfl
@[simp] theorem setLane_thermTrip (g : Nat) (x : Lane) : (d.setLane g x).thermTrip = d.thermTrip := rfl
@[simp] theorem setLane_lostQuarters (g : Nat) (x : Lane) : (d.setLane g x).lostQuarters = d.lostQuarters := rfl
@[simp] theorem setLane_lost (g : Nat) (x : Lane) : (d.setLane g x).lost = d.lost := rfl
@[simp] theorem setLane_standbyEntering (g : Nat) (x : Lane) : (d.setLane g x).standbyEntering = d.standbyEntering := rfl
@[simp] theorem setLane_standbyEmulated (g : Nat) (x : Lane) : (d.setLane g x).standbyEmulated = d.standbyEmulated := rfl
@[simp] theorem setLane_standbyLinks (g : Nat) (x : Lane) : (d.setLane g x).standbyLinks = d.standbyLinks := rfl
@[simp] theorem setLane_gcEdges (g : Nat) (x : Lane) : (d.setLane g x).gcEdges = d.gcEdges := rfl
@[simp] theorem setLane_cfgCache (g : Nat) (x : Lane) : (d.setLane g x).cfgCache = d.cfgCache := rfl
@[simp] theorem setLane_finished (g : Nat) (x : Lane) : (d.setLane g x).finished = d.finished := rfl
@[simp] theorem setLane_catchIds (g : Nat) (x : Lane) : (d.setLane g x).catchIds = d.catchIds := rfl
@[simp] theorem setLane_drams (g : Nat) (x : Lane) : (d.setLane g x).drams = d.drams := rfl
@[simp] theorem setLane_isetNext (g : Nat) (x : Lane) : (d.setLane g x).isetNext = d.isetNext := rfl
@[simp] theorem setLane_links (g : Nat) (x : Lane) : (d.setLane g x).links = d.links := rfl
@[simp] theorem setLane_linkIds (g : Nat) (x : Lane) : (d.setLane g x).linkIds = d.linkIds := rfl
@[simp] theorem setLane_linkChans (g : Nat) (x : Lane) : (d.setLane g x).linkChans = d.linkChans := rfl
@[simp] theorem setLane_ppm (g : Nat) (x : Lane) : (d.setLane g x).ppm = d.ppm := rfl
@[simp] theorem setLane_tickFrac (g : Nat) (x : Lane) : (d.setLane g x).tickFrac = d.tickFrac := rfl
@[simp] theorem setLane_goodMeans (g : Nat) (x : Lane) : (d.setLane g x).goodMeans = d.goodMeans := rfl
@[simp] theorem setLane_crewCmds (g : Nat) (x : Lane) : (d.setLane g x).crewCmds = d.crewCmds := rfl
@[simp] theorem setLane_crewId (g : Nat) (x : Lane) : (d.setLane g x).crewId = d.crewId := rfl
@[simp] theorem setLane_epochWait (g : Nat) (x : Lane) : (d.setLane g x).epochWait = d.epochWait := rfl
@[simp] theorem setLane_tenants (g : Nat) (x : Lane) : (d.setLane g x).tenants = d.tenants := rfl
@[simp] theorem setLane_pmeEn (g : Nat) (x : Lane) : (d.setLane g x).pmeEn = d.pmeEn := rfl
@[simp] theorem setLane_vfEn (g : Nat) (x : Lane) : (d.setLane g x).vfEn = d.vfEn := rfl
@[simp] theorem setLane_vecs (g : Nat) (x : Lane) : (d.setLane g x).vecs = d.vecs := rfl
@[simp] theorem setLane_chans (g : Nat) (x : Lane) : (d.setLane g x).chans = d.chans := rfl
@[simp] theorem setLane_hostAccs (g : Nat) (x : Lane) : (d.setLane g x).hostAccs = d.hostAccs := rfl
@[simp] theorem setLane_hifUses (g : Nat) (x : Lane) : (d.setLane g x).hifUses = d.hifUses := rfl
@[simp] theorem setLane_bar2Waits (g : Nat) (x : Lane) : (d.setLane g x).bar2Waits = d.bar2Waits := rfl
@[simp] theorem setLane_hostTurns (g : Nat) (x : Lane) : (d.setLane g x).hostTurns = d.hostTurns := rfl
@[simp] theorem setLane_hostLast (g : Nat) (x : Lane) : (d.setLane g x).hostLast = d.hostLast := rfl
@[simp] theorem setLane_evlog (g : Nat) (x : Lane) : (d.setLane g x).evlog = d.evlog := rfl
@[simp] theorem setLane_wipes (g : Nat) (x : Lane) : (d.setLane g x).wipes = d.wipes := rfl
@[simp] theorem setLane_fills (g : Nat) (x : Lane) : (d.setLane g x).fills = d.fills := rfl
@[simp] theorem setLane_unfilled (g : Nat) (x : Lane) : (d.setLane g x).unfilled = d.unfilled := rfl
@[simp] theorem setLane_roleImg (g : Nat) (x : Lane) : (d.setLane g x).roleImg = d.roleImg := rfl
@[simp] theorem setLane_svcTest (g : Nat) (x : Lane) : (d.setLane g x).svcTest = d.svcTest := rfl
@[simp] theorem setLane_svcPass (g : Nat) (x : Lane) : (d.setLane g x).svcPass = d.svcPass := rfl
@[simp] theorem setLane_roots (g : Nat) (x : Lane) : (d.setLane g x).roots = d.roots := rfl
@[simp] theorem setLane_sealKeys (g : Nat) (x : Lane) : (d.setLane g x).sealKeys = d.sealKeys := rfl
@[simp] theorem setLane_sealQ (g : Nat) (x : Lane) : (d.setLane g x).sealQ = d.sealQ := rfl
@[simp] theorem setLane_sealOut (g : Nat) (x : Lane) : (d.setLane g x).sealOut = d.sealOut := rfl
@[simp] theorem setLane_sealLast (g : Nat) (x : Lane) : (d.setLane g x).sealLast = d.sealLast := rfl
@[simp] theorem setLane_versions (g : Nat) (x : Lane) : (d.setLane g x).versions = d.versions := rfl
@[simp] theorem setLane_grants (g : Nat) (x : Lane) : (d.setLane g x).grants = d.grants := rfl
@[simp] theorem setLane_battery (g : Nat) (x : Lane) : (d.setLane g x).battery = d.battery := rfl
@[simp] theorem setLane_fuseKey (g : Nat) (x : Lane) : (d.setLane g x).fuseKey = d.fuseKey := rfl
@[simp] theorem setLane_fuseKeyOk (g : Nat) (x : Lane) : (d.setLane g x).fuseKeyOk = d.fuseKeyOk := rfl
@[simp] theorem setLane_load (g : Nat) (x : Lane) : (d.setLane g x).load = d.load := rfl
@[simp] theorem setLane_awaitHost (g : Nat) (x : Lane) : (d.setLane g x).awaitHost = d.awaitHost := rfl
@[simp] theorem setLane_bootTries (g : Nat) (x : Lane) : (d.setLane g x).bootTries = d.bootTries := rfl
@[simp] theorem setLane_cfgDone (g : Nat) (x : Lane) : (d.setLane g x).cfgDone = d.cfgDone := rfl
@[simp] theorem setLane_flashCmd (g : Nat) (x : Lane) : (d.setLane g x).flashCmd = d.flashCmd := rfl
@[simp] theorem setLane_wakeQueue (g : Nat) (x : Lane) : (d.setLane g x).wakeQueue = d.wakeQueue := rfl
@[simp] theorem setLane_jtag (g : Nat) (x : Lane) : (d.setLane g x).jtag = d.jtag := rfl
@[simp] theorem setLane_apTag (g : Nat) (x : Lane) : (d.setLane g x).apTag = d.apTag := rfl
@[simp] theorem setLane_stateWait (g : Nat) (x : Lane) : (d.setLane g x).stateWait = d.stateWait := rfl
@[simp] theorem setLane_wakeWait (g : Nat) (x : Lane) : (d.setLane g x).wakeWait = d.wakeWait := rfl
@[simp] theorem setLane_xtrgWait (g : Nat) (x : Lane) : (d.setLane g x).xtrgWait = d.xtrgWait := rfl

/-! #### emit -/

@[simp] theorem emit_dtime (e : Emit) : (d.emit e).dtime = d.dtime := rfl
@[simp] theorem emit_free (e : Emit) : (d.emit e).free = d.free := rfl
@[simp] theorem emit_regs (e : Emit) : (d.emit e).regs = d.regs := rfl
@[simp] theorem emit_holdRd (e : Emit) : (d.emit e).holdRd = d.holdRd := rfl
@[simp] theorem emit_holdWr (e : Emit) : (d.emit e).holdWr = d.holdWr := rfl
@[simp] theorem emit_noc (e : Emit) : (d.emit e).noc = d.noc := rfl
@[simp] theorem emit_brams (e : Emit) : (d.emit e).brams = d.brams := rfl
@[simp] theorem emit_rows (e : Emit) : (d.emit e).rows = d.rows := rfl
@[simp] theorem emit_slices (e : Emit) : (d.emit e).slices = d.slices := rfl
@[simp] theorem emit_islands (e : Emit) : (d.emit e).islands = d.islands := rfl
@[simp] theorem emit_frames (e : Emit) : (d.emit e).frames = d.frames := rfl
@[simp] theorem emit_ffs (e : Emit) : (d.emit e).ffs = d.ffs := rfl
@[simp] theorem emit_ffUpset (e : Emit) : (d.emit e).ffUpset = d.ffUpset := rfl
@[simp] theorem emit_transients (e : Emit) : (d.emit e).transients = d.transients := rfl
@[simp] theorem emit_regions (e : Emit) : (d.emit e).regions = d.regions := rfl
@[simp] theorem emit_catches (e : Emit) : (d.emit e).catches = d.catches := rfl
@[simp] theorem emit_pinLevels (e : Emit) : (d.emit e).pinLevels = d.pinLevels := rfl
@[simp] theorem emit_pinOut (e : Emit) : (d.emit e).pinOut = d.pinOut := rfl
@[simp] theorem emit_pinEn (e : Emit) : (d.emit e).pinEn = d.pinEn := rfl
@[simp] theorem emit_lanes (e : Emit) : (d.emit e).lanes = d.lanes := rfl
@[simp] theorem emit_pllMult (e : Emit) : (d.emit e).pllMult = d.pllMult := rfl
@[simp] theorem emit_gcinTerm (e : Emit) : (d.emit e).gcinTerm = d.gcinTerm := rfl
@[simp] theorem emit_engines (e : Emit) : (d.emit e).engines = d.engines := rfl
@[simp] theorem emit_sigs (e : Emit) : (d.emit e).sigs = d.sigs := rfl
@[simp] theorem emit_grpLast (e : Emit) : (d.emit e).grpLast = d.grpLast := rfl
@[simp] theorem emit_isets (e : Emit) : (d.emit e).isets = d.isets := rfl
@[simp] theorem emit_thermTrip (e : Emit) : (d.emit e).thermTrip = d.thermTrip := rfl
@[simp] theorem emit_lostQuarters (e : Emit) : (d.emit e).lostQuarters = d.lostQuarters := rfl
@[simp] theorem emit_lost (e : Emit) : (d.emit e).lost = d.lost := rfl
@[simp] theorem emit_standbyEntering (e : Emit) : (d.emit e).standbyEntering = d.standbyEntering := rfl
@[simp] theorem emit_standbyEmulated (e : Emit) : (d.emit e).standbyEmulated = d.standbyEmulated := rfl
@[simp] theorem emit_standbyLinks (e : Emit) : (d.emit e).standbyLinks = d.standbyLinks := rfl
@[simp] theorem emit_gcEdges (e : Emit) : (d.emit e).gcEdges = d.gcEdges := rfl
@[simp] theorem emit_cfgCache (e : Emit) : (d.emit e).cfgCache = d.cfgCache := rfl
@[simp] theorem emit_finished (e : Emit) : (d.emit e).finished = d.finished := rfl
@[simp] theorem emit_catchIds (e : Emit) : (d.emit e).catchIds = d.catchIds := rfl
@[simp] theorem emit_drams (e : Emit) : (d.emit e).drams = d.drams := rfl
@[simp] theorem emit_isetNext (e : Emit) : (d.emit e).isetNext = d.isetNext := rfl
@[simp] theorem emit_links (e : Emit) : (d.emit e).links = d.links := rfl
@[simp] theorem emit_linkIds (e : Emit) : (d.emit e).linkIds = d.linkIds := rfl
@[simp] theorem emit_linkChans (e : Emit) : (d.emit e).linkChans = d.linkChans := rfl
@[simp] theorem emit_ppm (e : Emit) : (d.emit e).ppm = d.ppm := rfl
@[simp] theorem emit_tickFrac (e : Emit) : (d.emit e).tickFrac = d.tickFrac := rfl
@[simp] theorem emit_goodMeans (e : Emit) : (d.emit e).goodMeans = d.goodMeans := rfl
@[simp] theorem emit_crewCmds (e : Emit) : (d.emit e).crewCmds = d.crewCmds := rfl
@[simp] theorem emit_crewId (e : Emit) : (d.emit e).crewId = d.crewId := rfl
@[simp] theorem emit_epochWait (e : Emit) : (d.emit e).epochWait = d.epochWait := rfl
@[simp] theorem emit_tenants (e : Emit) : (d.emit e).tenants = d.tenants := rfl
@[simp] theorem emit_pmeEn (e : Emit) : (d.emit e).pmeEn = d.pmeEn := rfl
@[simp] theorem emit_vfEn (e : Emit) : (d.emit e).vfEn = d.vfEn := rfl
@[simp] theorem emit_vecs (e : Emit) : (d.emit e).vecs = d.vecs := rfl
@[simp] theorem emit_chans (e : Emit) : (d.emit e).chans = d.chans := rfl
@[simp] theorem emit_hostAccs (e : Emit) : (d.emit e).hostAccs = d.hostAccs := rfl
@[simp] theorem emit_hifUses (e : Emit) : (d.emit e).hifUses = d.hifUses := rfl
@[simp] theorem emit_bar2Waits (e : Emit) : (d.emit e).bar2Waits = d.bar2Waits := rfl
@[simp] theorem emit_hostTurns (e : Emit) : (d.emit e).hostTurns = d.hostTurns := rfl
@[simp] theorem emit_hostLast (e : Emit) : (d.emit e).hostLast = d.hostLast := rfl
@[simp] theorem emit_evlog (e : Emit) : (d.emit e).evlog = d.evlog := rfl
@[simp] theorem emit_wipes (e : Emit) : (d.emit e).wipes = d.wipes := rfl
@[simp] theorem emit_fills (e : Emit) : (d.emit e).fills = d.fills := rfl
@[simp] theorem emit_unfilled (e : Emit) : (d.emit e).unfilled = d.unfilled := rfl
@[simp] theorem emit_roleImg (e : Emit) : (d.emit e).roleImg = d.roleImg := rfl
@[simp] theorem emit_svcTest (e : Emit) : (d.emit e).svcTest = d.svcTest := rfl
@[simp] theorem emit_svcPass (e : Emit) : (d.emit e).svcPass = d.svcPass := rfl
@[simp] theorem emit_roots (e : Emit) : (d.emit e).roots = d.roots := rfl
@[simp] theorem emit_sealKeys (e : Emit) : (d.emit e).sealKeys = d.sealKeys := rfl
@[simp] theorem emit_sealQ (e : Emit) : (d.emit e).sealQ = d.sealQ := rfl
@[simp] theorem emit_sealOut (e : Emit) : (d.emit e).sealOut = d.sealOut := rfl
@[simp] theorem emit_sealLast (e : Emit) : (d.emit e).sealLast = d.sealLast := rfl
@[simp] theorem emit_versions (e : Emit) : (d.emit e).versions = d.versions := rfl
@[simp] theorem emit_grants (e : Emit) : (d.emit e).grants = d.grants := rfl
@[simp] theorem emit_battery (e : Emit) : (d.emit e).battery = d.battery := rfl
@[simp] theorem emit_fuseKey (e : Emit) : (d.emit e).fuseKey = d.fuseKey := rfl
@[simp] theorem emit_fuseKeyOk (e : Emit) : (d.emit e).fuseKeyOk = d.fuseKeyOk := rfl
@[simp] theorem emit_load (e : Emit) : (d.emit e).load = d.load := rfl
@[simp] theorem emit_awaitHost (e : Emit) : (d.emit e).awaitHost = d.awaitHost := rfl
@[simp] theorem emit_bootTries (e : Emit) : (d.emit e).bootTries = d.bootTries := rfl
@[simp] theorem emit_cfgDone (e : Emit) : (d.emit e).cfgDone = d.cfgDone := rfl
@[simp] theorem emit_flashCmd (e : Emit) : (d.emit e).flashCmd = d.flashCmd := rfl
@[simp] theorem emit_wakeQueue (e : Emit) : (d.emit e).wakeQueue = d.wakeQueue := rfl
@[simp] theorem emit_jtag (e : Emit) : (d.emit e).jtag = d.jtag := rfl
@[simp] theorem emit_apTag (e : Emit) : (d.emit e).apTag = d.apTag := rfl
@[simp] theorem emit_stateWait (e : Emit) : (d.emit e).stateWait = d.stateWait := rfl
@[simp] theorem emit_wakeWait (e : Emit) : (d.emit e).wakeWait = d.wakeWait := rfl
@[simp] theorem emit_xtrgWait (e : Emit) : (d.emit e).xtrgWait = d.xtrgWait := rfl

/-! #### inject -/

@[simp] theorem inject_dtime (n u : Nat) (p : Pkt) : (d.inject n u p).dtime = d.dtime := rfl
@[simp] theorem inject_free (n u : Nat) (p : Pkt) : (d.inject n u p).free = d.free := rfl
@[simp] theorem inject_out (n u : Nat) (p : Pkt) : (d.inject n u p).out = d.out := rfl
@[simp] theorem inject_regs (n u : Nat) (p : Pkt) : (d.inject n u p).regs = d.regs := rfl
@[simp] theorem inject_holdRd (n u : Nat) (p : Pkt) : (d.inject n u p).holdRd = d.holdRd := rfl
@[simp] theorem inject_holdWr (n u : Nat) (p : Pkt) : (d.inject n u p).holdWr = d.holdWr := rfl
@[simp] theorem inject_brams (n u : Nat) (p : Pkt) : (d.inject n u p).brams = d.brams := rfl
@[simp] theorem inject_rows (n u : Nat) (p : Pkt) : (d.inject n u p).rows = d.rows := rfl
@[simp] theorem inject_slices (n u : Nat) (p : Pkt) : (d.inject n u p).slices = d.slices := rfl
@[simp] theorem inject_islands (n u : Nat) (p : Pkt) : (d.inject n u p).islands = d.islands := rfl
@[simp] theorem inject_frames (n u : Nat) (p : Pkt) : (d.inject n u p).frames = d.frames := rfl
@[simp] theorem inject_ffs (n u : Nat) (p : Pkt) : (d.inject n u p).ffs = d.ffs := rfl
@[simp] theorem inject_ffUpset (n u : Nat) (p : Pkt) : (d.inject n u p).ffUpset = d.ffUpset := rfl
@[simp] theorem inject_transients (n u : Nat) (p : Pkt) : (d.inject n u p).transients = d.transients := rfl
@[simp] theorem inject_regions (n u : Nat) (p : Pkt) : (d.inject n u p).regions = d.regions := rfl
@[simp] theorem inject_catches (n u : Nat) (p : Pkt) : (d.inject n u p).catches = d.catches := rfl
@[simp] theorem inject_pinLevels (n u : Nat) (p : Pkt) : (d.inject n u p).pinLevels = d.pinLevels := rfl
@[simp] theorem inject_pinOut (n u : Nat) (p : Pkt) : (d.inject n u p).pinOut = d.pinOut := rfl
@[simp] theorem inject_pinEn (n u : Nat) (p : Pkt) : (d.inject n u p).pinEn = d.pinEn := rfl
@[simp] theorem inject_lanes (n u : Nat) (p : Pkt) : (d.inject n u p).lanes = d.lanes := rfl
@[simp] theorem inject_pllMult (n u : Nat) (p : Pkt) : (d.inject n u p).pllMult = d.pllMult := rfl
@[simp] theorem inject_gcinTerm (n u : Nat) (p : Pkt) : (d.inject n u p).gcinTerm = d.gcinTerm := rfl
@[simp] theorem inject_engines (n u : Nat) (p : Pkt) : (d.inject n u p).engines = d.engines := rfl
@[simp] theorem inject_sigs (n u : Nat) (p : Pkt) : (d.inject n u p).sigs = d.sigs := rfl
@[simp] theorem inject_grpLast (n u : Nat) (p : Pkt) : (d.inject n u p).grpLast = d.grpLast := rfl
@[simp] theorem inject_isets (n u : Nat) (p : Pkt) : (d.inject n u p).isets = d.isets := rfl
@[simp] theorem inject_thermTrip (n u : Nat) (p : Pkt) : (d.inject n u p).thermTrip = d.thermTrip := rfl
@[simp] theorem inject_lostQuarters (n u : Nat) (p : Pkt) : (d.inject n u p).lostQuarters = d.lostQuarters := rfl
@[simp] theorem inject_lost (n u : Nat) (p : Pkt) : (d.inject n u p).lost = d.lost := rfl
@[simp] theorem inject_standbyEntering (n u : Nat) (p : Pkt) : (d.inject n u p).standbyEntering = d.standbyEntering := rfl
@[simp] theorem inject_standbyEmulated (n u : Nat) (p : Pkt) : (d.inject n u p).standbyEmulated = d.standbyEmulated := rfl
@[simp] theorem inject_standbyLinks (n u : Nat) (p : Pkt) : (d.inject n u p).standbyLinks = d.standbyLinks := rfl
@[simp] theorem inject_gcEdges (n u : Nat) (p : Pkt) : (d.inject n u p).gcEdges = d.gcEdges := rfl
@[simp] theorem inject_cfgCache (n u : Nat) (p : Pkt) : (d.inject n u p).cfgCache = d.cfgCache := rfl
@[simp] theorem inject_finished (n u : Nat) (p : Pkt) : (d.inject n u p).finished = d.finished := rfl
@[simp] theorem inject_catchIds (n u : Nat) (p : Pkt) : (d.inject n u p).catchIds = d.catchIds := rfl
@[simp] theorem inject_drams (n u : Nat) (p : Pkt) : (d.inject n u p).drams = d.drams := rfl
@[simp] theorem inject_isetNext (n u : Nat) (p : Pkt) : (d.inject n u p).isetNext = d.isetNext := rfl
@[simp] theorem inject_links (n u : Nat) (p : Pkt) : (d.inject n u p).links = d.links := rfl
@[simp] theorem inject_linkIds (n u : Nat) (p : Pkt) : (d.inject n u p).linkIds = d.linkIds := rfl
@[simp] theorem inject_linkChans (n u : Nat) (p : Pkt) : (d.inject n u p).linkChans = d.linkChans := rfl
@[simp] theorem inject_ppm (n u : Nat) (p : Pkt) : (d.inject n u p).ppm = d.ppm := rfl
@[simp] theorem inject_tickFrac (n u : Nat) (p : Pkt) : (d.inject n u p).tickFrac = d.tickFrac := rfl
@[simp] theorem inject_goodMeans (n u : Nat) (p : Pkt) : (d.inject n u p).goodMeans = d.goodMeans := rfl
@[simp] theorem inject_crewCmds (n u : Nat) (p : Pkt) : (d.inject n u p).crewCmds = d.crewCmds := rfl
@[simp] theorem inject_crewId (n u : Nat) (p : Pkt) : (d.inject n u p).crewId = d.crewId := rfl
@[simp] theorem inject_epochWait (n u : Nat) (p : Pkt) : (d.inject n u p).epochWait = d.epochWait := rfl
@[simp] theorem inject_tenants (n u : Nat) (p : Pkt) : (d.inject n u p).tenants = d.tenants := rfl
@[simp] theorem inject_pmeEn (n u : Nat) (p : Pkt) : (d.inject n u p).pmeEn = d.pmeEn := rfl
@[simp] theorem inject_vfEn (n u : Nat) (p : Pkt) : (d.inject n u p).vfEn = d.vfEn := rfl
@[simp] theorem inject_vecs (n u : Nat) (p : Pkt) : (d.inject n u p).vecs = d.vecs := rfl
@[simp] theorem inject_chans (n u : Nat) (p : Pkt) : (d.inject n u p).chans = d.chans := rfl
@[simp] theorem inject_hostAccs (n u : Nat) (p : Pkt) : (d.inject n u p).hostAccs = d.hostAccs := rfl
@[simp] theorem inject_hifUses (n u : Nat) (p : Pkt) : (d.inject n u p).hifUses = d.hifUses := rfl
@[simp] theorem inject_bar2Waits (n u : Nat) (p : Pkt) : (d.inject n u p).bar2Waits = d.bar2Waits := rfl
@[simp] theorem inject_hostTurns (n u : Nat) (p : Pkt) : (d.inject n u p).hostTurns = d.hostTurns := rfl
@[simp] theorem inject_hostLast (n u : Nat) (p : Pkt) : (d.inject n u p).hostLast = d.hostLast := rfl
@[simp] theorem inject_evlog (n u : Nat) (p : Pkt) : (d.inject n u p).evlog = d.evlog := rfl
@[simp] theorem inject_wipes (n u : Nat) (p : Pkt) : (d.inject n u p).wipes = d.wipes := rfl
@[simp] theorem inject_fills (n u : Nat) (p : Pkt) : (d.inject n u p).fills = d.fills := rfl
@[simp] theorem inject_unfilled (n u : Nat) (p : Pkt) : (d.inject n u p).unfilled = d.unfilled := rfl
@[simp] theorem inject_roleImg (n u : Nat) (p : Pkt) : (d.inject n u p).roleImg = d.roleImg := rfl
@[simp] theorem inject_svcTest (n u : Nat) (p : Pkt) : (d.inject n u p).svcTest = d.svcTest := rfl
@[simp] theorem inject_svcPass (n u : Nat) (p : Pkt) : (d.inject n u p).svcPass = d.svcPass := rfl
@[simp] theorem inject_roots (n u : Nat) (p : Pkt) : (d.inject n u p).roots = d.roots := rfl
@[simp] theorem inject_sealKeys (n u : Nat) (p : Pkt) : (d.inject n u p).sealKeys = d.sealKeys := rfl
@[simp] theorem inject_sealQ (n u : Nat) (p : Pkt) : (d.inject n u p).sealQ = d.sealQ := rfl
@[simp] theorem inject_sealOut (n u : Nat) (p : Pkt) : (d.inject n u p).sealOut = d.sealOut := rfl
@[simp] theorem inject_sealLast (n u : Nat) (p : Pkt) : (d.inject n u p).sealLast = d.sealLast := rfl
@[simp] theorem inject_versions (n u : Nat) (p : Pkt) : (d.inject n u p).versions = d.versions := rfl
@[simp] theorem inject_grants (n u : Nat) (p : Pkt) : (d.inject n u p).grants = d.grants := rfl
@[simp] theorem inject_battery (n u : Nat) (p : Pkt) : (d.inject n u p).battery = d.battery := rfl
@[simp] theorem inject_fuseKey (n u : Nat) (p : Pkt) : (d.inject n u p).fuseKey = d.fuseKey := rfl
@[simp] theorem inject_fuseKeyOk (n u : Nat) (p : Pkt) : (d.inject n u p).fuseKeyOk = d.fuseKeyOk := rfl
@[simp] theorem inject_load (n u : Nat) (p : Pkt) : (d.inject n u p).load = d.load := rfl
@[simp] theorem inject_awaitHost (n u : Nat) (p : Pkt) : (d.inject n u p).awaitHost = d.awaitHost := rfl
@[simp] theorem inject_bootTries (n u : Nat) (p : Pkt) : (d.inject n u p).bootTries = d.bootTries := rfl
@[simp] theorem inject_cfgDone (n u : Nat) (p : Pkt) : (d.inject n u p).cfgDone = d.cfgDone := rfl
@[simp] theorem inject_flashCmd (n u : Nat) (p : Pkt) : (d.inject n u p).flashCmd = d.flashCmd := rfl
@[simp] theorem inject_wakeQueue (n u : Nat) (p : Pkt) : (d.inject n u p).wakeQueue = d.wakeQueue := rfl
@[simp] theorem inject_jtag (n u : Nat) (p : Pkt) : (d.inject n u p).jtag = d.jtag := rfl
@[simp] theorem inject_apTag (n u : Nat) (p : Pkt) : (d.inject n u p).apTag = d.apTag := rfl
@[simp] theorem inject_stateWait (n u : Nat) (p : Pkt) : (d.inject n u p).stateWait = d.stateWait := rfl
@[simp] theorem inject_wakeWait (n u : Nat) (p : Pkt) : (d.inject n u p).wakeWait = d.wakeWait := rfl
@[simp] theorem inject_xtrgWait (n u : Nat) (p : Pkt) : (d.inject n u p).xtrgWait = d.xtrgWait := rfl

/-! #### eventP -/

@[simp] theorem eventP_dtime (n s c r b t : Nat) (p0 p1 p2 p3 : Word) : (d.eventP n s c r b t p0 p1 p2 p3).dtime = d.dtime := rfl
@[simp] theorem eventP_free (n s c r b t : Nat) (p0 p1 p2 p3 : Word) : (d.eventP n s c r b t p0 p1 p2 p3).free = d.free := rfl
@[simp] theorem eventP_regs (n s c r b t : Nat) (p0 p1 p2 p3 : Word) : (d.eventP n s c r b t p0 p1 p2 p3).regs = d.regs := rfl
@[simp] theorem eventP_holdRd (n s c r b t : Nat) (p0 p1 p2 p3 : Word) : (d.eventP n s c r b t p0 p1 p2 p3).holdRd = d.holdRd := rfl
@[simp] theorem eventP_holdWr (n s c r b t : Nat) (p0 p1 p2 p3 : Word) : (d.eventP n s c r b t p0 p1 p2 p3).holdWr = d.holdWr := rfl
@[simp] theorem eventP_noc (n s c r b t : Nat) (p0 p1 p2 p3 : Word) : (d.eventP n s c r b t p0 p1 p2 p3).noc = d.noc := rfl
@[simp] theorem eventP_brams (n s c r b t : Nat) (p0 p1 p2 p3 : Word) : (d.eventP n s c r b t p0 p1 p2 p3).brams = d.brams := rfl
@[simp] theorem eventP_rows (n s c r b t : Nat) (p0 p1 p2 p3 : Word) : (d.eventP n s c r b t p0 p1 p2 p3).rows = d.rows := rfl
@[simp] theorem eventP_slices (n s c r b t : Nat) (p0 p1 p2 p3 : Word) : (d.eventP n s c r b t p0 p1 p2 p3).slices = d.slices := rfl
@[simp] theorem eventP_islands (n s c r b t : Nat) (p0 p1 p2 p3 : Word) : (d.eventP n s c r b t p0 p1 p2 p3).islands = d.islands := rfl
@[simp] theorem eventP_frames (n s c r b t : Nat) (p0 p1 p2 p3 : Word) : (d.eventP n s c r b t p0 p1 p2 p3).frames = d.frames := rfl
@[simp] theorem eventP_ffs (n s c r b t : Nat) (p0 p1 p2 p3 : Word) : (d.eventP n s c r b t p0 p1 p2 p3).ffs = d.ffs := rfl
@[simp] theorem eventP_ffUpset (n s c r b t : Nat) (p0 p1 p2 p3 : Word) : (d.eventP n s c r b t p0 p1 p2 p3).ffUpset = d.ffUpset := rfl
@[simp] theorem eventP_transients (n s c r b t : Nat) (p0 p1 p2 p3 : Word) : (d.eventP n s c r b t p0 p1 p2 p3).transients = d.transients := rfl
@[simp] theorem eventP_regions (n s c r b t : Nat) (p0 p1 p2 p3 : Word) : (d.eventP n s c r b t p0 p1 p2 p3).regions = d.regions := rfl
@[simp] theorem eventP_catches (n s c r b t : Nat) (p0 p1 p2 p3 : Word) : (d.eventP n s c r b t p0 p1 p2 p3).catches = d.catches := rfl
@[simp] theorem eventP_pinLevels (n s c r b t : Nat) (p0 p1 p2 p3 : Word) : (d.eventP n s c r b t p0 p1 p2 p3).pinLevels = d.pinLevels := rfl
@[simp] theorem eventP_pinOut (n s c r b t : Nat) (p0 p1 p2 p3 : Word) : (d.eventP n s c r b t p0 p1 p2 p3).pinOut = d.pinOut := rfl
@[simp] theorem eventP_pinEn (n s c r b t : Nat) (p0 p1 p2 p3 : Word) : (d.eventP n s c r b t p0 p1 p2 p3).pinEn = d.pinEn := rfl
@[simp] theorem eventP_lanes (n s c r b t : Nat) (p0 p1 p2 p3 : Word) : (d.eventP n s c r b t p0 p1 p2 p3).lanes = d.lanes := rfl
@[simp] theorem eventP_pllMult (n s c r b t : Nat) (p0 p1 p2 p3 : Word) : (d.eventP n s c r b t p0 p1 p2 p3).pllMult = d.pllMult := rfl
@[simp] theorem eventP_gcinTerm (n s c r b t : Nat) (p0 p1 p2 p3 : Word) : (d.eventP n s c r b t p0 p1 p2 p3).gcinTerm = d.gcinTerm := rfl
@[simp] theorem eventP_engines (n s c r b t : Nat) (p0 p1 p2 p3 : Word) : (d.eventP n s c r b t p0 p1 p2 p3).engines = d.engines := rfl
@[simp] theorem eventP_sigs (n s c r b t : Nat) (p0 p1 p2 p3 : Word) : (d.eventP n s c r b t p0 p1 p2 p3).sigs = d.sigs := rfl
@[simp] theorem eventP_grpLast (n s c r b t : Nat) (p0 p1 p2 p3 : Word) : (d.eventP n s c r b t p0 p1 p2 p3).grpLast = d.grpLast := rfl
@[simp] theorem eventP_isets (n s c r b t : Nat) (p0 p1 p2 p3 : Word) : (d.eventP n s c r b t p0 p1 p2 p3).isets = d.isets := rfl
@[simp] theorem eventP_thermTrip (n s c r b t : Nat) (p0 p1 p2 p3 : Word) : (d.eventP n s c r b t p0 p1 p2 p3).thermTrip = d.thermTrip := rfl
@[simp] theorem eventP_lostQuarters (n s c r b t : Nat) (p0 p1 p2 p3 : Word) : (d.eventP n s c r b t p0 p1 p2 p3).lostQuarters = d.lostQuarters := rfl
@[simp] theorem eventP_lost (n s c r b t : Nat) (p0 p1 p2 p3 : Word) : (d.eventP n s c r b t p0 p1 p2 p3).lost = d.lost := rfl
@[simp] theorem eventP_standbyEntering (n s c r b t : Nat) (p0 p1 p2 p3 : Word) : (d.eventP n s c r b t p0 p1 p2 p3).standbyEntering = d.standbyEntering := rfl
@[simp] theorem eventP_standbyEmulated (n s c r b t : Nat) (p0 p1 p2 p3 : Word) : (d.eventP n s c r b t p0 p1 p2 p3).standbyEmulated = d.standbyEmulated := rfl
@[simp] theorem eventP_standbyLinks (n s c r b t : Nat) (p0 p1 p2 p3 : Word) : (d.eventP n s c r b t p0 p1 p2 p3).standbyLinks = d.standbyLinks := rfl
@[simp] theorem eventP_gcEdges (n s c r b t : Nat) (p0 p1 p2 p3 : Word) : (d.eventP n s c r b t p0 p1 p2 p3).gcEdges = d.gcEdges := rfl
@[simp] theorem eventP_cfgCache (n s c r b t : Nat) (p0 p1 p2 p3 : Word) : (d.eventP n s c r b t p0 p1 p2 p3).cfgCache = d.cfgCache := rfl
@[simp] theorem eventP_finished (n s c r b t : Nat) (p0 p1 p2 p3 : Word) : (d.eventP n s c r b t p0 p1 p2 p3).finished = d.finished := rfl
@[simp] theorem eventP_catchIds (n s c r b t : Nat) (p0 p1 p2 p3 : Word) : (d.eventP n s c r b t p0 p1 p2 p3).catchIds = d.catchIds := rfl
@[simp] theorem eventP_drams (n s c r b t : Nat) (p0 p1 p2 p3 : Word) : (d.eventP n s c r b t p0 p1 p2 p3).drams = d.drams := rfl
@[simp] theorem eventP_isetNext (n s c r b t : Nat) (p0 p1 p2 p3 : Word) : (d.eventP n s c r b t p0 p1 p2 p3).isetNext = d.isetNext := rfl
@[simp] theorem eventP_links (n s c r b t : Nat) (p0 p1 p2 p3 : Word) : (d.eventP n s c r b t p0 p1 p2 p3).links = d.links := rfl
@[simp] theorem eventP_linkIds (n s c r b t : Nat) (p0 p1 p2 p3 : Word) : (d.eventP n s c r b t p0 p1 p2 p3).linkIds = d.linkIds := rfl
@[simp] theorem eventP_linkChans (n s c r b t : Nat) (p0 p1 p2 p3 : Word) : (d.eventP n s c r b t p0 p1 p2 p3).linkChans = d.linkChans := rfl
@[simp] theorem eventP_ppm (n s c r b t : Nat) (p0 p1 p2 p3 : Word) : (d.eventP n s c r b t p0 p1 p2 p3).ppm = d.ppm := rfl
@[simp] theorem eventP_tickFrac (n s c r b t : Nat) (p0 p1 p2 p3 : Word) : (d.eventP n s c r b t p0 p1 p2 p3).tickFrac = d.tickFrac := rfl
@[simp] theorem eventP_goodMeans (n s c r b t : Nat) (p0 p1 p2 p3 : Word) : (d.eventP n s c r b t p0 p1 p2 p3).goodMeans = d.goodMeans := rfl
@[simp] theorem eventP_crewCmds (n s c r b t : Nat) (p0 p1 p2 p3 : Word) : (d.eventP n s c r b t p0 p1 p2 p3).crewCmds = d.crewCmds := rfl
@[simp] theorem eventP_crewId (n s c r b t : Nat) (p0 p1 p2 p3 : Word) : (d.eventP n s c r b t p0 p1 p2 p3).crewId = d.crewId := rfl
@[simp] theorem eventP_epochWait (n s c r b t : Nat) (p0 p1 p2 p3 : Word) : (d.eventP n s c r b t p0 p1 p2 p3).epochWait = d.epochWait := rfl
@[simp] theorem eventP_tenants (n s c r b t : Nat) (p0 p1 p2 p3 : Word) : (d.eventP n s c r b t p0 p1 p2 p3).tenants = d.tenants := rfl
@[simp] theorem eventP_pmeEn (n s c r b t : Nat) (p0 p1 p2 p3 : Word) : (d.eventP n s c r b t p0 p1 p2 p3).pmeEn = d.pmeEn := rfl
@[simp] theorem eventP_vfEn (n s c r b t : Nat) (p0 p1 p2 p3 : Word) : (d.eventP n s c r b t p0 p1 p2 p3).vfEn = d.vfEn := rfl
@[simp] theorem eventP_vecs (n s c r b t : Nat) (p0 p1 p2 p3 : Word) : (d.eventP n s c r b t p0 p1 p2 p3).vecs = d.vecs := rfl
@[simp] theorem eventP_chans (n s c r b t : Nat) (p0 p1 p2 p3 : Word) : (d.eventP n s c r b t p0 p1 p2 p3).chans = d.chans := rfl
@[simp] theorem eventP_hostAccs (n s c r b t : Nat) (p0 p1 p2 p3 : Word) : (d.eventP n s c r b t p0 p1 p2 p3).hostAccs = d.hostAccs := rfl
@[simp] theorem eventP_hifUses (n s c r b t : Nat) (p0 p1 p2 p3 : Word) : (d.eventP n s c r b t p0 p1 p2 p3).hifUses = d.hifUses := rfl
@[simp] theorem eventP_bar2Waits (n s c r b t : Nat) (p0 p1 p2 p3 : Word) : (d.eventP n s c r b t p0 p1 p2 p3).bar2Waits = d.bar2Waits := rfl
@[simp] theorem eventP_hostTurns (n s c r b t : Nat) (p0 p1 p2 p3 : Word) : (d.eventP n s c r b t p0 p1 p2 p3).hostTurns = d.hostTurns := rfl
@[simp] theorem eventP_hostLast (n s c r b t : Nat) (p0 p1 p2 p3 : Word) : (d.eventP n s c r b t p0 p1 p2 p3).hostLast = d.hostLast := rfl
@[simp] theorem eventP_evlog (n s c r b t : Nat) (p0 p1 p2 p3 : Word) : (d.eventP n s c r b t p0 p1 p2 p3).evlog = d.evlog := rfl
@[simp] theorem eventP_wipes (n s c r b t : Nat) (p0 p1 p2 p3 : Word) : (d.eventP n s c r b t p0 p1 p2 p3).wipes = d.wipes := rfl
@[simp] theorem eventP_fills (n s c r b t : Nat) (p0 p1 p2 p3 : Word) : (d.eventP n s c r b t p0 p1 p2 p3).fills = d.fills := rfl
@[simp] theorem eventP_unfilled (n s c r b t : Nat) (p0 p1 p2 p3 : Word) : (d.eventP n s c r b t p0 p1 p2 p3).unfilled = d.unfilled := rfl
@[simp] theorem eventP_roleImg (n s c r b t : Nat) (p0 p1 p2 p3 : Word) : (d.eventP n s c r b t p0 p1 p2 p3).roleImg = d.roleImg := rfl
@[simp] theorem eventP_svcTest (n s c r b t : Nat) (p0 p1 p2 p3 : Word) : (d.eventP n s c r b t p0 p1 p2 p3).svcTest = d.svcTest := rfl
@[simp] theorem eventP_svcPass (n s c r b t : Nat) (p0 p1 p2 p3 : Word) : (d.eventP n s c r b t p0 p1 p2 p3).svcPass = d.svcPass := rfl
@[simp] theorem eventP_roots (n s c r b t : Nat) (p0 p1 p2 p3 : Word) : (d.eventP n s c r b t p0 p1 p2 p3).roots = d.roots := rfl
@[simp] theorem eventP_sealKeys (n s c r b t : Nat) (p0 p1 p2 p3 : Word) : (d.eventP n s c r b t p0 p1 p2 p3).sealKeys = d.sealKeys := rfl
@[simp] theorem eventP_sealQ (n s c r b t : Nat) (p0 p1 p2 p3 : Word) : (d.eventP n s c r b t p0 p1 p2 p3).sealQ = d.sealQ := rfl
@[simp] theorem eventP_sealOut (n s c r b t : Nat) (p0 p1 p2 p3 : Word) : (d.eventP n s c r b t p0 p1 p2 p3).sealOut = d.sealOut := rfl
@[simp] theorem eventP_sealLast (n s c r b t : Nat) (p0 p1 p2 p3 : Word) : (d.eventP n s c r b t p0 p1 p2 p3).sealLast = d.sealLast := rfl
@[simp] theorem eventP_versions (n s c r b t : Nat) (p0 p1 p2 p3 : Word) : (d.eventP n s c r b t p0 p1 p2 p3).versions = d.versions := rfl
@[simp] theorem eventP_grants (n s c r b t : Nat) (p0 p1 p2 p3 : Word) : (d.eventP n s c r b t p0 p1 p2 p3).grants = d.grants := rfl
@[simp] theorem eventP_battery (n s c r b t : Nat) (p0 p1 p2 p3 : Word) : (d.eventP n s c r b t p0 p1 p2 p3).battery = d.battery := rfl
@[simp] theorem eventP_fuseKey (n s c r b t : Nat) (p0 p1 p2 p3 : Word) : (d.eventP n s c r b t p0 p1 p2 p3).fuseKey = d.fuseKey := rfl
@[simp] theorem eventP_fuseKeyOk (n s c r b t : Nat) (p0 p1 p2 p3 : Word) : (d.eventP n s c r b t p0 p1 p2 p3).fuseKeyOk = d.fuseKeyOk := rfl
@[simp] theorem eventP_load (n s c r b t : Nat) (p0 p1 p2 p3 : Word) : (d.eventP n s c r b t p0 p1 p2 p3).load = d.load := rfl
@[simp] theorem eventP_awaitHost (n s c r b t : Nat) (p0 p1 p2 p3 : Word) : (d.eventP n s c r b t p0 p1 p2 p3).awaitHost = d.awaitHost := rfl
@[simp] theorem eventP_bootTries (n s c r b t : Nat) (p0 p1 p2 p3 : Word) : (d.eventP n s c r b t p0 p1 p2 p3).bootTries = d.bootTries := rfl
@[simp] theorem eventP_cfgDone (n s c r b t : Nat) (p0 p1 p2 p3 : Word) : (d.eventP n s c r b t p0 p1 p2 p3).cfgDone = d.cfgDone := rfl
@[simp] theorem eventP_flashCmd (n s c r b t : Nat) (p0 p1 p2 p3 : Word) : (d.eventP n s c r b t p0 p1 p2 p3).flashCmd = d.flashCmd := rfl
@[simp] theorem eventP_wakeQueue (n s c r b t : Nat) (p0 p1 p2 p3 : Word) : (d.eventP n s c r b t p0 p1 p2 p3).wakeQueue = d.wakeQueue := rfl
@[simp] theorem eventP_jtag (n s c r b t : Nat) (p0 p1 p2 p3 : Word) : (d.eventP n s c r b t p0 p1 p2 p3).jtag = d.jtag := rfl
@[simp] theorem eventP_apTag (n s c r b t : Nat) (p0 p1 p2 p3 : Word) : (d.eventP n s c r b t p0 p1 p2 p3).apTag = d.apTag := rfl
@[simp] theorem eventP_stateWait (n s c r b t : Nat) (p0 p1 p2 p3 : Word) : (d.eventP n s c r b t p0 p1 p2 p3).stateWait = d.stateWait := rfl
@[simp] theorem eventP_wakeWait (n s c r b t : Nat) (p0 p1 p2 p3 : Word) : (d.eventP n s c r b t p0 p1 p2 p3).wakeWait = d.wakeWait := rfl
@[simp] theorem eventP_xtrgWait (n s c r b t : Nat) (p0 p1 p2 p3 : Word) : (d.eventP n s c r b t p0 p1 p2 p3).xtrgWait = d.xtrgWait := rfl

/-! #### event -/

@[simp] theorem event_dtime (n c r b o : Nat) : (d.event n c r b o).dtime = d.dtime := rfl
@[simp] theorem event_free (n c r b o : Nat) : (d.event n c r b o).free = d.free := rfl
@[simp] theorem event_regs (n c r b o : Nat) : (d.event n c r b o).regs = d.regs := rfl
@[simp] theorem event_holdRd (n c r b o : Nat) : (d.event n c r b o).holdRd = d.holdRd := rfl
@[simp] theorem event_holdWr (n c r b o : Nat) : (d.event n c r b o).holdWr = d.holdWr := rfl
@[simp] theorem event_noc (n c r b o : Nat) : (d.event n c r b o).noc = d.noc := rfl
@[simp] theorem event_brams (n c r b o : Nat) : (d.event n c r b o).brams = d.brams := rfl
@[simp] theorem event_rows (n c r b o : Nat) : (d.event n c r b o).rows = d.rows := rfl
@[simp] theorem event_slices (n c r b o : Nat) : (d.event n c r b o).slices = d.slices := rfl
@[simp] theorem event_islands (n c r b o : Nat) : (d.event n c r b o).islands = d.islands := rfl
@[simp] theorem event_frames (n c r b o : Nat) : (d.event n c r b o).frames = d.frames := rfl
@[simp] theorem event_ffs (n c r b o : Nat) : (d.event n c r b o).ffs = d.ffs := rfl
@[simp] theorem event_ffUpset (n c r b o : Nat) : (d.event n c r b o).ffUpset = d.ffUpset := rfl
@[simp] theorem event_transients (n c r b o : Nat) : (d.event n c r b o).transients = d.transients := rfl
@[simp] theorem event_regions (n c r b o : Nat) : (d.event n c r b o).regions = d.regions := rfl
@[simp] theorem event_catches (n c r b o : Nat) : (d.event n c r b o).catches = d.catches := rfl
@[simp] theorem event_pinLevels (n c r b o : Nat) : (d.event n c r b o).pinLevels = d.pinLevels := rfl
@[simp] theorem event_pinOut (n c r b o : Nat) : (d.event n c r b o).pinOut = d.pinOut := rfl
@[simp] theorem event_pinEn (n c r b o : Nat) : (d.event n c r b o).pinEn = d.pinEn := rfl
@[simp] theorem event_lanes (n c r b o : Nat) : (d.event n c r b o).lanes = d.lanes := rfl
@[simp] theorem event_pllMult (n c r b o : Nat) : (d.event n c r b o).pllMult = d.pllMult := rfl
@[simp] theorem event_gcinTerm (n c r b o : Nat) : (d.event n c r b o).gcinTerm = d.gcinTerm := rfl
@[simp] theorem event_engines (n c r b o : Nat) : (d.event n c r b o).engines = d.engines := rfl
@[simp] theorem event_sigs (n c r b o : Nat) : (d.event n c r b o).sigs = d.sigs := rfl
@[simp] theorem event_grpLast (n c r b o : Nat) : (d.event n c r b o).grpLast = d.grpLast := rfl
@[simp] theorem event_isets (n c r b o : Nat) : (d.event n c r b o).isets = d.isets := rfl
@[simp] theorem event_thermTrip (n c r b o : Nat) : (d.event n c r b o).thermTrip = d.thermTrip := rfl
@[simp] theorem event_lostQuarters (n c r b o : Nat) : (d.event n c r b o).lostQuarters = d.lostQuarters := rfl
@[simp] theorem event_lost (n c r b o : Nat) : (d.event n c r b o).lost = d.lost := rfl
@[simp] theorem event_standbyEntering (n c r b o : Nat) : (d.event n c r b o).standbyEntering = d.standbyEntering := rfl
@[simp] theorem event_standbyEmulated (n c r b o : Nat) : (d.event n c r b o).standbyEmulated = d.standbyEmulated := rfl
@[simp] theorem event_standbyLinks (n c r b o : Nat) : (d.event n c r b o).standbyLinks = d.standbyLinks := rfl
@[simp] theorem event_gcEdges (n c r b o : Nat) : (d.event n c r b o).gcEdges = d.gcEdges := rfl
@[simp] theorem event_cfgCache (n c r b o : Nat) : (d.event n c r b o).cfgCache = d.cfgCache := rfl
@[simp] theorem event_finished (n c r b o : Nat) : (d.event n c r b o).finished = d.finished := rfl
@[simp] theorem event_catchIds (n c r b o : Nat) : (d.event n c r b o).catchIds = d.catchIds := rfl
@[simp] theorem event_drams (n c r b o : Nat) : (d.event n c r b o).drams = d.drams := rfl
@[simp] theorem event_isetNext (n c r b o : Nat) : (d.event n c r b o).isetNext = d.isetNext := rfl
@[simp] theorem event_links (n c r b o : Nat) : (d.event n c r b o).links = d.links := rfl
@[simp] theorem event_linkIds (n c r b o : Nat) : (d.event n c r b o).linkIds = d.linkIds := rfl
@[simp] theorem event_linkChans (n c r b o : Nat) : (d.event n c r b o).linkChans = d.linkChans := rfl
@[simp] theorem event_ppm (n c r b o : Nat) : (d.event n c r b o).ppm = d.ppm := rfl
@[simp] theorem event_tickFrac (n c r b o : Nat) : (d.event n c r b o).tickFrac = d.tickFrac := rfl
@[simp] theorem event_goodMeans (n c r b o : Nat) : (d.event n c r b o).goodMeans = d.goodMeans := rfl
@[simp] theorem event_crewCmds (n c r b o : Nat) : (d.event n c r b o).crewCmds = d.crewCmds := rfl
@[simp] theorem event_crewId (n c r b o : Nat) : (d.event n c r b o).crewId = d.crewId := rfl
@[simp] theorem event_epochWait (n c r b o : Nat) : (d.event n c r b o).epochWait = d.epochWait := rfl
@[simp] theorem event_tenants (n c r b o : Nat) : (d.event n c r b o).tenants = d.tenants := rfl
@[simp] theorem event_pmeEn (n c r b o : Nat) : (d.event n c r b o).pmeEn = d.pmeEn := rfl
@[simp] theorem event_vfEn (n c r b o : Nat) : (d.event n c r b o).vfEn = d.vfEn := rfl
@[simp] theorem event_vecs (n c r b o : Nat) : (d.event n c r b o).vecs = d.vecs := rfl
@[simp] theorem event_chans (n c r b o : Nat) : (d.event n c r b o).chans = d.chans := rfl
@[simp] theorem event_hostAccs (n c r b o : Nat) : (d.event n c r b o).hostAccs = d.hostAccs := rfl
@[simp] theorem event_hifUses (n c r b o : Nat) : (d.event n c r b o).hifUses = d.hifUses := rfl
@[simp] theorem event_bar2Waits (n c r b o : Nat) : (d.event n c r b o).bar2Waits = d.bar2Waits := rfl
@[simp] theorem event_hostTurns (n c r b o : Nat) : (d.event n c r b o).hostTurns = d.hostTurns := rfl
@[simp] theorem event_hostLast (n c r b o : Nat) : (d.event n c r b o).hostLast = d.hostLast := rfl
@[simp] theorem event_evlog (n c r b o : Nat) : (d.event n c r b o).evlog = d.evlog := rfl
@[simp] theorem event_wipes (n c r b o : Nat) : (d.event n c r b o).wipes = d.wipes := rfl
@[simp] theorem event_fills (n c r b o : Nat) : (d.event n c r b o).fills = d.fills := rfl
@[simp] theorem event_unfilled (n c r b o : Nat) : (d.event n c r b o).unfilled = d.unfilled := rfl
@[simp] theorem event_roleImg (n c r b o : Nat) : (d.event n c r b o).roleImg = d.roleImg := rfl
@[simp] theorem event_svcTest (n c r b o : Nat) : (d.event n c r b o).svcTest = d.svcTest := rfl
@[simp] theorem event_svcPass (n c r b o : Nat) : (d.event n c r b o).svcPass = d.svcPass := rfl
@[simp] theorem event_roots (n c r b o : Nat) : (d.event n c r b o).roots = d.roots := rfl
@[simp] theorem event_sealKeys (n c r b o : Nat) : (d.event n c r b o).sealKeys = d.sealKeys := rfl
@[simp] theorem event_sealQ (n c r b o : Nat) : (d.event n c r b o).sealQ = d.sealQ := rfl
@[simp] theorem event_sealOut (n c r b o : Nat) : (d.event n c r b o).sealOut = d.sealOut := rfl
@[simp] theorem event_sealLast (n c r b o : Nat) : (d.event n c r b o).sealLast = d.sealLast := rfl
@[simp] theorem event_versions (n c r b o : Nat) : (d.event n c r b o).versions = d.versions := rfl
@[simp] theorem event_grants (n c r b o : Nat) : (d.event n c r b o).grants = d.grants := rfl
@[simp] theorem event_battery (n c r b o : Nat) : (d.event n c r b o).battery = d.battery := rfl
@[simp] theorem event_fuseKey (n c r b o : Nat) : (d.event n c r b o).fuseKey = d.fuseKey := rfl
@[simp] theorem event_fuseKeyOk (n c r b o : Nat) : (d.event n c r b o).fuseKeyOk = d.fuseKeyOk := rfl
@[simp] theorem event_load (n c r b o : Nat) : (d.event n c r b o).load = d.load := rfl
@[simp] theorem event_awaitHost (n c r b o : Nat) : (d.event n c r b o).awaitHost = d.awaitHost := rfl
@[simp] theorem event_bootTries (n c r b o : Nat) : (d.event n c r b o).bootTries = d.bootTries := rfl
@[simp] theorem event_cfgDone (n c r b o : Nat) : (d.event n c r b o).cfgDone = d.cfgDone := rfl
@[simp] theorem event_flashCmd (n c r b o : Nat) : (d.event n c r b o).flashCmd = d.flashCmd := rfl
@[simp] theorem event_wakeQueue (n c r b o : Nat) : (d.event n c r b o).wakeQueue = d.wakeQueue := rfl
@[simp] theorem event_jtag (n c r b o : Nat) : (d.event n c r b o).jtag = d.jtag := rfl
@[simp] theorem event_apTag (n c r b o : Nat) : (d.event n c r b o).apTag = d.apTag := rfl
@[simp] theorem event_stateWait (n c r b o : Nat) : (d.event n c r b o).stateWait = d.stateWait := rfl
@[simp] theorem event_wakeWait (n c r b o : Nat) : (d.event n c r b o).wakeWait = d.wakeWait := rfl
@[simp] theorem event_xtrgWait (n c r b o : Nat) : (d.event n c r b o).xtrgWait = d.xtrgWait := rfl

/-! #### sticky -/

@[simp] theorem sticky_dtime (n c r b o : Nat) : (d.sticky n c r b o).dtime = d.dtime := rfl
@[simp] theorem sticky_free (n c r b o : Nat) : (d.sticky n c r b o).free = d.free := rfl
@[simp] theorem sticky_holdRd (n c r b o : Nat) : (d.sticky n c r b o).holdRd = d.holdRd := rfl
@[simp] theorem sticky_holdWr (n c r b o : Nat) : (d.sticky n c r b o).holdWr = d.holdWr := rfl
@[simp] theorem sticky_noc (n c r b o : Nat) : (d.sticky n c r b o).noc = d.noc := rfl
@[simp] theorem sticky_brams (n c r b o : Nat) : (d.sticky n c r b o).brams = d.brams := rfl
@[simp] theorem sticky_rows (n c r b o : Nat) : (d.sticky n c r b o).rows = d.rows := rfl
@[simp] theorem sticky_slices (n c r b o : Nat) : (d.sticky n c r b o).slices = d.slices := rfl
@[simp] theorem sticky_islands (n c r b o : Nat) : (d.sticky n c r b o).islands = d.islands := rfl
@[simp] theorem sticky_frames (n c r b o : Nat) : (d.sticky n c r b o).frames = d.frames := rfl
@[simp] theorem sticky_ffs (n c r b o : Nat) : (d.sticky n c r b o).ffs = d.ffs := rfl
@[simp] theorem sticky_ffUpset (n c r b o : Nat) : (d.sticky n c r b o).ffUpset = d.ffUpset := rfl
@[simp] theorem sticky_transients (n c r b o : Nat) : (d.sticky n c r b o).transients = d.transients := rfl
@[simp] theorem sticky_regions (n c r b o : Nat) : (d.sticky n c r b o).regions = d.regions := rfl
@[simp] theorem sticky_catches (n c r b o : Nat) : (d.sticky n c r b o).catches = d.catches := rfl
@[simp] theorem sticky_pinLevels (n c r b o : Nat) : (d.sticky n c r b o).pinLevels = d.pinLevels := rfl
@[simp] theorem sticky_pinOut (n c r b o : Nat) : (d.sticky n c r b o).pinOut = d.pinOut := rfl
@[simp] theorem sticky_pinEn (n c r b o : Nat) : (d.sticky n c r b o).pinEn = d.pinEn := rfl
@[simp] theorem sticky_lanes (n c r b o : Nat) : (d.sticky n c r b o).lanes = d.lanes := rfl
@[simp] theorem sticky_pllMult (n c r b o : Nat) : (d.sticky n c r b o).pllMult = d.pllMult := rfl
@[simp] theorem sticky_gcinTerm (n c r b o : Nat) : (d.sticky n c r b o).gcinTerm = d.gcinTerm := rfl
@[simp] theorem sticky_engines (n c r b o : Nat) : (d.sticky n c r b o).engines = d.engines := rfl
@[simp] theorem sticky_sigs (n c r b o : Nat) : (d.sticky n c r b o).sigs = d.sigs := rfl
@[simp] theorem sticky_grpLast (n c r b o : Nat) : (d.sticky n c r b o).grpLast = d.grpLast := rfl
@[simp] theorem sticky_isets (n c r b o : Nat) : (d.sticky n c r b o).isets = d.isets := rfl
@[simp] theorem sticky_thermTrip (n c r b o : Nat) : (d.sticky n c r b o).thermTrip = d.thermTrip := rfl
@[simp] theorem sticky_lostQuarters (n c r b o : Nat) : (d.sticky n c r b o).lostQuarters = d.lostQuarters := rfl
@[simp] theorem sticky_lost (n c r b o : Nat) : (d.sticky n c r b o).lost = d.lost := rfl
@[simp] theorem sticky_standbyEntering (n c r b o : Nat) : (d.sticky n c r b o).standbyEntering = d.standbyEntering := rfl
@[simp] theorem sticky_standbyEmulated (n c r b o : Nat) : (d.sticky n c r b o).standbyEmulated = d.standbyEmulated := rfl
@[simp] theorem sticky_standbyLinks (n c r b o : Nat) : (d.sticky n c r b o).standbyLinks = d.standbyLinks := rfl
@[simp] theorem sticky_gcEdges (n c r b o : Nat) : (d.sticky n c r b o).gcEdges = d.gcEdges := rfl
@[simp] theorem sticky_cfgCache (n c r b o : Nat) : (d.sticky n c r b o).cfgCache = d.cfgCache := rfl
@[simp] theorem sticky_finished (n c r b o : Nat) : (d.sticky n c r b o).finished = d.finished := rfl
@[simp] theorem sticky_catchIds (n c r b o : Nat) : (d.sticky n c r b o).catchIds = d.catchIds := rfl
@[simp] theorem sticky_drams (n c r b o : Nat) : (d.sticky n c r b o).drams = d.drams := rfl
@[simp] theorem sticky_isetNext (n c r b o : Nat) : (d.sticky n c r b o).isetNext = d.isetNext := rfl
@[simp] theorem sticky_links (n c r b o : Nat) : (d.sticky n c r b o).links = d.links := rfl
@[simp] theorem sticky_linkIds (n c r b o : Nat) : (d.sticky n c r b o).linkIds = d.linkIds := rfl
@[simp] theorem sticky_linkChans (n c r b o : Nat) : (d.sticky n c r b o).linkChans = d.linkChans := rfl
@[simp] theorem sticky_ppm (n c r b o : Nat) : (d.sticky n c r b o).ppm = d.ppm := rfl
@[simp] theorem sticky_tickFrac (n c r b o : Nat) : (d.sticky n c r b o).tickFrac = d.tickFrac := rfl
@[simp] theorem sticky_goodMeans (n c r b o : Nat) : (d.sticky n c r b o).goodMeans = d.goodMeans := rfl
@[simp] theorem sticky_crewCmds (n c r b o : Nat) : (d.sticky n c r b o).crewCmds = d.crewCmds := rfl
@[simp] theorem sticky_crewId (n c r b o : Nat) : (d.sticky n c r b o).crewId = d.crewId := rfl
@[simp] theorem sticky_epochWait (n c r b o : Nat) : (d.sticky n c r b o).epochWait = d.epochWait := rfl
@[simp] theorem sticky_tenants (n c r b o : Nat) : (d.sticky n c r b o).tenants = d.tenants := rfl
@[simp] theorem sticky_pmeEn (n c r b o : Nat) : (d.sticky n c r b o).pmeEn = d.pmeEn := rfl
@[simp] theorem sticky_vfEn (n c r b o : Nat) : (d.sticky n c r b o).vfEn = d.vfEn := rfl
@[simp] theorem sticky_vecs (n c r b o : Nat) : (d.sticky n c r b o).vecs = d.vecs := rfl
@[simp] theorem sticky_chans (n c r b o : Nat) : (d.sticky n c r b o).chans = d.chans := rfl
@[simp] theorem sticky_hostAccs (n c r b o : Nat) : (d.sticky n c r b o).hostAccs = d.hostAccs := rfl
@[simp] theorem sticky_hifUses (n c r b o : Nat) : (d.sticky n c r b o).hifUses = d.hifUses := rfl
@[simp] theorem sticky_bar2Waits (n c r b o : Nat) : (d.sticky n c r b o).bar2Waits = d.bar2Waits := rfl
@[simp] theorem sticky_hostTurns (n c r b o : Nat) : (d.sticky n c r b o).hostTurns = d.hostTurns := rfl
@[simp] theorem sticky_hostLast (n c r b o : Nat) : (d.sticky n c r b o).hostLast = d.hostLast := rfl
@[simp] theorem sticky_evlog (n c r b o : Nat) : (d.sticky n c r b o).evlog = d.evlog := rfl
@[simp] theorem sticky_wipes (n c r b o : Nat) : (d.sticky n c r b o).wipes = d.wipes := rfl
@[simp] theorem sticky_fills (n c r b o : Nat) : (d.sticky n c r b o).fills = d.fills := rfl
@[simp] theorem sticky_unfilled (n c r b o : Nat) : (d.sticky n c r b o).unfilled = d.unfilled := rfl
@[simp] theorem sticky_roleImg (n c r b o : Nat) : (d.sticky n c r b o).roleImg = d.roleImg := rfl
@[simp] theorem sticky_svcTest (n c r b o : Nat) : (d.sticky n c r b o).svcTest = d.svcTest := rfl
@[simp] theorem sticky_svcPass (n c r b o : Nat) : (d.sticky n c r b o).svcPass = d.svcPass := rfl
@[simp] theorem sticky_roots (n c r b o : Nat) : (d.sticky n c r b o).roots = d.roots := rfl
@[simp] theorem sticky_sealKeys (n c r b o : Nat) : (d.sticky n c r b o).sealKeys = d.sealKeys := rfl
@[simp] theorem sticky_sealQ (n c r b o : Nat) : (d.sticky n c r b o).sealQ = d.sealQ := rfl
@[simp] theorem sticky_sealOut (n c r b o : Nat) : (d.sticky n c r b o).sealOut = d.sealOut := rfl
@[simp] theorem sticky_sealLast (n c r b o : Nat) : (d.sticky n c r b o).sealLast = d.sealLast := rfl
@[simp] theorem sticky_versions (n c r b o : Nat) : (d.sticky n c r b o).versions = d.versions := rfl
@[simp] theorem sticky_grants (n c r b o : Nat) : (d.sticky n c r b o).grants = d.grants := rfl
@[simp] theorem sticky_battery (n c r b o : Nat) : (d.sticky n c r b o).battery = d.battery := rfl
@[simp] theorem sticky_fuseKey (n c r b o : Nat) : (d.sticky n c r b o).fuseKey = d.fuseKey := rfl
@[simp] theorem sticky_fuseKeyOk (n c r b o : Nat) : (d.sticky n c r b o).fuseKeyOk = d.fuseKeyOk := rfl
@[simp] theorem sticky_load (n c r b o : Nat) : (d.sticky n c r b o).load = d.load := rfl
@[simp] theorem sticky_awaitHost (n c r b o : Nat) : (d.sticky n c r b o).awaitHost = d.awaitHost := rfl
@[simp] theorem sticky_bootTries (n c r b o : Nat) : (d.sticky n c r b o).bootTries = d.bootTries := rfl
@[simp] theorem sticky_cfgDone (n c r b o : Nat) : (d.sticky n c r b o).cfgDone = d.cfgDone := rfl
@[simp] theorem sticky_flashCmd (n c r b o : Nat) : (d.sticky n c r b o).flashCmd = d.flashCmd := rfl
@[simp] theorem sticky_wakeQueue (n c r b o : Nat) : (d.sticky n c r b o).wakeQueue = d.wakeQueue := rfl
@[simp] theorem sticky_jtag (n c r b o : Nat) : (d.sticky n c r b o).jtag = d.jtag := rfl
@[simp] theorem sticky_apTag (n c r b o : Nat) : (d.sticky n c r b o).apTag = d.apTag := rfl
@[simp] theorem sticky_stateWait (n c r b o : Nat) : (d.sticky n c r b o).stateWait = d.stateWait := rfl
@[simp] theorem sticky_wakeWait (n c r b o : Nat) : (d.sticky n c r b o).wakeWait = d.wakeWait := rfl
@[simp] theorem sticky_xtrgWait (n c r b o : Nat) : (d.sticky n c r b o).xtrgWait = d.xtrgWait := rfl

/-! #### cause -/

@[simp] theorem cause_dtime (i k : Nat) : (d.cause i k).dtime = d.dtime := rfl
@[simp] theorem cause_free (i k : Nat) : (d.cause i k).free = d.free := rfl
@[simp] theorem cause_out (i k : Nat) : (d.cause i k).out = d.out := rfl
@[simp] theorem cause_holdRd (i k : Nat) : (d.cause i k).holdRd = d.holdRd := rfl
@[simp] theorem cause_holdWr (i k : Nat) : (d.cause i k).holdWr = d.holdWr := rfl
@[simp] theorem cause_noc (i k : Nat) : (d.cause i k).noc = d.noc := rfl
@[simp] theorem cause_brams (i k : Nat) : (d.cause i k).brams = d.brams := rfl
@[simp] theorem cause_rows (i k : Nat) : (d.cause i k).rows = d.rows := rfl
@[simp] theorem cause_slices (i k : Nat) : (d.cause i k).slices = d.slices := rfl
@[simp] theorem cause_islands (i k : Nat) : (d.cause i k).islands = d.islands := rfl
@[simp] theorem cause_frames (i k : Nat) : (d.cause i k).frames = d.frames := rfl
@[simp] theorem cause_ffs (i k : Nat) : (d.cause i k).ffs = d.ffs := rfl
@[simp] theorem cause_ffUpset (i k : Nat) : (d.cause i k).ffUpset = d.ffUpset := rfl
@[simp] theorem cause_transients (i k : Nat) : (d.cause i k).transients = d.transients := rfl
@[simp] theorem cause_regions (i k : Nat) : (d.cause i k).regions = d.regions := rfl
@[simp] theorem cause_catches (i k : Nat) : (d.cause i k).catches = d.catches := rfl
@[simp] theorem cause_pinLevels (i k : Nat) : (d.cause i k).pinLevels = d.pinLevels := rfl
@[simp] theorem cause_pinOut (i k : Nat) : (d.cause i k).pinOut = d.pinOut := rfl
@[simp] theorem cause_pinEn (i k : Nat) : (d.cause i k).pinEn = d.pinEn := rfl
@[simp] theorem cause_lanes (i k : Nat) : (d.cause i k).lanes = d.lanes := rfl
@[simp] theorem cause_pllMult (i k : Nat) : (d.cause i k).pllMult = d.pllMult := rfl
@[simp] theorem cause_gcinTerm (i k : Nat) : (d.cause i k).gcinTerm = d.gcinTerm := rfl
@[simp] theorem cause_engines (i k : Nat) : (d.cause i k).engines = d.engines := rfl
@[simp] theorem cause_sigs (i k : Nat) : (d.cause i k).sigs = d.sigs := rfl
@[simp] theorem cause_grpLast (i k : Nat) : (d.cause i k).grpLast = d.grpLast := rfl
@[simp] theorem cause_isets (i k : Nat) : (d.cause i k).isets = d.isets := rfl
@[simp] theorem cause_thermTrip (i k : Nat) : (d.cause i k).thermTrip = d.thermTrip := rfl
@[simp] theorem cause_lostQuarters (i k : Nat) : (d.cause i k).lostQuarters = d.lostQuarters := rfl
@[simp] theorem cause_lost (i k : Nat) : (d.cause i k).lost = d.lost := rfl
@[simp] theorem cause_standbyEntering (i k : Nat) : (d.cause i k).standbyEntering = d.standbyEntering := rfl
@[simp] theorem cause_standbyEmulated (i k : Nat) : (d.cause i k).standbyEmulated = d.standbyEmulated := rfl
@[simp] theorem cause_standbyLinks (i k : Nat) : (d.cause i k).standbyLinks = d.standbyLinks := rfl
@[simp] theorem cause_gcEdges (i k : Nat) : (d.cause i k).gcEdges = d.gcEdges := rfl
@[simp] theorem cause_cfgCache (i k : Nat) : (d.cause i k).cfgCache = d.cfgCache := rfl
@[simp] theorem cause_finished (i k : Nat) : (d.cause i k).finished = d.finished := rfl
@[simp] theorem cause_catchIds (i k : Nat) : (d.cause i k).catchIds = d.catchIds := rfl
@[simp] theorem cause_drams (i k : Nat) : (d.cause i k).drams = d.drams := rfl
@[simp] theorem cause_isetNext (i k : Nat) : (d.cause i k).isetNext = d.isetNext := rfl
@[simp] theorem cause_links (i k : Nat) : (d.cause i k).links = d.links := rfl
@[simp] theorem cause_linkIds (i k : Nat) : (d.cause i k).linkIds = d.linkIds := rfl
@[simp] theorem cause_linkChans (i k : Nat) : (d.cause i k).linkChans = d.linkChans := rfl
@[simp] theorem cause_ppm (i k : Nat) : (d.cause i k).ppm = d.ppm := rfl
@[simp] theorem cause_tickFrac (i k : Nat) : (d.cause i k).tickFrac = d.tickFrac := rfl
@[simp] theorem cause_goodMeans (i k : Nat) : (d.cause i k).goodMeans = d.goodMeans := rfl
@[simp] theorem cause_crewCmds (i k : Nat) : (d.cause i k).crewCmds = d.crewCmds := rfl
@[simp] theorem cause_crewId (i k : Nat) : (d.cause i k).crewId = d.crewId := rfl
@[simp] theorem cause_epochWait (i k : Nat) : (d.cause i k).epochWait = d.epochWait := rfl
@[simp] theorem cause_tenants (i k : Nat) : (d.cause i k).tenants = d.tenants := rfl
@[simp] theorem cause_pmeEn (i k : Nat) : (d.cause i k).pmeEn = d.pmeEn := rfl
@[simp] theorem cause_vfEn (i k : Nat) : (d.cause i k).vfEn = d.vfEn := rfl
@[simp] theorem cause_vecs (i k : Nat) : (d.cause i k).vecs = d.vecs := rfl
@[simp] theorem cause_chans (i k : Nat) : (d.cause i k).chans = d.chans := rfl
@[simp] theorem cause_hostAccs (i k : Nat) : (d.cause i k).hostAccs = d.hostAccs := rfl
@[simp] theorem cause_hifUses (i k : Nat) : (d.cause i k).hifUses = d.hifUses := rfl
@[simp] theorem cause_bar2Waits (i k : Nat) : (d.cause i k).bar2Waits = d.bar2Waits := rfl
@[simp] theorem cause_hostTurns (i k : Nat) : (d.cause i k).hostTurns = d.hostTurns := rfl
@[simp] theorem cause_hostLast (i k : Nat) : (d.cause i k).hostLast = d.hostLast := rfl
@[simp] theorem cause_evlog (i k : Nat) : (d.cause i k).evlog = d.evlog := rfl
@[simp] theorem cause_wipes (i k : Nat) : (d.cause i k).wipes = d.wipes := rfl
@[simp] theorem cause_fills (i k : Nat) : (d.cause i k).fills = d.fills := rfl
@[simp] theorem cause_unfilled (i k : Nat) : (d.cause i k).unfilled = d.unfilled := rfl
@[simp] theorem cause_roleImg (i k : Nat) : (d.cause i k).roleImg = d.roleImg := rfl
@[simp] theorem cause_svcTest (i k : Nat) : (d.cause i k).svcTest = d.svcTest := rfl
@[simp] theorem cause_svcPass (i k : Nat) : (d.cause i k).svcPass = d.svcPass := rfl
@[simp] theorem cause_roots (i k : Nat) : (d.cause i k).roots = d.roots := rfl
@[simp] theorem cause_sealKeys (i k : Nat) : (d.cause i k).sealKeys = d.sealKeys := rfl
@[simp] theorem cause_sealQ (i k : Nat) : (d.cause i k).sealQ = d.sealQ := rfl
@[simp] theorem cause_sealOut (i k : Nat) : (d.cause i k).sealOut = d.sealOut := rfl
@[simp] theorem cause_sealLast (i k : Nat) : (d.cause i k).sealLast = d.sealLast := rfl
@[simp] theorem cause_versions (i k : Nat) : (d.cause i k).versions = d.versions := rfl
@[simp] theorem cause_grants (i k : Nat) : (d.cause i k).grants = d.grants := rfl
@[simp] theorem cause_battery (i k : Nat) : (d.cause i k).battery = d.battery := rfl
@[simp] theorem cause_fuseKey (i k : Nat) : (d.cause i k).fuseKey = d.fuseKey := rfl
@[simp] theorem cause_fuseKeyOk (i k : Nat) : (d.cause i k).fuseKeyOk = d.fuseKeyOk := rfl
@[simp] theorem cause_load (i k : Nat) : (d.cause i k).load = d.load := rfl
@[simp] theorem cause_awaitHost (i k : Nat) : (d.cause i k).awaitHost = d.awaitHost := rfl
@[simp] theorem cause_bootTries (i k : Nat) : (d.cause i k).bootTries = d.bootTries := rfl
@[simp] theorem cause_cfgDone (i k : Nat) : (d.cause i k).cfgDone = d.cfgDone := rfl
@[simp] theorem cause_flashCmd (i k : Nat) : (d.cause i k).flashCmd = d.flashCmd := rfl
@[simp] theorem cause_wakeQueue (i k : Nat) : (d.cause i k).wakeQueue = d.wakeQueue := rfl
@[simp] theorem cause_jtag (i k : Nat) : (d.cause i k).jtag = d.jtag := rfl
@[simp] theorem cause_apTag (i k : Nat) : (d.cause i k).apTag = d.apTag := rfl
@[simp] theorem cause_stateWait (i k : Nat) : (d.cause i k).stateWait = d.stateWait := rfl
@[simp] theorem cause_wakeWait (i k : Nat) : (d.cause i k).wakeWait = d.wakeWait := rfl
@[simp] theorem cause_xtrgWait (i k : Nat) : (d.cause i k).xtrgWait = d.xtrgWait := rfl

/-! #### islEvent -/

@[simp] theorem islEvent_dtime (i k c r b o : Nat) : (d.islEvent i k c r b o).dtime = d.dtime := (cause_dtime _ _ _).trans (sticky_dtime _ _ _ _ _ _)
@[simp] theorem islEvent_free (i k c r b o : Nat) : (d.islEvent i k c r b o).free = d.free := (cause_free _ _ _).trans (sticky_free _ _ _ _ _ _)
@[simp] theorem islEvent_holdRd (i k c r b o : Nat) : (d.islEvent i k c r b o).holdRd = d.holdRd := (cause_holdRd _ _ _).trans (sticky_holdRd _ _ _ _ _ _)
@[simp] theorem islEvent_holdWr (i k c r b o : Nat) : (d.islEvent i k c r b o).holdWr = d.holdWr := (cause_holdWr _ _ _).trans (sticky_holdWr _ _ _ _ _ _)
@[simp] theorem islEvent_noc (i k c r b o : Nat) : (d.islEvent i k c r b o).noc = d.noc := (cause_noc _ _ _).trans (sticky_noc _ _ _ _ _ _)
@[simp] theorem islEvent_brams (i k c r b o : Nat) : (d.islEvent i k c r b o).brams = d.brams := (cause_brams _ _ _).trans (sticky_brams _ _ _ _ _ _)
@[simp] theorem islEvent_rows (i k c r b o : Nat) : (d.islEvent i k c r b o).rows = d.rows := (cause_rows _ _ _).trans (sticky_rows _ _ _ _ _ _)
@[simp] theorem islEvent_slices (i k c r b o : Nat) : (d.islEvent i k c r b o).slices = d.slices := (cause_slices _ _ _).trans (sticky_slices _ _ _ _ _ _)
@[simp] theorem islEvent_islands (i k c r b o : Nat) : (d.islEvent i k c r b o).islands = d.islands := (cause_islands _ _ _).trans (sticky_islands _ _ _ _ _ _)
@[simp] theorem islEvent_frames (i k c r b o : Nat) : (d.islEvent i k c r b o).frames = d.frames := (cause_frames _ _ _).trans (sticky_frames _ _ _ _ _ _)
@[simp] theorem islEvent_ffs (i k c r b o : Nat) : (d.islEvent i k c r b o).ffs = d.ffs := (cause_ffs _ _ _).trans (sticky_ffs _ _ _ _ _ _)
@[simp] theorem islEvent_ffUpset (i k c r b o : Nat) : (d.islEvent i k c r b o).ffUpset = d.ffUpset := (cause_ffUpset _ _ _).trans (sticky_ffUpset _ _ _ _ _ _)
@[simp] theorem islEvent_transients (i k c r b o : Nat) : (d.islEvent i k c r b o).transients = d.transients := (cause_transients _ _ _).trans (sticky_transients _ _ _ _ _ _)
@[simp] theorem islEvent_regions (i k c r b o : Nat) : (d.islEvent i k c r b o).regions = d.regions := (cause_regions _ _ _).trans (sticky_regions _ _ _ _ _ _)
@[simp] theorem islEvent_catches (i k c r b o : Nat) : (d.islEvent i k c r b o).catches = d.catches := (cause_catches _ _ _).trans (sticky_catches _ _ _ _ _ _)
@[simp] theorem islEvent_pinLevels (i k c r b o : Nat) : (d.islEvent i k c r b o).pinLevels = d.pinLevels := (cause_pinLevels _ _ _).trans (sticky_pinLevels _ _ _ _ _ _)
@[simp] theorem islEvent_pinOut (i k c r b o : Nat) : (d.islEvent i k c r b o).pinOut = d.pinOut := (cause_pinOut _ _ _).trans (sticky_pinOut _ _ _ _ _ _)
@[simp] theorem islEvent_pinEn (i k c r b o : Nat) : (d.islEvent i k c r b o).pinEn = d.pinEn := (cause_pinEn _ _ _).trans (sticky_pinEn _ _ _ _ _ _)
@[simp] theorem islEvent_lanes (i k c r b o : Nat) : (d.islEvent i k c r b o).lanes = d.lanes := (cause_lanes _ _ _).trans (sticky_lanes _ _ _ _ _ _)
@[simp] theorem islEvent_pllMult (i k c r b o : Nat) : (d.islEvent i k c r b o).pllMult = d.pllMult := (cause_pllMult _ _ _).trans (sticky_pllMult _ _ _ _ _ _)
@[simp] theorem islEvent_gcinTerm (i k c r b o : Nat) : (d.islEvent i k c r b o).gcinTerm = d.gcinTerm := (cause_gcinTerm _ _ _).trans (sticky_gcinTerm _ _ _ _ _ _)
@[simp] theorem islEvent_engines (i k c r b o : Nat) : (d.islEvent i k c r b o).engines = d.engines := (cause_engines _ _ _).trans (sticky_engines _ _ _ _ _ _)
@[simp] theorem islEvent_sigs (i k c r b o : Nat) : (d.islEvent i k c r b o).sigs = d.sigs := (cause_sigs _ _ _).trans (sticky_sigs _ _ _ _ _ _)
@[simp] theorem islEvent_grpLast (i k c r b o : Nat) : (d.islEvent i k c r b o).grpLast = d.grpLast := (cause_grpLast _ _ _).trans (sticky_grpLast _ _ _ _ _ _)
@[simp] theorem islEvent_isets (i k c r b o : Nat) : (d.islEvent i k c r b o).isets = d.isets := (cause_isets _ _ _).trans (sticky_isets _ _ _ _ _ _)
@[simp] theorem islEvent_thermTrip (i k c r b o : Nat) : (d.islEvent i k c r b o).thermTrip = d.thermTrip := (cause_thermTrip _ _ _).trans (sticky_thermTrip _ _ _ _ _ _)
@[simp] theorem islEvent_lostQuarters (i k c r b o : Nat) : (d.islEvent i k c r b o).lostQuarters = d.lostQuarters := (cause_lostQuarters _ _ _).trans (sticky_lostQuarters _ _ _ _ _ _)
@[simp] theorem islEvent_lost (i k c r b o : Nat) : (d.islEvent i k c r b o).lost = d.lost := (cause_lost _ _ _).trans (sticky_lost _ _ _ _ _ _)
@[simp] theorem islEvent_standbyEntering (i k c r b o : Nat) : (d.islEvent i k c r b o).standbyEntering = d.standbyEntering := (cause_standbyEntering _ _ _).trans (sticky_standbyEntering _ _ _ _ _ _)
@[simp] theorem islEvent_standbyEmulated (i k c r b o : Nat) : (d.islEvent i k c r b o).standbyEmulated = d.standbyEmulated := (cause_standbyEmulated _ _ _).trans (sticky_standbyEmulated _ _ _ _ _ _)
@[simp] theorem islEvent_standbyLinks (i k c r b o : Nat) : (d.islEvent i k c r b o).standbyLinks = d.standbyLinks := (cause_standbyLinks _ _ _).trans (sticky_standbyLinks _ _ _ _ _ _)
@[simp] theorem islEvent_gcEdges (i k c r b o : Nat) : (d.islEvent i k c r b o).gcEdges = d.gcEdges := (cause_gcEdges _ _ _).trans (sticky_gcEdges _ _ _ _ _ _)
@[simp] theorem islEvent_cfgCache (i k c r b o : Nat) : (d.islEvent i k c r b o).cfgCache = d.cfgCache := (cause_cfgCache _ _ _).trans (sticky_cfgCache _ _ _ _ _ _)
@[simp] theorem islEvent_finished (i k c r b o : Nat) : (d.islEvent i k c r b o).finished = d.finished := (cause_finished _ _ _).trans (sticky_finished _ _ _ _ _ _)
@[simp] theorem islEvent_catchIds (i k c r b o : Nat) : (d.islEvent i k c r b o).catchIds = d.catchIds := (cause_catchIds _ _ _).trans (sticky_catchIds _ _ _ _ _ _)
@[simp] theorem islEvent_drams (i k c r b o : Nat) : (d.islEvent i k c r b o).drams = d.drams := (cause_drams _ _ _).trans (sticky_drams _ _ _ _ _ _)
@[simp] theorem islEvent_isetNext (i k c r b o : Nat) : (d.islEvent i k c r b o).isetNext = d.isetNext := (cause_isetNext _ _ _).trans (sticky_isetNext _ _ _ _ _ _)
@[simp] theorem islEvent_links (i k c r b o : Nat) : (d.islEvent i k c r b o).links = d.links := (cause_links _ _ _).trans (sticky_links _ _ _ _ _ _)
@[simp] theorem islEvent_linkIds (i k c r b o : Nat) : (d.islEvent i k c r b o).linkIds = d.linkIds := (cause_linkIds _ _ _).trans (sticky_linkIds _ _ _ _ _ _)
@[simp] theorem islEvent_linkChans (i k c r b o : Nat) : (d.islEvent i k c r b o).linkChans = d.linkChans := (cause_linkChans _ _ _).trans (sticky_linkChans _ _ _ _ _ _)
@[simp] theorem islEvent_ppm (i k c r b o : Nat) : (d.islEvent i k c r b o).ppm = d.ppm := (cause_ppm _ _ _).trans (sticky_ppm _ _ _ _ _ _)
@[simp] theorem islEvent_tickFrac (i k c r b o : Nat) : (d.islEvent i k c r b o).tickFrac = d.tickFrac := (cause_tickFrac _ _ _).trans (sticky_tickFrac _ _ _ _ _ _)
@[simp] theorem islEvent_goodMeans (i k c r b o : Nat) : (d.islEvent i k c r b o).goodMeans = d.goodMeans := (cause_goodMeans _ _ _).trans (sticky_goodMeans _ _ _ _ _ _)
@[simp] theorem islEvent_crewCmds (i k c r b o : Nat) : (d.islEvent i k c r b o).crewCmds = d.crewCmds := (cause_crewCmds _ _ _).trans (sticky_crewCmds _ _ _ _ _ _)
@[simp] theorem islEvent_crewId (i k c r b o : Nat) : (d.islEvent i k c r b o).crewId = d.crewId := (cause_crewId _ _ _).trans (sticky_crewId _ _ _ _ _ _)
@[simp] theorem islEvent_epochWait (i k c r b o : Nat) : (d.islEvent i k c r b o).epochWait = d.epochWait := (cause_epochWait _ _ _).trans (sticky_epochWait _ _ _ _ _ _)
@[simp] theorem islEvent_tenants (i k c r b o : Nat) : (d.islEvent i k c r b o).tenants = d.tenants := (cause_tenants _ _ _).trans (sticky_tenants _ _ _ _ _ _)
@[simp] theorem islEvent_pmeEn (i k c r b o : Nat) : (d.islEvent i k c r b o).pmeEn = d.pmeEn := (cause_pmeEn _ _ _).trans (sticky_pmeEn _ _ _ _ _ _)
@[simp] theorem islEvent_vfEn (i k c r b o : Nat) : (d.islEvent i k c r b o).vfEn = d.vfEn := (cause_vfEn _ _ _).trans (sticky_vfEn _ _ _ _ _ _)
@[simp] theorem islEvent_vecs (i k c r b o : Nat) : (d.islEvent i k c r b o).vecs = d.vecs := (cause_vecs _ _ _).trans (sticky_vecs _ _ _ _ _ _)
@[simp] theorem islEvent_chans (i k c r b o : Nat) : (d.islEvent i k c r b o).chans = d.chans := (cause_chans _ _ _).trans (sticky_chans _ _ _ _ _ _)
@[simp] theorem islEvent_hostAccs (i k c r b o : Nat) : (d.islEvent i k c r b o).hostAccs = d.hostAccs := (cause_hostAccs _ _ _).trans (sticky_hostAccs _ _ _ _ _ _)
@[simp] theorem islEvent_hifUses (i k c r b o : Nat) : (d.islEvent i k c r b o).hifUses = d.hifUses := (cause_hifUses _ _ _).trans (sticky_hifUses _ _ _ _ _ _)
@[simp] theorem islEvent_bar2Waits (i k c r b o : Nat) : (d.islEvent i k c r b o).bar2Waits = d.bar2Waits := (cause_bar2Waits _ _ _).trans (sticky_bar2Waits _ _ _ _ _ _)
@[simp] theorem islEvent_hostTurns (i k c r b o : Nat) : (d.islEvent i k c r b o).hostTurns = d.hostTurns := (cause_hostTurns _ _ _).trans (sticky_hostTurns _ _ _ _ _ _)
@[simp] theorem islEvent_hostLast (i k c r b o : Nat) : (d.islEvent i k c r b o).hostLast = d.hostLast := (cause_hostLast _ _ _).trans (sticky_hostLast _ _ _ _ _ _)
@[simp] theorem islEvent_evlog (i k c r b o : Nat) : (d.islEvent i k c r b o).evlog = d.evlog := (cause_evlog _ _ _).trans (sticky_evlog _ _ _ _ _ _)
@[simp] theorem islEvent_wipes (i k c r b o : Nat) : (d.islEvent i k c r b o).wipes = d.wipes := (cause_wipes _ _ _).trans (sticky_wipes _ _ _ _ _ _)
@[simp] theorem islEvent_fills (i k c r b o : Nat) : (d.islEvent i k c r b o).fills = d.fills := (cause_fills _ _ _).trans (sticky_fills _ _ _ _ _ _)
@[simp] theorem islEvent_unfilled (i k c r b o : Nat) : (d.islEvent i k c r b o).unfilled = d.unfilled := (cause_unfilled _ _ _).trans (sticky_unfilled _ _ _ _ _ _)
@[simp] theorem islEvent_roleImg (i k c r b o : Nat) : (d.islEvent i k c r b o).roleImg = d.roleImg := (cause_roleImg _ _ _).trans (sticky_roleImg _ _ _ _ _ _)
@[simp] theorem islEvent_svcTest (i k c r b o : Nat) : (d.islEvent i k c r b o).svcTest = d.svcTest := (cause_svcTest _ _ _).trans (sticky_svcTest _ _ _ _ _ _)
@[simp] theorem islEvent_svcPass (i k c r b o : Nat) : (d.islEvent i k c r b o).svcPass = d.svcPass := (cause_svcPass _ _ _).trans (sticky_svcPass _ _ _ _ _ _)
@[simp] theorem islEvent_roots (i k c r b o : Nat) : (d.islEvent i k c r b o).roots = d.roots := (cause_roots _ _ _).trans (sticky_roots _ _ _ _ _ _)
@[simp] theorem islEvent_sealKeys (i k c r b o : Nat) : (d.islEvent i k c r b o).sealKeys = d.sealKeys := (cause_sealKeys _ _ _).trans (sticky_sealKeys _ _ _ _ _ _)
@[simp] theorem islEvent_sealQ (i k c r b o : Nat) : (d.islEvent i k c r b o).sealQ = d.sealQ := (cause_sealQ _ _ _).trans (sticky_sealQ _ _ _ _ _ _)
@[simp] theorem islEvent_sealOut (i k c r b o : Nat) : (d.islEvent i k c r b o).sealOut = d.sealOut := (cause_sealOut _ _ _).trans (sticky_sealOut _ _ _ _ _ _)
@[simp] theorem islEvent_sealLast (i k c r b o : Nat) : (d.islEvent i k c r b o).sealLast = d.sealLast := (cause_sealLast _ _ _).trans (sticky_sealLast _ _ _ _ _ _)
@[simp] theorem islEvent_versions (i k c r b o : Nat) : (d.islEvent i k c r b o).versions = d.versions := (cause_versions _ _ _).trans (sticky_versions _ _ _ _ _ _)
@[simp] theorem islEvent_grants (i k c r b o : Nat) : (d.islEvent i k c r b o).grants = d.grants := (cause_grants _ _ _).trans (sticky_grants _ _ _ _ _ _)
@[simp] theorem islEvent_battery (i k c r b o : Nat) : (d.islEvent i k c r b o).battery = d.battery := (cause_battery _ _ _).trans (sticky_battery _ _ _ _ _ _)
@[simp] theorem islEvent_fuseKey (i k c r b o : Nat) : (d.islEvent i k c r b o).fuseKey = d.fuseKey := (cause_fuseKey _ _ _).trans (sticky_fuseKey _ _ _ _ _ _)
@[simp] theorem islEvent_fuseKeyOk (i k c r b o : Nat) : (d.islEvent i k c r b o).fuseKeyOk = d.fuseKeyOk := (cause_fuseKeyOk _ _ _).trans (sticky_fuseKeyOk _ _ _ _ _ _)
@[simp] theorem islEvent_load (i k c r b o : Nat) : (d.islEvent i k c r b o).load = d.load := (cause_load _ _ _).trans (sticky_load _ _ _ _ _ _)
@[simp] theorem islEvent_awaitHost (i k c r b o : Nat) : (d.islEvent i k c r b o).awaitHost = d.awaitHost := (cause_awaitHost _ _ _).trans (sticky_awaitHost _ _ _ _ _ _)
@[simp] theorem islEvent_bootTries (i k c r b o : Nat) : (d.islEvent i k c r b o).bootTries = d.bootTries := (cause_bootTries _ _ _).trans (sticky_bootTries _ _ _ _ _ _)
@[simp] theorem islEvent_cfgDone (i k c r b o : Nat) : (d.islEvent i k c r b o).cfgDone = d.cfgDone := (cause_cfgDone _ _ _).trans (sticky_cfgDone _ _ _ _ _ _)
@[simp] theorem islEvent_flashCmd (i k c r b o : Nat) : (d.islEvent i k c r b o).flashCmd = d.flashCmd := (cause_flashCmd _ _ _).trans (sticky_flashCmd _ _ _ _ _ _)
@[simp] theorem islEvent_wakeQueue (i k c r b o : Nat) : (d.islEvent i k c r b o).wakeQueue = d.wakeQueue := (cause_wakeQueue _ _ _).trans (sticky_wakeQueue _ _ _ _ _ _)
@[simp] theorem islEvent_jtag (i k c r b o : Nat) : (d.islEvent i k c r b o).jtag = d.jtag := (cause_jtag _ _ _).trans (sticky_jtag _ _ _ _ _ _)
@[simp] theorem islEvent_apTag (i k c r b o : Nat) : (d.islEvent i k c r b o).apTag = d.apTag := (cause_apTag _ _ _).trans (sticky_apTag _ _ _ _ _ _)
@[simp] theorem islEvent_stateWait (i k c r b o : Nat) : (d.islEvent i k c r b o).stateWait = d.stateWait := (cause_stateWait _ _ _).trans (sticky_stateWait _ _ _ _ _ _)
@[simp] theorem islEvent_wakeWait (i k c r b o : Nat) : (d.islEvent i k c r b o).wakeWait = d.wakeWait := (cause_wakeWait _ _ _).trans (sticky_wakeWait _ _ _ _ _ _)
@[simp] theorem islEvent_xtrgWait (i k c r b o : Nat) : (d.islEvent i k c r b o).xtrgWait = d.xtrgWait := (cause_xtrgWait _ _ _).trans (sticky_xtrgWait _ _ _ _ _ _)

/-! #### Reads of one part after a write of another -/

@[simp] theorem setReg_read_isl (n o : Nat) (v : Word) (j : Nat) : (d.setReg n o v).isl j = d.isl j := rfl
@[simp] theorem setReg_read_bram (n o : Nat) (v : Word) (j : Nat) : (d.setReg n o v).bram j = d.bram j := rfl
@[simp] theorem setReg_read_slice (n o : Nat) (v : Word) (j : Nat) : (d.setReg n o v).slice j = d.slice j := rfl
@[simp] theorem setReg_read_row (n o : Nat) (v : Word) (j q : Nat) : (d.setReg n o v).row j q = d.row j q := rfl
@[simp] theorem setReg_read_ff (n o : Nat) (v : Word) (j q : Nat) : (d.setReg n o v).ff j q = d.ff j q := rfl
@[simp] theorem setReg_read_frame (n o : Nat) (v : Word) (j q : Nat) : (d.setReg n o v).frame j q = d.frame j q := rfl
@[simp] theorem setReg_read_eng (n o : Nat) (v : Word) (j : Nat) : (d.setReg n o v).eng j = d.eng j := rfl
@[simp] theorem setReg_read_lane (n o : Nat) (v : Word) (j : Nat) : (d.setReg n o v).lane j = d.lane j := rfl
@[simp] theorem setFld_read_isl (n o lo w x : Nat) (j : Nat) : (d.setFld n o lo w x).isl j = d.isl j := rfl
@[simp] theorem setFld_read_bram (n o lo w x : Nat) (j : Nat) : (d.setFld n o lo w x).bram j = d.bram j := rfl
@[simp] theorem setFld_read_slice (n o lo w x : Nat) (j : Nat) : (d.setFld n o lo w x).slice j = d.slice j := rfl
@[simp] theorem setFld_read_row (n o lo w x : Nat) (j q : Nat) : (d.setFld n o lo w x).row j q = d.row j q := rfl
@[simp] theorem setFld_read_ff (n o lo w x : Nat) (j q : Nat) : (d.setFld n o lo w x).ff j q = d.ff j q := rfl
@[simp] theorem setFld_read_frame (n o lo w x : Nat) (j q : Nat) : (d.setFld n o lo w x).frame j q = d.frame j q := rfl
@[simp] theorem setFld_read_eng (n o lo w x : Nat) (j : Nat) : (d.setFld n o lo w x).eng j = d.eng j := rfl
@[simp] theorem setFld_read_lane (n o lo w x : Nat) (j : Nat) : (d.setFld n o lo w x).lane j = d.lane j := rfl
@[simp] theorem orReg_read_isl (n o : Nat) (v : Word) (j : Nat) : (d.orReg n o v).isl j = d.isl j := rfl
@[simp] theorem orReg_read_bram (n o : Nat) (v : Word) (j : Nat) : (d.orReg n o v).bram j = d.bram j := rfl
@[simp] theorem orReg_read_slice (n o : Nat) (v : Word) (j : Nat) : (d.orReg n o v).slice j = d.slice j := rfl
@[simp] theorem orReg_read_row (n o : Nat) (v : Word) (j q : Nat) : (d.orReg n o v).row j q = d.row j q := rfl
@[simp] theorem orReg_read_ff (n o : Nat) (v : Word) (j q : Nat) : (d.orReg n o v).ff j q = d.ff j q := rfl
@[simp] theorem orReg_read_frame (n o : Nat) (v : Word) (j q : Nat) : (d.orReg n o v).frame j q = d.frame j q := rfl
@[simp] theorem orReg_read_eng (n o : Nat) (v : Word) (j : Nat) : (d.orReg n o v).eng j = d.eng j := rfl
@[simp] theorem orReg_read_lane (n o : Nat) (v : Word) (j : Nat) : (d.orReg n o v).lane j = d.lane j := rfl
@[simp] theorem clrReg_read_isl (n o : Nat) (v : Word) (j : Nat) : (d.clrReg n o v).isl j = d.isl j := rfl
@[simp] theorem clrReg_read_bram (n o : Nat) (v : Word) (j : Nat) : (d.clrReg n o v).bram j = d.bram j := rfl
@[simp] theorem clrReg_read_slice (n o : Nat) (v : Word) (j : Nat) : (d.clrReg n o v).slice j = d.slice j := rfl
@[simp] theorem clrReg_read_row (n o : Nat) (v : Word) (j q : Nat) : (d.clrReg n o v).row j q = d.row j q := rfl
@[simp] theorem clrReg_read_ff (n o : Nat) (v : Word) (j q : Nat) : (d.clrReg n o v).ff j q = d.ff j q := rfl
@[simp] theorem clrReg_read_frame (n o : Nat) (v : Word) (j q : Nat) : (d.clrReg n o v).frame j q = d.frame j q := rfl
@[simp] theorem clrReg_read_eng (n o : Nat) (v : Word) (j : Nat) : (d.clrReg n o v).eng j = d.eng j := rfl
@[simp] theorem clrReg_read_lane (n o : Nat) (v : Word) (j : Nat) : (d.clrReg n o v).lane j = d.lane j := rfl
@[simp] theorem setReg64_read_isl (n o : Nat) (v : W64) (j : Nat) : (d.setReg64 n o v).isl j = d.isl j := (setReg_read_isl _ _ _ _ _).trans (setReg_read_isl _ _ _ _ _)
@[simp] theorem setReg64_read_bram (n o : Nat) (v : W64) (j : Nat) : (d.setReg64 n o v).bram j = d.bram j := (setReg_read_bram _ _ _ _ _).trans (setReg_read_bram _ _ _ _ _)
@[simp] theorem setReg64_read_slice (n o : Nat) (v : W64) (j : Nat) : (d.setReg64 n o v).slice j = d.slice j := (setReg_read_slice _ _ _ _ _).trans (setReg_read_slice _ _ _ _ _)
@[simp] theorem setReg64_read_row (n o : Nat) (v : W64) (j q : Nat) : (d.setReg64 n o v).row j q = d.row j q := (setReg_read_row _ _ _ _ _ _).trans (setReg_read_row _ _ _ _ _ _)
@[simp] theorem setReg64_read_ff (n o : Nat) (v : W64) (j q : Nat) : (d.setReg64 n o v).ff j q = d.ff j q := (setReg_read_ff _ _ _ _ _ _).trans (setReg_read_ff _ _ _ _ _ _)
@[simp] theorem setReg64_read_frame (n o : Nat) (v : W64) (j q : Nat) : (d.setReg64 n o v).frame j q = d.frame j q := (setReg_read_frame _ _ _ _ _ _).trans (setReg_read_frame _ _ _ _ _ _)
@[simp] theorem setReg64_read_eng (n o : Nat) (v : W64) (j : Nat) : (d.setReg64 n o v).eng j = d.eng j := (setReg_read_eng _ _ _ _ _).trans (setReg_read_eng _ _ _ _ _)
@[simp] theorem setReg64_read_lane (n o : Nat) (v : W64) (j : Nat) : (d.setReg64 n o v).lane j = d.lane j := (setReg_read_lane _ _ _ _ _).trans (setReg_read_lane _ _ _ _ _)
@[simp] theorem setReg128_read_isl (n o : Nat) (v : W128) (j : Nat) : (d.setReg128 n o v).isl j = d.isl j := (setReg64_read_isl _ _ _ _ _).trans (setReg64_read_isl _ _ _ _ _)
@[simp] theorem setReg128_read_bram (n o : Nat) (v : W128) (j : Nat) : (d.setReg128 n o v).bram j = d.bram j := (setReg64_read_bram _ _ _ _ _).trans (setReg64_read_bram _ _ _ _ _)
@[simp] theorem setReg128_read_slice (n o : Nat) (v : W128) (j : Nat) : (d.setReg128 n o v).slice j = d.slice j := (setReg64_read_slice _ _ _ _ _).trans (setReg64_read_slice _ _ _ _ _)
@[simp] theorem setReg128_read_row (n o : Nat) (v : W128) (j q : Nat) : (d.setReg128 n o v).row j q = d.row j q := (setReg64_read_row _ _ _ _ _ _).trans (setReg64_read_row _ _ _ _ _ _)
@[simp] theorem setReg128_read_ff (n o : Nat) (v : W128) (j q : Nat) : (d.setReg128 n o v).ff j q = d.ff j q := (setReg64_read_ff _ _ _ _ _ _).trans (setReg64_read_ff _ _ _ _ _ _)
@[simp] theorem setReg128_read_frame (n o : Nat) (v : W128) (j q : Nat) : (d.setReg128 n o v).frame j q = d.frame j q := (setReg64_read_frame _ _ _ _ _ _).trans (setReg64_read_frame _ _ _ _ _ _)
@[simp] theorem setReg128_read_eng (n o : Nat) (v : W128) (j : Nat) : (d.setReg128 n o v).eng j = d.eng j := (setReg64_read_eng _ _ _ _ _).trans (setReg64_read_eng _ _ _ _ _)
@[simp] theorem setReg128_read_lane (n o : Nat) (v : W128) (j : Nat) : (d.setReg128 n o v).lane j = d.lane j := (setReg64_read_lane _ _ _ _ _).trans (setReg64_read_lane _ _ _ _ _)
@[simp] theorem countFld_read_isl (n o lo w x : Nat) (j : Nat) : (d.countFld n o lo w x).isl j = d.isl j := rfl
@[simp] theorem countFld_read_bram (n o lo w x : Nat) (j : Nat) : (d.countFld n o lo w x).bram j = d.bram j := rfl
@[simp] theorem countFld_read_slice (n o lo w x : Nat) (j : Nat) : (d.countFld n o lo w x).slice j = d.slice j := rfl
@[simp] theorem countFld_read_row (n o lo w x : Nat) (j q : Nat) : (d.countFld n o lo w x).row j q = d.row j q := rfl
@[simp] theorem countFld_read_ff (n o lo w x : Nat) (j q : Nat) : (d.countFld n o lo w x).ff j q = d.ff j q := rfl
@[simp] theorem countFld_read_frame (n o lo w x : Nat) (j q : Nat) : (d.countFld n o lo w x).frame j q = d.frame j q := rfl
@[simp] theorem countFld_read_eng (n o lo w x : Nat) (j : Nat) : (d.countFld n o lo w x).eng j = d.eng j := rfl
@[simp] theorem countFld_read_lane (n o lo w x : Nat) (j : Nat) : (d.countFld n o lo w x).lane j = d.lane j := rfl
@[simp] theorem resetRegs_read_isl (n lo hi : Nat) (j : Nat) : (d.resetRegs n lo hi).isl j = d.isl j := rfl
@[simp] theorem resetRegs_read_bram (n lo hi : Nat) (j : Nat) : (d.resetRegs n lo hi).bram j = d.bram j := rfl
@[simp] theorem resetRegs_read_slice (n lo hi : Nat) (j : Nat) : (d.resetRegs n lo hi).slice j = d.slice j := rfl
@[simp] theorem resetRegs_read_row (n lo hi : Nat) (j q : Nat) : (d.resetRegs n lo hi).row j q = d.row j q := rfl
@[simp] theorem resetRegs_read_ff (n lo hi : Nat) (j q : Nat) : (d.resetRegs n lo hi).ff j q = d.ff j q := rfl
@[simp] theorem resetRegs_read_frame (n lo hi : Nat) (j q : Nat) : (d.resetRegs n lo hi).frame j q = d.frame j q := rfl
@[simp] theorem resetRegs_read_eng (n lo hi : Nat) (j : Nat) : (d.resetRegs n lo hi).eng j = d.eng j := rfl
@[simp] theorem resetRegs_read_lane (n lo hi : Nat) (j : Nat) : (d.resetRegs n lo hi).lane j = d.lane j := rfl
@[simp] theorem setIsl_read_reg (i : Nat) (x : Island) (n' o' : Nat) : (d.setIsl i x).reg n' o' = d.reg n' o' := rfl
@[simp] theorem setIsl_read_bram (i : Nat) (x : Island) (j : Nat) : (d.setIsl i x).bram j = d.bram j := rfl
@[simp] theorem setIsl_read_slice (i : Nat) (x : Island) (j : Nat) : (d.setIsl i x).slice j = d.slice j := rfl
@[simp] theorem setIsl_read_row (i : Nat) (x : Island) (j q : Nat) : (d.setIsl i x).row j q = d.row j q := rfl
@[simp] theorem setIsl_read_ff (i : Nat) (x : Island) (j q : Nat) : (d.setIsl i x).ff j q = d.ff j q := rfl
@[simp] theorem setIsl_read_frame (i : Nat) (x : Island) (j q : Nat) : (d.setIsl i x).frame j q = d.frame j q := rfl
@[simp] theorem setIsl_read_eng (i : Nat) (x : Island) (j : Nat) : (d.setIsl i x).eng j = d.eng j := rfl
@[simp] theorem setIsl_read_lane (i : Nat) (x : Island) (j : Nat) : (d.setIsl i x).lane j = d.lane j := rfl
@[simp] theorem updIsl_read_reg (i : Nat) (f : Island → Island) (n' o' : Nat) : (d.updIsl i f).reg n' o' = d.reg n' o' := rfl
@[simp] theorem updIsl_read_bram (i : Nat) (f : Island → Island) (j : Nat) : (d.updIsl i f).bram j = d.bram j := rfl
@[simp] theorem updIsl_read_slice (i : Nat) (f : Island → Island) (j : Nat) : (d.updIsl i f).slice j = d.slice j := rfl
@[simp] theorem updIsl_read_row (i : Nat) (f : Island → Island) (j q : Nat) : (d.updIsl i f).row j q = d.row j q := rfl
@[simp] theorem updIsl_read_ff (i : Nat) (f : Island → Island) (j q : Nat) : (d.updIsl i f).ff j q = d.ff j q := rfl
@[simp] theorem updIsl_read_frame (i : Nat) (f : Island → Island) (j q : Nat) : (d.updIsl i f).frame j q = d.frame j q := rfl
@[simp] theorem updIsl_read_eng (i : Nat) (f : Island → Island) (j : Nat) : (d.updIsl i f).eng j = d.eng j := rfl
@[simp] theorem updIsl_read_lane (i : Nat) (f : Island → Island) (j : Nat) : (d.updIsl i f).lane j = d.lane j := rfl
@[simp] theorem setBram_read_reg (k : Nat) (x : Bram) (n' o' : Nat) : (d.setBram k x).reg n' o' = d.reg n' o' := rfl
@[simp] theorem setBram_read_isl (k : Nat) (x : Bram) (j : Nat) : (d.setBram k x).isl j = d.isl j := rfl
@[simp] theorem setBram_read_slice (k : Nat) (x : Bram) (j : Nat) : (d.setBram k x).slice j = d.slice j := rfl
@[simp] theorem setBram_read_row (k : Nat) (x : Bram) (j q : Nat) : (d.setBram k x).row j q = d.row j q := rfl
@[simp] theorem setBram_read_ff (k : Nat) (x : Bram) (j q : Nat) : (d.setBram k x).ff j q = d.ff j q := rfl
@[simp] theorem setBram_read_frame (k : Nat) (x : Bram) (j q : Nat) : (d.setBram k x).frame j q = d.frame j q := rfl
@[simp] theorem setBram_read_eng (k : Nat) (x : Bram) (j : Nat) : (d.setBram k x).eng j = d.eng j := rfl
@[simp] theorem setBram_read_lane (k : Nat) (x : Bram) (j : Nat) : (d.setBram k x).lane j = d.lane j := rfl
@[simp] theorem setSlice_read_reg (k : Nat) (x : Slice) (n' o' : Nat) : (d.setSlice k x).reg n' o' = d.reg n' o' := rfl
@[simp] theorem setSlice_read_isl (k : Nat) (x : Slice) (j : Nat) : (d.setSlice k x).isl j = d.isl j := rfl
@[simp] theorem setSlice_read_bram (k : Nat) (x : Slice) (j : Nat) : (d.setSlice k x).bram j = d.bram j := rfl
@[simp] theorem setSlice_read_row (k : Nat) (x : Slice) (j q : Nat) : (d.setSlice k x).row j q = d.row j q := rfl
@[simp] theorem setSlice_read_ff (k : Nat) (x : Slice) (j q : Nat) : (d.setSlice k x).ff j q = d.ff j q := rfl
@[simp] theorem setSlice_read_frame (k : Nat) (x : Slice) (j q : Nat) : (d.setSlice k x).frame j q = d.frame j q := rfl
@[simp] theorem setSlice_read_eng (k : Nat) (x : Slice) (j : Nat) : (d.setSlice k x).eng j = d.eng j := rfl
@[simp] theorem setSlice_read_lane (k : Nat) (x : Slice) (j : Nat) : (d.setSlice k x).lane j = d.lane j := rfl
@[simp] theorem setRow_read_reg (k r : Nat) (v : Row) (n' o' : Nat) : (d.setRow k r v).reg n' o' = d.reg n' o' := rfl
@[simp] theorem setRow_read_isl (k r : Nat) (v : Row) (j : Nat) : (d.setRow k r v).isl j = d.isl j := rfl
@[simp] theorem setRow_read_bram (k r : Nat) (v : Row) (j : Nat) : (d.setRow k r v).bram j = d.bram j := rfl
@[simp] theorem setRow_read_slice (k r : Nat) (v : Row) (j : Nat) : (d.setRow k r v).slice j = d.slice j := rfl
@[simp] theorem setRow_read_ff (k r : Nat) (v : Row) (j q : Nat) : (d.setRow k r v).ff j q = d.ff j q := rfl
@[simp] theorem setRow_read_frame (k r : Nat) (v : Row) (j q : Nat) : (d.setRow k r v).frame j q = d.frame j q := rfl
@[simp] theorem setRow_read_eng (k r : Nat) (v : Row) (j : Nat) : (d.setRow k r v).eng j = d.eng j := rfl
@[simp] theorem setRow_read_lane (k r : Nat) (v : Row) (j : Nat) : (d.setRow k r v).lane j = d.lane j := rfl
@[simp] theorem setFf_read_reg (i c : Nat) (v : W64) (n' o' : Nat) : (d.setFf i c v).reg n' o' = d.reg n' o' := rfl
@[simp] theorem setFf_read_isl (i c : Nat) (v : W64) (j : Nat) : (d.setFf i c v).isl j = d.isl j := rfl
@[simp] theorem setFf_read_bram (i c : Nat) (v : W64) (j : Nat) : (d.setFf i c v).bram j = d.bram j := rfl
@[simp] theorem setFf_read_slice (i c : Nat) (v : W64) (j : Nat) : (d.setFf i c v).slice j = d.slice j := rfl
@[simp] theorem setFf_read_row (i c : Nat) (v : W64) (j q : Nat) : (d.setFf i c v).row j q = d.row j q := rfl
@[simp] theorem setFf_read_frame (i c : Nat) (v : W64) (j q : Nat) : (d.setFf i c v).frame j q = d.frame j q := rfl
@[simp] theorem setFf_read_eng (i c : Nat) (v : W64) (j : Nat) : (d.setFf i c v).eng j = d.eng j := rfl
@[simp] theorem setFf_read_lane (i c : Nat) (v : W64) (j : Nat) : (d.setFf i c v).lane j = d.lane j := rfl
@[simp] theorem setFrame_read_reg (i f : Nat) (v : FrameNodes) (n' o' : Nat) : (d.setFrame i f v).reg n' o' = d.reg n' o' := rfl
@[simp] theorem setFrame_read_isl (i f : Nat) (v : FrameNodes) (j : Nat) : (d.setFrame i f v).isl j = d.isl j := rfl
@[simp] theorem setFrame_read_bram (i f : Nat) (v : FrameNodes) (j : Nat) : (d.setFrame i f v).bram j = d.bram j := rfl
@[simp] theorem setFrame_read_slice (i f : Nat) (v : FrameNodes) (j : Nat) : (d.setFrame i f v).slice j = d.slice j := rfl
@[simp] theorem setFrame_read_row (i f : Nat) (v : FrameNodes) (j q : Nat) : (d.setFrame i f v).row j q = d.row j q := rfl
@[simp] theorem setFrame_read_ff (i f : Nat) (v : FrameNodes) (j q : Nat) : (d.setFrame i f v).ff j q = d.ff j q := rfl
@[simp] theorem setFrame_read_eng (i f : Nat) (v : FrameNodes) (j : Nat) : (d.setFrame i f v).eng j = d.eng j := rfl
@[simp] theorem setFrame_read_lane (i f : Nat) (v : FrameNodes) (j : Nat) : (d.setFrame i f v).lane j = d.lane j := rfl
@[simp] theorem setEng_read_reg (e : Nat) (x : Engine) (n' o' : Nat) : (d.setEng e x).reg n' o' = d.reg n' o' := rfl
@[simp] theorem setEng_read_isl (e : Nat) (x : Engine) (j : Nat) : (d.setEng e x).isl j = d.isl j := rfl
@[simp] theorem setEng_read_bram (e : Nat) (x : Engine) (j : Nat) : (d.setEng e x).bram j = d.bram j := rfl
@[simp] theorem setEng_read_slice (e : Nat) (x : Engine) (j : Nat) : (d.setEng e x).slice j = d.slice j := rfl
@[simp] theorem setEng_read_row (e : Nat) (x : Engine) (j q : Nat) : (d.setEng e x).row j q = d.row j q := rfl
@[simp] theorem setEng_read_ff (e : Nat) (x : Engine) (j q : Nat) : (d.setEng e x).ff j q = d.ff j q := rfl
@[simp] theorem setEng_read_frame (e : Nat) (x : Engine) (j q : Nat) : (d.setEng e x).frame j q = d.frame j q := rfl
@[simp] theorem setEng_read_lane (e : Nat) (x : Engine) (j : Nat) : (d.setEng e x).lane j = d.lane j := rfl
@[simp] theorem updEng_read_reg (e : Nat) (f : Engine → Engine) (n' o' : Nat) : (d.updEng e f).reg n' o' = d.reg n' o' := rfl
@[simp] theorem updEng_read_isl (e : Nat) (f : Engine → Engine) (j : Nat) : (d.updEng e f).isl j = d.isl j := rfl
@[simp] theorem updEng_read_bram (e : Nat) (f : Engine → Engine) (j : Nat) : (d.updEng e f).bram j = d.bram j := rfl
@[simp] theorem updEng_read_slice (e : Nat) (f : Engine → Engine) (j : Nat) : (d.updEng e f).slice j = d.slice j := rfl
@[simp] theorem updEng_read_row (e : Nat) (f : Engine → Engine) (j q : Nat) : (d.updEng e f).row j q = d.row j q := rfl
@[simp] theorem updEng_read_ff (e : Nat) (f : Engine → Engine) (j q : Nat) : (d.updEng e f).ff j q = d.ff j q := rfl
@[simp] theorem updEng_read_frame (e : Nat) (f : Engine → Engine) (j q : Nat) : (d.updEng e f).frame j q = d.frame j q := rfl
@[simp] theorem updEng_read_lane (e : Nat) (f : Engine → Engine) (j : Nat) : (d.updEng e f).lane j = d.lane j := rfl
@[simp] theorem setLane_read_reg (g : Nat) (x : Lane) (n' o' : Nat) : (d.setLane g x).reg n' o' = d.reg n' o' := rfl
@[simp] theorem setLane_read_isl (g : Nat) (x : Lane) (j : Nat) : (d.setLane g x).isl j = d.isl j := rfl
@[simp] theorem setLane_read_bram (g : Nat) (x : Lane) (j : Nat) : (d.setLane g x).bram j = d.bram j := rfl
@[simp] theorem setLane_read_slice (g : Nat) (x : Lane) (j : Nat) : (d.setLane g x).slice j = d.slice j := rfl
@[simp] theorem setLane_read_row (g : Nat) (x : Lane) (j q : Nat) : (d.setLane g x).row j q = d.row j q := rfl
@[simp] theorem setLane_read_ff (g : Nat) (x : Lane) (j q : Nat) : (d.setLane g x).ff j q = d.ff j q := rfl
@[simp] theorem setLane_read_frame (g : Nat) (x : Lane) (j q : Nat) : (d.setLane g x).frame j q = d.frame j q := rfl
@[simp] theorem setLane_read_eng (g : Nat) (x : Lane) (j : Nat) : (d.setLane g x).eng j = d.eng j := rfl
@[simp] theorem emit_read_reg (e : Emit) (n' o' : Nat) : (d.emit e).reg n' o' = d.reg n' o' := rfl
@[simp] theorem emit_read_isl (e : Emit) (j : Nat) : (d.emit e).isl j = d.isl j := rfl
@[simp] theorem emit_read_bram (e : Emit) (j : Nat) : (d.emit e).bram j = d.bram j := rfl
@[simp] theorem emit_read_slice (e : Emit) (j : Nat) : (d.emit e).slice j = d.slice j := rfl
@[simp] theorem emit_read_row (e : Emit) (j q : Nat) : (d.emit e).row j q = d.row j q := rfl
@[simp] theorem emit_read_ff (e : Emit) (j q : Nat) : (d.emit e).ff j q = d.ff j q := rfl
@[simp] theorem emit_read_frame (e : Emit) (j q : Nat) : (d.emit e).frame j q = d.frame j q := rfl
@[simp] theorem emit_read_eng (e : Emit) (j : Nat) : (d.emit e).eng j = d.eng j := rfl
@[simp] theorem emit_read_lane (e : Emit) (j : Nat) : (d.emit e).lane j = d.lane j := rfl
@[simp] theorem inject_read_reg (n u : Nat) (p : Pkt) (n' o' : Nat) : (d.inject n u p).reg n' o' = d.reg n' o' := rfl
@[simp] theorem inject_read_isl (n u : Nat) (p : Pkt) (j : Nat) : (d.inject n u p).isl j = d.isl j := rfl
@[simp] theorem inject_read_bram (n u : Nat) (p : Pkt) (j : Nat) : (d.inject n u p).bram j = d.bram j := rfl
@[simp] theorem inject_read_slice (n u : Nat) (p : Pkt) (j : Nat) : (d.inject n u p).slice j = d.slice j := rfl
@[simp] theorem inject_read_row (n u : Nat) (p : Pkt) (j q : Nat) : (d.inject n u p).row j q = d.row j q := rfl
@[simp] theorem inject_read_ff (n u : Nat) (p : Pkt) (j q : Nat) : (d.inject n u p).ff j q = d.ff j q := rfl
@[simp] theorem inject_read_frame (n u : Nat) (p : Pkt) (j q : Nat) : (d.inject n u p).frame j q = d.frame j q := rfl
@[simp] theorem inject_read_eng (n u : Nat) (p : Pkt) (j : Nat) : (d.inject n u p).eng j = d.eng j := rfl
@[simp] theorem inject_read_lane (n u : Nat) (p : Pkt) (j : Nat) : (d.inject n u p).lane j = d.lane j := rfl
@[simp] theorem eventP_read_reg (n s c r b t : Nat) (p0 p1 p2 p3 : Word) (n' o' : Nat) : (d.eventP n s c r b t p0 p1 p2 p3).reg n' o' = d.reg n' o' := rfl
@[simp] theorem eventP_read_isl (n s c r b t : Nat) (p0 p1 p2 p3 : Word) (j : Nat) : (d.eventP n s c r b t p0 p1 p2 p3).isl j = d.isl j := rfl
@[simp] theorem eventP_read_bram (n s c r b t : Nat) (p0 p1 p2 p3 : Word) (j : Nat) : (d.eventP n s c r b t p0 p1 p2 p3).bram j = d.bram j := rfl
@[simp] theorem eventP_read_slice (n s c r b t : Nat) (p0 p1 p2 p3 : Word) (j : Nat) : (d.eventP n s c r b t p0 p1 p2 p3).slice j = d.slice j := rfl
@[simp] theorem eventP_read_row (n s c r b t : Nat) (p0 p1 p2 p3 : Word) (j q : Nat) : (d.eventP n s c r b t p0 p1 p2 p3).row j q = d.row j q := rfl
@[simp] theorem eventP_read_ff (n s c r b t : Nat) (p0 p1 p2 p3 : Word) (j q : Nat) : (d.eventP n s c r b t p0 p1 p2 p3).ff j q = d.ff j q := rfl
@[simp] theorem eventP_read_frame (n s c r b t : Nat) (p0 p1 p2 p3 : Word) (j q : Nat) : (d.eventP n s c r b t p0 p1 p2 p3).frame j q = d.frame j q := rfl
@[simp] theorem eventP_read_eng (n s c r b t : Nat) (p0 p1 p2 p3 : Word) (j : Nat) : (d.eventP n s c r b t p0 p1 p2 p3).eng j = d.eng j := rfl
@[simp] theorem eventP_read_lane (n s c r b t : Nat) (p0 p1 p2 p3 : Word) (j : Nat) : (d.eventP n s c r b t p0 p1 p2 p3).lane j = d.lane j := rfl
@[simp] theorem event_read_reg (n c r b o : Nat) (n' o' : Nat) : (d.event n c r b o).reg n' o' = d.reg n' o' := rfl
@[simp] theorem event_read_isl (n c r b o : Nat) (j : Nat) : (d.event n c r b o).isl j = d.isl j := rfl
@[simp] theorem event_read_bram (n c r b o : Nat) (j : Nat) : (d.event n c r b o).bram j = d.bram j := rfl
@[simp] theorem event_read_slice (n c r b o : Nat) (j : Nat) : (d.event n c r b o).slice j = d.slice j := rfl
@[simp] theorem event_read_row (n c r b o : Nat) (j q : Nat) : (d.event n c r b o).row j q = d.row j q := rfl
@[simp] theorem event_read_ff (n c r b o : Nat) (j q : Nat) : (d.event n c r b o).ff j q = d.ff j q := rfl
@[simp] theorem event_read_frame (n c r b o : Nat) (j q : Nat) : (d.event n c r b o).frame j q = d.frame j q := rfl
@[simp] theorem event_read_eng (n c r b o : Nat) (j : Nat) : (d.event n c r b o).eng j = d.eng j := rfl
@[simp] theorem event_read_lane (n c r b o : Nat) (j : Nat) : (d.event n c r b o).lane j = d.lane j := rfl
@[simp] theorem sticky_read_isl (n c r b o : Nat) (j : Nat) : (d.sticky n c r b o).isl j = d.isl j := rfl
@[simp] theorem sticky_read_bram (n c r b o : Nat) (j : Nat) : (d.sticky n c r b o).bram j = d.bram j := rfl
@[simp] theorem sticky_read_slice (n c r b o : Nat) (j : Nat) : (d.sticky n c r b o).slice j = d.slice j := rfl
@[simp] theorem sticky_read_row (n c r b o : Nat) (j q : Nat) : (d.sticky n c r b o).row j q = d.row j q := rfl
@[simp] theorem sticky_read_ff (n c r b o : Nat) (j q : Nat) : (d.sticky n c r b o).ff j q = d.ff j q := rfl
@[simp] theorem sticky_read_frame (n c r b o : Nat) (j q : Nat) : (d.sticky n c r b o).frame j q = d.frame j q := rfl
@[simp] theorem sticky_read_eng (n c r b o : Nat) (j : Nat) : (d.sticky n c r b o).eng j = d.eng j := rfl
@[simp] theorem sticky_read_lane (n c r b o : Nat) (j : Nat) : (d.sticky n c r b o).lane j = d.lane j := rfl
@[simp] theorem cause_read_isl (i k : Nat) (j : Nat) : (d.cause i k).isl j = d.isl j := rfl
@[simp] theorem cause_read_bram (i k : Nat) (j : Nat) : (d.cause i k).bram j = d.bram j := rfl
@[simp] theorem cause_read_slice (i k : Nat) (j : Nat) : (d.cause i k).slice j = d.slice j := rfl
@[simp] theorem cause_read_row (i k : Nat) (j q : Nat) : (d.cause i k).row j q = d.row j q := rfl
@[simp] theorem cause_read_ff (i k : Nat) (j q : Nat) : (d.cause i k).ff j q = d.ff j q := rfl
@[simp] theorem cause_read_frame (i k : Nat) (j q : Nat) : (d.cause i k).frame j q = d.frame j q := rfl
@[simp] theorem cause_read_eng (i k : Nat) (j : Nat) : (d.cause i k).eng j = d.eng j := rfl
@[simp] theorem cause_read_lane (i k : Nat) (j : Nat) : (d.cause i k).lane j = d.lane j := rfl
@[simp] theorem islEvent_read_isl (i k c r b o : Nat) (j : Nat) : (d.islEvent i k c r b o).isl j = d.isl j := (cause_read_isl _ _ _ _).trans (sticky_read_isl _ _ _ _ _ _ _)
@[simp] theorem islEvent_read_bram (i k c r b o : Nat) (j : Nat) : (d.islEvent i k c r b o).bram j = d.bram j := (cause_read_bram _ _ _ _).trans (sticky_read_bram _ _ _ _ _ _ _)
@[simp] theorem islEvent_read_slice (i k c r b o : Nat) (j : Nat) : (d.islEvent i k c r b o).slice j = d.slice j := (cause_read_slice _ _ _ _).trans (sticky_read_slice _ _ _ _ _ _ _)
@[simp] theorem islEvent_read_row (i k c r b o : Nat) (j q : Nat) : (d.islEvent i k c r b o).row j q = d.row j q := (cause_read_row _ _ _ _ _).trans (sticky_read_row _ _ _ _ _ _ _ _)
@[simp] theorem islEvent_read_ff (i k c r b o : Nat) (j q : Nat) : (d.islEvent i k c r b o).ff j q = d.ff j q := (cause_read_ff _ _ _ _ _).trans (sticky_read_ff _ _ _ _ _ _ _ _)
@[simp] theorem islEvent_read_frame (i k c r b o : Nat) (j q : Nat) : (d.islEvent i k c r b o).frame j q = d.frame j q := (cause_read_frame _ _ _ _ _).trans (sticky_read_frame _ _ _ _ _ _ _ _)
@[simp] theorem islEvent_read_eng (i k c r b o : Nat) (j : Nat) : (d.islEvent i k c r b o).eng j = d.eng j := (cause_read_eng _ _ _ _).trans (sticky_read_eng _ _ _ _ _ _ _)
@[simp] theorem islEvent_read_lane (i k c r b o : Nat) (j : Nat) : (d.islEvent i k c r b o).lane j = d.lane j := (cause_read_lane _ _ _ _).trans (sticky_read_lane _ _ _ _ _ _ _)

/-! #### Reads after writes of the same part -/

@[simp] theorem reg_setReg (n o : Nat) (v : Word) : (d.setReg n o v).reg n o = v := tget_tput_self _ _ _ _
theorem reg_setReg_other (n o n' o' : Nat) (v : Word) (h : ctlOff n' o' ≠ ctlOff n o) : (d.setReg n o v).reg n' o' = d.reg n' o' :=
  tget_tput_other _ _ _ _ _ _ h

@[simp] theorem isl_setIsl (i : Nat) (x : Island) : (d.setIsl i x).isl i = x := tget_tput_self _ _ _ _
theorem isl_setIsl_other (i j : Nat) (x : Island) (h : j ≠ i) : (d.setIsl i x).isl j = d.isl j := tget_tput_other _ _ _ _ _ _ h
@[simp] theorem isl_updIsl (i : Nat) (f : Island → Island) : (d.updIsl i f).isl i = f (d.isl i) := tget_tput_self _ _ _ _
theorem isl_updIsl_other (i j : Nat) (f : Island → Island) (h : j ≠ i) : (d.updIsl i f).isl j = d.isl j := tget_tput_other _ _ _ _ _ _ h

@[simp] theorem bram_setBram (k : Nat) (x : Bram) : (d.setBram k x).bram k = x := tget_tput_self _ _ _ _
theorem bram_setBram_other (k j : Nat) (x : Bram) (h : j ≠ k) : (d.setBram k x).bram j = d.bram j := tget_tput_other _ _ _ _ _ _ h

@[simp] theorem slice_setSlice (k : Nat) (x : Slice) : (d.setSlice k x).slice k = x := tget_tput_self _ _ _ _
theorem slice_setSlice_other (k j : Nat) (x : Slice) (h : j ≠ k) : (d.setSlice k x).slice j = d.slice j := tget_tput_other _ _ _ _ _ _ h

@[simp] theorem row_setRow (k r : Nat) (v : Row) : (d.setRow k r v).row k r = v := tget_tput_self _ _ _ _
theorem row_setRow_other (k r j q : Nat) (v : Row) (h : j * 512 + q ≠ k * 512 + r) : (d.setRow k r v).row j q = d.row j q :=
  tget_tput_other _ _ _ _ _ _ h

@[simp] theorem ff_setFf (i c : Nat) (v : W64) : (d.setFf i c v).ff i c = v := tget_tput_self _ _ _ _
theorem ff_setFf_other (i c j q : Nat) (v : W64) (h : j * 4800 + q ≠ i * 4800 + c) : (d.setFf i c v).ff j q = d.ff j q :=
  tget_tput_other _ _ _ _ _ _ h

@[simp] theorem frame_setFrame (i f : Nat) (v : FrameNodes) : (d.setFrame i f v).frame i f = v := tget_tput_self _ _ _ _
theorem frame_setFrame_other (i f j q : Nat) (v : FrameNodes) (h : j * 4608 + q ≠ i * 4608 + f) : (d.setFrame i f v).frame j q = d.frame j q :=
  tget_tput_other _ _ _ _ _ _ h

@[simp] theorem eng_setEng (e : Nat) (x : Engine) : (d.setEng e x).eng e = x := tget_tput_self _ _ _ _
theorem eng_setEng_other (e j : Nat) (x : Engine) (h : j ≠ e) : (d.setEng e x).eng j = d.eng j := tget_tput_other _ _ _ _ _ _ h
@[simp] theorem eng_updEng (e : Nat) (f : Engine → Engine) : (d.updEng e f).eng e = f (d.eng e) := tget_tput_self _ _ _ _
theorem eng_updEng_other (e j : Nat) (f : Engine → Engine) (h : j ≠ e) : (d.updEng e f).eng j = d.eng j := tget_tput_other _ _ _ _ _ _ h

@[simp] theorem lane_setLane (g : Nat) (x : Lane) : (d.setLane g x).lane g = x := tget_tput_self _ _ _ _
theorem lane_setLane_other (g j : Nat) (x : Lane) (h : j ≠ g) : (d.setLane g x).lane j = d.lane j := tget_tput_other _ _ _ _ _ _ h

@[simp] theorem emit_out (e : Emit) : (d.emit e).out = e :: d.out := rfl

/-! #### Every write keeps the canonical form of its table -/

theorem setRow_wf (k r : Nat) (v : Row) (h : Memory.wf d.rows 0 = true) : Memory.wf (d.setRow k r v).rows 0 = true := tput_wf _ _ _ _ h
theorem setIsl_wf (i : Nat) (x : Island) (h : Memory.wf d.islands {} = true) : Memory.wf (d.setIsl i x).islands {} = true := tput_wf _ _ _ _ h
theorem setBram_wf (k : Nat) (x : Bram) (h : Memory.wf d.brams {} = true) : Memory.wf (d.setBram k x).brams {} = true := tput_wf _ _ _ _ h
theorem setEng_wf (e : Nat) (x : Engine) (h : Memory.wf d.engines {} = true) : Memory.wf (d.setEng e x).engines {} = true := tput_wf _ _ _ _ h

end Sys2Proof.Laws
end

