-- ==== Sys2Proof/Laws/Engine.lean ====
section
/-! SUPPORT. What running one engine instruction does: where the engine is ready the command is its body, and a body that only writes
registers commits. -/

namespace Sys2Proof.Laws

open Sys2Proof.Machine Sys2Proof.Safety

variable {d : Dev} {e : Nat}

@[simp] theorem setEng_setEng (d : Dev) (e : Nat) (x y : Engine) : (d.setEng e x).setEng e y = d.setEng e y := by
  simp [Dev.setEng]

@[simp] theorem sramRead_sound (d : Dev) (e : Nat) (isI : Bool) (w : Nat) (h : (d.eng e).sramErr isI w = 0) :
    sramRead d e isI w = (d, some ((d.eng e).sramWord isI w)) := by
  have : flips 0#39 = 0 := by decide
  simp [sramRead, h, this]

/-- A ready engine runs the instruction's body. -/
theorem engRun_ready {i : EngInstr} {body : Dev → Dev} (h : Ready d e i) : engRun d e i body = body d := by
  obtain ⟨h1, h2, h3, h4, h5, h6, h7, -, -⟩ := h
  simp [engRun, h1, h2, h3, Nat.not_le.2 h4, sramRead_sound _ _ _ _ h5, h6, h7]

/-- With no step and no halt asked for, an instruction that only writes registers commits them. -/
theorem engReg_commits {f : Engine → Engine} (hs : (f (d.eng e)).stepping = false) (hh : (f (d.eng e)).haltReq = false)
    (hi : (f (d.eng e)).instrs = (d.eng e).instrs) : engReg d e f = committed d e (f (d.eng e)) (d.eng e).pc4 := by
  simp [engReg, engCommit, committed, hs, hh, hi]

theorem engCommit_commits {npc : Word} (hs : (d.eng e).stepping = false) (hh : (d.eng e).haltReq = false) :
    engCommit d e npc = committed d e (d.eng e) npc := by
  simp [engCommit, committed, hs, hh]

theorem engCommit_setEng {x : Engine} {npc : Word} (hs : x.stepping = false) (hh : x.haltReq = false)
    (hi : x.instrs = (d.eng e).instrs) : engCommit (d.setEng e x) e npc = committed d e x npc := by
  simp [engCommit, committed, hs, hh, hi]

@[simp] theorem setG_stepping (x : Engine) (r : GReg) (v : Word) : (x.setG r v).stepping = x.stepping := by
  unfold Engine.setG; split <;> rfl
@[simp] theorem setG_haltReq (x : Engine) (r : GReg) (v : Word) : (x.setG r v).haltReq = x.haltReq := by
  unfold Engine.setG; split <;> rfl
@[simp] theorem setG_instrs (x : Engine) (r : GReg) (v : Word) : (x.setG r v).instrs = x.instrs := by
  unfold Engine.setG; split <;> rfl
@[simp] theorem setG_pc (x : Engine) (r : GReg) (v : Word) : (x.setG r v).pc = x.pc := by
  unfold Engine.setG; split <;> rfl
@[simp] theorem setV_stepping (x : Engine) (r : VReg) (v : W128) : (x.setV r v).stepping = x.stepping := rfl
@[simp] theorem setV_haltReq (x : Engine) (r : VReg) (v : W128) : (x.setV r v).haltReq = x.haltReq := rfl
@[simp] theorem setV_instrs (x : Engine) (r : VReg) (v : W128) : (x.setV r v).instrs = x.instrs := rfl

/-- A read of a general register after a write: g0 stays 0, any other holds the value written. -/
theorem gr_setG (x : Engine) (r q : GReg) (v : Word) : (x.setG r v).gr q = if q = 0 then 0 else if q = r then v else x.gr q := by
  unfold Engine.setG Engine.gr
  by_cases hq : q = 0#5
  · simp [hq]
  · by_cases hr : r = 0#5
    · have : ¬ q = 0#5 := hq
      simp [hq, hr]
    · by_cases hqr : q = r
      · subst hqr
        simp [hr]
      · have : q.toNat ≠ r.toNat := fun h => hqr (BitVec.eq_of_toNat_eq h)
        simp [hq, hr, hqr, tget_tput_other _ _ _ _ _ _ this]

/-! ### Requests -/

/-- A request to an address that has a node joins the injection queue, and is outstanding where a response is due. -/
theorem request_eq {node unit cmd tag len prio route page dest : Nat} {rr : Bool} {tenant addr : Nat} {data : List W128}
    (h : destOf d addr = some dest) :
    d.request node unit cmd tag len prio route page rr tenant addr data =
      ({ d with noc := { d.noc with
          inject := d.noc.inject ++ [(node, unit, ⟨mkHdr dest node cmd tag len prio tenant (d.epoch node) route page rr addr, data, false⟩)],
          outst := if rr then d.noc.outst ++ [⟨node, unit, tag, cmd, addr, answerUnits cmd len⟩] else d.noc.outst } }, none) := by
  unfold Dev.request
  rw [h]

theorem onAperture_at (k o : Nat) (f : Nat → Nat → Dev) (g : Dev) : onAperture (.aperture k o) f g = f k o := rfl

theorem engIssue_on {i : EngInstr} {cmd len : Nat} {rr : Bool} {data : List W128} :
    engIssue d e i cmd len rr data = onAperture (locOf (dataAddr (d.eng e) i)) (engIssueAt d e i cmd len rr data) d := rfl

theorem onAperture_eq {l : Loc} {i : EngInstr} {cmd len k o : Nat} {rr : Bool} {data : List W128} (hl : l = .aperture k o) :
    onAperture l (engIssueAt d e i cmd len rr data) d = engIssueAt d e i cmd len rr data k o := by
  subst hl
  exact onAperture_at _ _ _ _

theorem engIssue_at {i : EngInstr} {cmd len k o : Nat} {rr : Bool} {data : List W128} (hl : locOf (dataAddr (d.eng e) i) = .aperture k o) :
    engIssue d e i cmd len rr data = engIssueAt d e i cmd len rr data k o :=
  engIssue_on.trans (onAperture_eq hl)

/-- An access that needs a response leaves the engine waiting for it. -/
theorem engIssue_waits {i : EngInstr} {cmd len k o dest : Nat} {data : List W128}
    (hl : locOf (dataAddr (d.eng e) i) = .aperture k o) (hd : destOf d ((d.eng e).apAddr k o) = some dest) :
    engIssue d e i cmd len true data = requested d e dest cmd len k o true data (waitsFor (d.eng e) i) := by
  rw [engIssue_at hl]
  unfold engIssueAt
  rw [if_pos rfl]
  unfold engAsk
  rw [request_eq hd, Option.elim_none]
  rfl

/-- A posted access commits where the posted queue has room. -/
theorem engIssue_posts {i : EngInstr} {cmd len k o dest : Nat} {data : List W128}
    (hl : locOf (dataAddr (d.eng e) i) = .aperture k o) (hd : destOf d ((d.eng e).apAddr k o) = some dest)
    (hp : postedLevel d (engNode e) (engUnit e) < 16) (hs : (d.eng e).stepping = false) (hh : (d.eng e).haltReq = false) :
    engIssue d e i cmd len false data = requested d e dest cmd len k o false data (onward (d.eng e)) := by
  rw [engIssue_at hl]
  unfold engIssueAt
  rw [if_neg (by simp), if_neg (Nat.not_le.2 hp)]
  unfold engAsk
  rw [request_eq hd]
  exact engCommit_commits hs hh

/-- A posted access waits for room. -/
theorem engIssue_full {i : EngInstr} {cmd len k o : Nat} {data : List W128} (hl : locOf (dataAddr (d.eng e) i) = .aperture k o)
    (hp : 16 ≤ postedLevel d (engNode e) (engUnit e)) : engIssue d e i cmd len false data = d.setEng e (waitsFor (d.eng e) i) := by
  rw [engIssue_at hl]
  unfold engIssueAt
  rw [if_neg (by simp), if_pos hp]
  rfl

end Sys2Proof.Laws
end

