-- ==== Sys2Proof/Laws/Units.lean ====
section
/-! SUPPORT. What the operations that several units share can do: a request answered inside its command, the Cox's access at a slot's
address, the outputs of an island's banks, a trigger disarmed. -/

namespace Sys2Proof.Laws

open Sys2Proof.Machine

variable {d : Dev}

/-- A request answered inside its command counts in its node's statistics, draws one free value and leaves as one packet; nothing else
changes (R355). -/
theorem asked_changes (src dest cmd len tenant addr : Nat) (data : List W128) :
    ∃ st p, d.asked src dest cmd len tenant addr data =
      { d with free := d.free + 1, noc := { d.noc with stat := st }, out := .asked p :: d.out } := ⟨_, _, rfl⟩

/-- Units put into DRAM change channels only. -/
theorem dramPut_changes (a : Nat) (l : List W128) : ∃ x, dramPut d a l = { d with drams := x } := by
  unfold dramPut
  generalize l.zipIdx = m
  induction m generalizing d with
  | nil => exact ⟨_, rfl⟩
  | cons e m ih =>
    rw [List.foldl_cons]
    split
    · obtain ⟨x, hx⟩ := ih (d := d.setDram _ _)
      exact ⟨x, hx⟩
    · exact ih

/-- A write of the Cox at an address that is refused ends with the refusal's status and writes nothing (R549). -/
theorem coxPut_refused {t a : Nat} {l : List W128} {e : Nat × Status} (h : coxRefused d t a (16 * l.length) = some e) :
    coxPut d t a l = (coxRefusal d t e, e.2) := by simp [coxPut, h]

/-- One that is not refused is OK. -/
theorem coxPut_ok {t a : Nat} {l : List W128} (h : coxRefused d t a (16 * l.length) = none) : (coxPut d t a l).2 = .ok := by
  simp [coxPut, h]

/-- Clearing an island's pin words leaves those of other islands' banks. -/
theorem padsClear_other (old : Dev) (i n : Nat) (h : bankUser old n ≠ some i) :
    tget (padsClear old d i).pinEn 0 n = tget d.pinEn 0 n ∧ tget (padsClear old d i).pinOut 0 n = tget d.pinOut 0 n := by
  have key (t : Tab (BitVec 48)) : tget (t.filter (fun e => bankUser old e.1 ≠ some i)) 0 n = tget t 0 n := by
    induction t with
    | nil => rfl
    | cons e t ih =>
      rw [List.filter_cons]
      by_cases hn : e.1 = n
      · have : decide (bankUser old e.1 ≠ some i) = true := by simpa [hn] using h
        rw [if_pos this, tget_cons, tget_cons, if_pos hn, if_pos hn]
      · split
        · rw [tget_cons, tget_cons, if_neg hn, if_neg hn, ih]
        · rw [tget_cons, if_neg hn, ih]
  exact ⟨key _, key _⟩

/-- A disarmed trigger keeps its counts and its samples. -/
theorem trgDisarm_isl (i : Nat) : (trgDisarm d i).isl i = { d.isl i with armed := false } := by
  simp [trgDisarm]

end Sys2Proof.Laws
end

