-- ==== Sys2Proof/Machine/Firmware.lean ====
section
/-! DEFINITION. The two policies of Dyresar's service firmware that the spec writes out (R203, R521), as the register writes a system
engine sends in one pass. The hardware decides nothing here: the writes reach it as commands like any other. -/

namespace Sys2Proof.Machine

/-- One tenant's new limit in MHz (R203): `f` the limit in force, `p` the 1 ms average and `cap` the cap, both in mW, `fMax` the
highest f_close among the tenant's islands. -/
def governorLimit (f cap p fMax : Nat) : Nat :=
  max 25 (if cap < p then f * cap / p else if p < cap * 95 / 100 then min (f * 105 / 100) fMax else f)

/-- The islands of tenant `t`. -/
def tenantIslands (d : Dev) (t : Nat) : List Isl := (List.finRange 256).filter (fun i => d.owner i.val = t)

/-- The device is above PWR_CAP while every tenant is within its own cap (R203). -/
def ownerYields (d : Dev) (avg : List Nat) : Bool :=
  devOver d && (List.range 16).all (fun t => t = 0 || tenCap d t = 0 || avg.getD t 0 ≤ tenCap d t)

/-- The writes of ISL_CLK_LIMIT in one window of the governor at system engine `r` (R203, R192): `avg` and `f` are the averages and the
limits in force by tenant. A tenant without cap or islands is passed over, and a joined island is left alone; where only the device is
above its cap, the Owner's islands come down with it. DEDUCED: log entry 116; DESIGN CHOICE: log entry 137. -/
def governorPass (d : Dev) (r : Req) (avg f : List Nat) : List Instr :=
  (List.range 16).flatMap (fun t =>
    let cap := tenCap d t
    let is := tenantIslands d t
    let yields := t = 0 && ownerYields d avg
    if cap = 0 && !yields then [] else
    let fMax := is.foldl (fun m i => max m (d.isl i.val).setup.fClose) 0
    let own := if cap = 0 then f.getD t 0 else governorLimit (f.getD t 0) cap (avg.getD t 0) fMax
    let limit := if yields then min own (max 25 (f.getD t 0 * (100 * d.fld 0x146 R.PWR_CAP 0 16) / d.fld 0x146 R.PWR_DEV_POWER 0 20)) else own
    (is.filter (fun i => !isJoined d i.val)).map (fun i => .islClkLimitWrite r i (BitVec.ofNat 32 limit)))

/-- The write of SCB_PASS of quarter `q` after 10 s with these counts of node repairs and bit upsets (R521). DEDUCED: log entry 116. -/
def scrubPolicy (r : Req) (q : Fin 4) (repairs upsets : Nat) : Instr :=
  let rate := (repairs + 4 * upsets) / 10
  let ms := if 20 < rate then max 15 (50 * 20 / rate) else 50
  .registerWrite r ⟨0x164 + q.val, by omega⟩ (BitVec.ofNat 16 R.SCB_PASS) (BitVec.ofNat 32 (ms * 1000))

end Sys2Proof.Machine
end

