-- ==== Sys2Proof/Tests/Slice0.lean ====
section
/-! SUPPORT. The model's own tests: ill-formed commands refused, words and worked examples of the spec, and for every statement with
hypotheses states and operands that meet them. -/

namespace Sys2Proof.Tests

set_option Elab.async false

open Sys2Proof.Machine Sys2Proof.Safety


/-! ### Ill-formed commands (WellFormed.lean), one for each check -/

theorem test_wf_banks : (Instr.strokeBegin 7 0 [(30, 0)]).wf = false ∧ (Instr.strokeBegin 7 0 [(3, 0), (3, 1)]).wf = false
    ∧ (Instr.strokeBegin 7 0 [(29, 0), (3, 0)]).wf = true := by decide
theorem test_wf_scan : (Instr.extest [(30, 0, 0)]).wf = false ∧ (Instr.samplePreload [(30, 0, 0)]).wf = false
    ∧ (Instr.extestPulse [(1, 0, 0), (1, 0, 0)]).wf = false ∧ (Instr.extestTrain [(31, 0, 0)]).wf = false ∧ Instr.idcode.wf = true := by decide
theorem test_wf_words : (Instr.settleDone 7 [(32, 0, 0)]).wf = false ∧ (Instr.settleMonitorSample 7 [(31, 8, 0)]).wf = false
    ∧ (Instr.settleDone 7 [(31, 7, 0)]).wf = true := by decide
theorem test_wf_power : (Instr.powerSample [(46, 0, 0)] [] []).wf = false ∧ (Instr.powerSample [] [(64, 0)] []).wf = false
    ∧ (Instr.powerSample [] [] [(256, 0)]).wf = false ∧ (Instr.powerSample [(45, 0, 0)] [(63, 0)] [(255, 0)]).wf = true := by decide
theorem test_wf_edges : (Instr.groupClockEdge 0 1 true [] [] [] []).wf = false ∧ (Instr.groupClockEdge 1 1 true [] [(256, 0)] [] []).wf = false
    ∧ (Instr.groupClockEdge 1 1 true [] [(7, 76800)] [] []).wf = false ∧ (Instr.groupClockEdge 1 1 true [] [] [(7, 32)] []).wf = false
    ∧ (Instr.groupClockEdge 1 1 true [] [] [] [(7, 32, 0)]).wf = false ∧ (Instr.groupClockEdge 1 1 true [] [] [] []).wf = true := by decide
theorem test_wf_dram : (Instr.dramError 0 (2 ^ 37) 1).wf = false ∧ (Instr.dramError 0 (2 ^ 37 - 1) 1).wf = true := by decide
/-- A packet of a command to island 7. -/
def plain (cmd : Nat) : Pkt := ⟨mkHdr 7 3 cmd 0 0 0 0 0 0 0 true 0, [], false⟩
/-- Every packet row refuses a packet with another row's code. -/
def packetRows : List (Nat × (Pkt → Instr)) := [(1, .rd), (2, .rd1), (3, .rd2), (4, .rd4), (8, .wr), (9, .wr1), (0xA, .wr2), (0xB, .wr4), (0xC, .swap),
  (0xD, .fadd), (0x10, .rpush), (0x11, .rpop), (0x14, .notify), (0x18, .stroke), (0x19, .sack), (0x20, (.frwr · 0 0)), (0x21, (.frrd · 0)), (0x22, (.frfix · 0)),
  (0x24, .catrd), (0x25, (.catwr · false 0 0)), (0x28, .zero)]
theorem test_wf_packets : packetRows.all (fun r => packetRows.all (fun q => (r.2 (plain q.1)).wf == (r.1 == q.1))) := by decide +kernel
theorem test_wf_units : (Instr.wr { plain 8 with data := List.replicate 257 0 }).wf = false := by decide +kernel
/-! ### Engines -/

/-- A running engine with `i` at address 0, g1 = 0x10000 (data SRAM) and g2 = 0x08000000 (aperture 0). -/
def runs (i : EngInstr) : Engine := { (((({} : Engine).setG 1 0x10000).setG 2 0x08000000).setSram true 0 i.encode) with run := 1 }
/-- System engine 512 is that engine. -/
def sys (i : EngInstr) : Dev := ({} : Dev).setEng 512 (runs i)
/-- It is about to run `i`. -/
def ready (i : EngInstr) : Bool := decide (Ready (sys i) 512 i)

theorem witness_ThreeRegisterResults : ∀ fn : BitVec 4, fn.toNat ≤ 14 → Ready (sys (.alu fn 3 1 2)) 512 (.alu fn 3 1 2) := by decide
theorem witness_ImmediateResults : (∀ op ∈ [1#6, 2#6, 3#6, 4#6, 5#6, 6#6], Ready (sys (.imm op 3 1 0x8000)) 512 (.imm op 3 1 0x8000))
    ∧ Ready (sys (.imm 7 3 0 0x8000)) 512 (.imm 7 3 0 0x8000) ∧ ∀ k ∈ [0#2, 1#2, 2#2], Ready (sys (.shi k 3 1 31)) 512 (.shi k 3 1 31) := by decide
theorem witness_BranchesAndJumps : (∀ k : BitVec 3, k.toNat ≤ 5 → Ready (sys (.branch k 1 2 0xFFFF)) 512 (.branch k 1 2 0xFFFF))
    ∧ (∀ l : Bool, Ready (sys (.jump l 0x2000000)) 512 (.jump l 0x2000000)) ∧ Ready (sys (.imm 0x2A 3 1 7)) 512 (.imm 0x2A 3 1 7) := by decide

/-- Engine 512 may run `i`, an access of `size` bytes at ra + off that lies in an SRAM on a sound word. -/
def accessOk (i : EngInstr) (size : Nat) (ra : GReg) (off : BitVec 16) (isI load store : Bool) : Bool :=
  let x := runs i
  let a := x.gr ra + off.signExtend 32
  (if isI then a.toNat < 0x10000 else 0x10000 ≤ a.toNat && a.toNat < 0x20000) && decide (Ready (sys i) 512 i)
    && decide (PlainAccess x a size load store) && (List.range (max 1 (size / 4))).all (fun k => x.sramErr isI (a.toNat % 0x10000 / 4 + k) = 0)
theorem witness_SramLoads : accessOk (.imm 0x10 3 0 0x7FFC) 4 0 0x7FFC true true false
    ∧ accessOk (.imm 0x10 3 1 4) 4 1 4 false true false ∧ accessOk (.imm 0x11 3 1 2) 2 1 2 false true false
    ∧ accessOk (.imm 0x12 3 1 0x7FFE) 2 1 0x7FFE false true false ∧ accessOk (.imm 0x13 3 1 3) 1 1 3 false true false
    ∧ accessOk (.imm 0x14 3 1 1) 1 1 1 false true false ∧ accessOk (.vmem false 3 1 16) 16 1 16 false true false := by decide
theorem witness_SramStores : accessOk (.imm 0x18 3 1 4) 4 1 4 false false true ∧ accessOk (.imm 0x19 3 1 2) 2 1 2 false false true
    ∧ accessOk (.imm 0x1A 3 1 3) 1 1 3 false false true ∧ accessOk (.vmem true 3 1 16) 16 1 16 false false true
    ∧ ∀ f : Bool, accessOk (.amo f 3 1 4) 4 1 0 false true true := by decide

/-- Engine 512 with aperture 0 enabled towards host memory, non-posted where `np`. -/
def apSys (i : EngInstr) (np : Bool) : Dev := ({} : Dev).setEng 512 (((runs i).setS 32 0x200000).setS 33 (if np then 0x201 else 1))
/-- The posted queue of engine 512 is full. -/
def posted16 (d : Dev) : Dev := { d with noc := { inject := List.replicate 16 (0x150, 0, ⟨0, [], false⟩) } }
/-- Engine 512 waits in `i`, run state r. -/
def waits (d : Dev) (i : EngInstr) (r : Nat) : Dev := d.updEng 512 (fun x => { x with run := r, pend := some i })
def waitOk (d : Dev) (i : EngInstr) (r : Nat) : Bool :=
  let x := (waits d i r).eng 512
  x.run = r && x.pend = some i && !x.stepping && !x.haltReq
/-- Engine 512 may run `i`, an access through aperture 0, with room for a posted request and without. -/
def apOk (i : EngInstr) (size : Nat) (load store np : Bool) : Bool :=
  let d := apSys i np
  let x := d.eng 512
  let a := (0x08000000 : Word)
  locOf a = .aperture 0 0 && x.gr 2 = a && x.apAttr 0 0 1 = 1 && destOf d (x.apAddr 0 0) = some 0x140 && !inControl (x.apAddr 0 0)
    && decide (Ready d 512 i) && decide (PlainAccess x a size load store) && decide (x.apAttr 0 9 1 = 1) == np
    && postedLevel d (engNode 512) (engUnit 512) < 16 && decide (Ready (posted16 d) 512 i) && postedLevel (posted16 d) (engNode 512) (engUnit 512) = 16
theorem witness_ApertureAccesses : (∀ op ∈ [(0x10#6, 4), (0x11, 2), (0x12, 2), (0x13, 1), (0x14, 1)], apOk (.imm op.1 3 2 0) op.2 true false false)
    ∧ (∀ np : Bool, ∀ op ∈ [(0x18#6, 4), (0x19, 2), (0x1A, 1)], apOk (.imm op.1 3 2 0) op.2 false true np)
    ∧ (∀ np : Bool, apOk (.vmem true 3 2 0) 16 false true np) ∧ apOk (.vmem false 3 2 0) 16 true false false
    ∧ (∀ f : Bool, apOk (.amo f 3 2 4) 4 true true false) ∧ waitOk (apSys (.imm 0x18 3 2 0) false) (.imm 0x18 3 2 0) 3 := by decide
theorem witness_SendRequests : ∀ k : BitVec 2, ∀ n ∈ [0#3, 7#3],
    apOk (.send (if k = 0 then 0 else 3) 2 8 n k) (16 * (n.toNat + 1)) true true false := by decide

/-- Engine 512 waits in `i` for the response to the one request it has outstanding. -/
def asked (i : EngInstr) (trap : Bool) : Dev :=
  { waits (({} : Dev).setEng 512 ((runs i).setS 33 (if trap then 0x101 else 1))) i 3 with noc := { outst := [⟨0x150, 0, 5, 4, 0, 1⟩] } }
def askedOk (i : EngInstr) (trap : Bool) : Bool :=
  let x := (asked i trap).eng 512
  x.run = 3 && x.pend = some i && !x.stepping && !x.haltReq && locOf (dataAddr x i) = .aperture 0 0
    && ((asked i trap).noc.outst.filter (fun z => z.node = engNode 512 && z.unit = engUnit 512)).getLast? = some ⟨0x150, 0, 5, 4, 0, 1⟩
    && decide (x.apAttr 0 8 1 = 1) == trap
theorem witness_EngineResponses : ∀ t : Bool, (∀ op ∈ [0x10#6, 0x11, 0x12, 0x13, 0x14, 0x18, 0x1A], askedOk (.imm op 3 2 0) t)
    ∧ (∀ st : Bool, askedOk (.vmem st 3 2 0) t ∧ askedOk (.amo st 3 2 4) t) ∧ ∀ k ∈ [1#2, 2, 3], askedOk (.send 3 2 8 1 k) t := by decide

/-- Engine 512 has a message in its mailbox. -/
def mail (d : Dev) : Dev := d.updEng 512 (fun x => { x with mbx := true })
theorem witness_WaitsAndFences :
    Ready (mail (sys (.wait 3 0x10))) 512 (.wait 3 0x10) ∧ wakeCauses (mail (sys (.wait 3 0x10))) 512 &&& (0x10#8).setWidth 32 ≠ 0
    ∧ waitOk (mail (sys (.wait 3 0x10))) (.wait 3 0x10) 2
    ∧ wakeCauses (waits (mail (sys (.wait 3 0x10))) (.wait 3 0x10) 2) 512 &&& (0x10#8).setWidth 32 ≠ 0
    ∧ Ready (sys (.wait 3 0x10)) 512 (.wait 3 0x10) ∧ wakeCauses (sys (.wait 3 0x10)) 512 &&& (0x10#8).setWidth 32 = 0
    ∧ Ready (sys .fence) 512 .fence ∧ postedLevel (sys .fence) (engNode 512) (engUnit 512) = 0
    ∧ Ready (posted16 (sys .fence)) 512 .fence ∧ postedLevel (posted16 (sys .fence)) (engNode 512) (engUnit 512) = 16
    ∧ waitOk (sys .fence) .fence 3 ∧ postedLevel (waits (sys .fence) .fence 3) (engNode 512) (engUnit 512) = 0 := by decide

/-- Engine 512 in its handler. -/
def handler (d : Dev) : Dev := d.updEng 512 (fun x => x.setS 5 1)
theorem witness_ExceptionEntry : ((sys .brk).eng 512).inHandler = false ∧ ((sys .brk).eng 512).stepping = false
    ∧ ((sys .brk).eng 512).haltReq = false ∧ Ready (sys .brk) 512 .brk ∧ Ready (handler (sys .eret)) 512 .eret := by decide
theorem witness_DoubleFault : Ready (handler (sys .brk)) 512 .brk ∧ ((handler (sys .brk)).eng 512).inHandler = true := by decide
/-- Engine 512 about to fetch from `pc`, where a disturbance of `err` stands, breakpoint 0 (at address 0) with action `bp`. -/
def fetches (pc : Word) (err : BitVec 39) (bp : Word) (w : Word) : Dev :=
  ({} : Dev).setEng 512 { ((((({} : Engine).setSram true 0 w).setErr true 0 err).setS 52 bp)) with run := 1, pc := pc }
def fetchOk (pc : Word) (err : BitVec 39) (bp w : Word) : Bool :=
  let d := fetches pc err bp w
  let x := d.eng 512
  x.run = 1 && !x.outOfService && engClocked d 512 && x.pc = pc && x.sramErr true (pc.toNat / 4) = err && breakAction x pc = bp.toNat
theorem witness_FetchExceptions : fetchOk 0x10000 0 0 0 ∧ fetchOk 0 3 0 0 ∧ 2 ≤ flips 3
    ∧ fetchOk 0 0 1 0 ∧ fetchOk 0 0 0 0xFC000000 ∧ EngInstr.decode 0xFC000000 = none := by decide

theorem witness_StatusRegisters : [0#6, 1, 2, 3, 4, 18, 19, 13, 63].all (fun ix => ready (.status 0 3 ix))
    ∧ [1#2, 2, 3].all (fun fn => [9#6, 11, 12, 0].all (fun ix => ready (.status fn 1 ix))) ∧ statusMask 9 ≠ 0 ∧ statusMask 0 = 0 := by decide
/-- Engine 512 runs under a watchdog; its word at the patrol's place of data SRAM has one bit wrong where `err`. -/
def watched (err : BitVec 39) : Dev := (({} : Dev).setReg 0x150 (sclOff 512 R.SCL_WDOG) 100).setEng 512 { ({} : Engine).setErr false 0 err with run := 1 }
theorem witness_EngineEvents : timersFrozen (watched 0) 512 = false ∧ ((watched 0).eng 512).run = 1
    ∧ (watched 0).fld 0x150 (sclOff 512 R.SCL_WDOG) 0 24 ≠ 0 ∧ engClocked (watched 1) 512 = true ∧ ((watched 1).eng 512).patrol = 0
    ∧ ((watched 1).eng 512).sramErr true 0 = 0 ∧ ((watched 1).eng 512).sramErr false 0 = 1 ∧ ((watched 0).eng 512).sramErr false 0 = 0 := by decide
/-- The Cox as a requester. -/
def cox : Req := { node := 0x141, unit := 0, tenant := 0 }
/-- Engine 512 in run state r, SCL_MEM_ADDR at a. -/
def inState (r : Nat) (a : Word) : Dev := (({} : Dev).setReg 0x150 (sclOff 512 R.SCL_MEM_ADDR) a).setEng 512 { ({} : Engine) with run := r }
def controlOk (r : Nat) (a : Word) : Bool :=
  let d := inState r a
  admits d cox 0x150 (sclOff 512 R.SCL_CTL) && admits d cox 0x150 (sclOff 512 R.SCL_MEM_DATA) && (d.eng 512).run = r
    && !(d.eng 512).outOfService && (d.reg 0x150 (sclOff 512 R.SCL_MEM_ADDR)).toNat % 0x20000 = a.toNat
    && (d.eng 512).sramErr false (a.toNat % 0x10000 / 4) = 0 && engClocked d 512
theorem witness_EngineControl : [0, 1, 2, 3, 4, 5].all (fun r => controlOk r 0 && controlOk r 0xFFFC && controlOk r 0x10000 && controlOk r 0x1FFFC)
    ∧ admits {} cox 7 R.SCL_PORT_MAP ∧ (({} : Dev).eng (7 * 2)).run = 0 ∧ (({} : Dev).eng (7 * 2 + 1)).run = 0 := by decide +kernel
theorem witness_VectorLanes : [0#2, 1, 2, 3].all (fun lw =>
    [0#6, 1, 2, 3, 4, 5, 6, 7, 8, 9, 13, 14, 15, 16].all (fun fn => ready (.vop fn 1 2 3 lw 0))
    && [10#6, 11, 12].all (fun fn => ready (.vop fn 1 2 0 lw 7)) && (lw = 0 || ready (.vop 17 1 2 3 lw 0))
    && (lw = 3 || [18#6, 19].all (fun fn => ready (.vop fn 1 2 0 lw 0)))) := by decide
theorem witness_VectorTransfers : [0#2, 1, 2].all (fun lw =>
    [0#2, 1].all (fun fn => [0#6, BitVec.ofNat 6 (128 / (8 * 2 ^ lw.toNat) - 1)].all (fun ix => ready (.vxfer fn 1 2 lw ix)))
    && [2#2, 3].all (fun fn => ready (.vxfer fn 1 2 lw 0)))
    ∧ ready (.vcrc 0 0 2) ∧ ready (.vcrc 1 2 0) ∧ ready (.vcrc 2 0 2) := by decide

/-- Engine 14 of running island 7, owning port set 0, about to run `i`; its set holds `q`. -/
def port (i : EngInstr) (q : PortSet) (owns : Bool) : Dev :=
  ((({} : Dev).setIsl 7 { ({} : Island) with state := .running, ps0 := q }).setReg 7 R.SCL_PORT_MAP (if owns then 0 else 1)).setEng 14 (runs i)
def fullSet : PortSet := { ({} : PortSet) with staging := List.replicate 8 (0, [0]) }
def portOk (i : EngInstr) (q : PortSet) (owns : Bool) : Bool :=
  let d := port i q owns
  decide (Ready d 14 i) && ownsSet d 14 0 == owns && portsOf d 14 0 = q && (d.isl 7).replay.isNone && q.upPend.isEmpty
theorem witness_EnginePorts : (∀ owns : Bool, portOk (.vport 0 3 15 0 0 false) {} owns ∧ portOk (.vport 1 3 15 0 4 false) {} owns
      ∧ portOk (.vport 2 0 15 0 4 false) {} owns)
    ∧ portOk (.vport 0 3 15 0 0 false) fullSet true ∧ fullSet.staging.length = 8
    ∧ portOk (.vport 1 3 15 0 4 false) { ({} : PortSet) with up := [(15, [(5, 9)])] } true
    ∧ (((port (.vport 0 3 15 0 0 false) {} true).updEng 14 (fun x => { x with run := 3, pend := some (.vport 0 3 15 0 0 false) })).eng 14).run = 3
    := by decide

/-- Words written out from the formats' fields, the opcode in [31:26] first (R287, R288, R291, R295, R296, R306). -/
theorem test_words_from_the_formats :
  EngInstr.decode (0x00#6 ++ 3#5 ++ 4#5 ++ 5#5 ++ 1#11) = some (.alu 1 3 4 5)
    ∧ EngInstr.decode (0x01#6 ++ 3#5 ++ 4#5 ++ 0xFFFE#16) = some (.imm 1 3 4 0xFFFE)
    ∧ EngInstr.decode (0x08#6 ++ 3#5 ++ 4#5 ++ 0#9 ++ 2#2 ++ 7#5) = some (.shi 2 3 4 7)
    ∧ EngInstr.decode (0x25#6 ++ 1#5 ++ 2#5 ++ 0x8000#16) = some (.branch 5 1 2 0x8000)
    ∧ EngInstr.decode (0x29#6 ++ 0x2000000#26) = some (.jump true 0x2000000)
    ∧ EngInstr.decode (0x2C#6 ++ 1#5 ++ 2#5 ++ 3#5 ++ 1#11) = some (.amo true 1 2 3)
    ∧ EngInstr.decode (0x2E#6 ++ 1#5 ++ 2#5 ++ 8#4 ++ 7#3 ++ 3#2 ++ 0#7) = some (.send 1 2 8 7 3)
    ∧ EngInstr.decode (0x30#6 ++ 9#5 ++ 0#5 ++ 0x0081#16) = some (.wait 9 0x81)
    ∧ EngInstr.decode (0x31#6 ++ 0#5 ++ 6#5 ++ 3#3 ++ 0#7 ++ 5#6) = some (.status 3 6 5)
    ∧ EngInstr.decode (0x38#6 ++ 1#4 ++ 2#4 ++ 3#4 ++ 1#2 ++ 5#6 ++ 0#6) = some (.vop 5 1 2 3 1 0)
    ∧ EngInstr.decode (0x39#6 ++ 7#4 ++ 9#5 ++ 1#2 ++ 1#3 ++ 0#6 ++ 7#6) = some (.vxfer 1 7 9 1 7)
    ∧ EngInstr.decode (0x3A#6 ++ 7#4 ++ 9#5 ++ 1#1 ++ 0x0010#16) = some (.vmem true 7 9 0x10)
    ∧ EngInstr.decode (0x3B#6 ++ 7#4 ++ 9#4 ++ 1#2 ++ 0#4 ++ 3#5 ++ 1#1 ++ 0#6) = some (.vport 1 7 9 0 3 true)
    ∧ EngInstr.decode (0x3C#6 ++ 7#4 ++ 0#5 ++ 1#2 ++ 0#15) = some (.vcrc 1 7 0)
    ∧ EngInstr.decode (0x34#6 ++ 0#26) = some .fence ∧ EngInstr.decode (0x35#6 ++ 0#26) = some .eret
    ∧ EngInstr.decode (0x3E#6 ++ 0#26) = some .brk ∧ EngInstr.decode 0 = some (.alu 0 0 0 0)
    ∧ EngInstr.decode (0x07#6 ++ 1#5 ++ 1#5 ++ 0#16) = none ∧ EngInstr.decode (0x30#6 ++ 9#5 ++ 0#5 ++ 0#16) = none
    ∧ EngInstr.decode (0x3F#6 ++ 0#26) = none := by decide

/-! ### Registers and memories -/

/-- A tenant's requester, on an island node. -/
def tenant1 : Req := { node := 3, unit := 1, tenant := 1 }
theorem witness_AccessChecks : nodeKind 0x1FF = none ∧ nodeKind 7 ≠ none ∧ regAt 7 0xFFFC = none
    ∧ ((regAt 7 R.ISL_CLK_LIMIT).any (fun e => classOk (regClass 7 R.ISL_CLK_LIMIT e.1) tenant1.tenant (regTenant {} 7 R.ISL_CLK_LIMIT) == false)) := by decide +kernel
theorem witness_AccessCodes : admits {} cox 7 R.SCL_SIG_EN ∧ admits {} cox 7 R.SCL_EVENTS ∧ admits {} cox 0x163 R.NOC_DISCARDS := by decide +kernel
theorem witness_WideRegisters : [0, 15].all (fun t => isPass (regGate {} { cox with tenant := t } 0x142 (R.CRW_CMD_TABLE + 0x40 * t))
      && isPass (regGate {} { cox with tenant := t } 0x142 (R.CRW_CMD_TABLE + 0x40 * t + 4)))
    ∧ tget ({ holdRd := tput [] none (holdKey cox 0x142 (R.CRW_CMD_TABLE + 4)) (some 9) } : Dev).holdRd none (holdKey cox 0x142 (R.CRW_CMD_TABLE + 4)) = some 9
    ∧ tget ({} : Dev).holdRd none (holdKey cox 0x142 (R.CRW_CMD_TABLE + 4)) = none := by decide +kernel
theorem witness_Disturbances : ({} : Dev).ffUpset.contains 0 = false ∧ ({ ffUpset := [5] } : Dev).ffUpset.contains 4 = false
    ∧ mayCapture (({} : Dev).setIsl 7 { ({} : Island) with state := .feathered }) 7 0 0 = false
    ∧ mayCapture ((({} : Dev).setIsl 7 { ({} : Island) with state := .running, phase := 2 }).setFrame 7 0 { bits := BitVec.twoPow 4096 2656 }) 7 0 0 := by decide +kernel

/-- A feathered stroke-mode island 7 with memory 2 holding `b`, and debug done set in its register. -/
def memDev (b : Bram) (ph : Nat) : Dev :=
  ((({} : Dev).setIsl 7 { ({} : Island) with state := .feathered, phase := ph }).setBram (7 * 96 + 2) b).setReg 7 (R.MEM_DBG_CTL + 2 * 0x40) 0x1000
theorem witness_MemoryServices :
    ({ writeBack := [11] } : Bram).writeBack.contains (5 * 2 + 1) ∧ (decodeHalf (1 : W64) (checkByte 0)).2 = 1
    ∧ ({ cfg := 0x10 } : Bram).ecc ∧ (({} : Dev).setReg 7 (R.MEM_PATROL + 2 * 0x40) 1000).fld 7 (R.MEM_PATROL + 2 * 0x40) 0 16 ≠ 0
    ∧ (decodeRow true (rowOf 0 0 (checkByte 0) (checkByte 0))).2 = (0, 0)
    ∧ admits (memDev {} 0) cox 7 (R.MEM_DBG_CTL + 2 * 0x40) ∧ (memDev {} 0).flag 7 (R.MEM_DBG_CTL + 2 * 0x40) 12 ∧ portBClocked (memDev {} 0) 7 2 = false
    ∧ ((memDev {} 0).bram (7 * 96 + 2)).outOfService = false ∧ ((memDev {} 0).bram (7 * 96 + 2)).ecc = false ∧ undrained (memDev {} 0) 7 2 511 = false
    ∧ ((memDev { dbgBusy := true } 0).bram (7 * 96 + 2)).dbgBusy
    ∧ admits (memDev {} 0) cox 7 (R.MEM_STATUS + 2 * 0x40) ∧ admits (memDev {} 0) cox 7 (R.QCT_CTL + 2 * 0x40) ∧ ((memDev {} 0).isl 7).state = .feathered
    ∧ (memDev {} 0).bram (7 * 96 + 2) = {} ∧ ({ cfg := 0x10 } : Bram).writeBack = [] ∧ ({ cfg := 0x10 } : Bram).dbgBusy = false
    ∧ isPass (writeGate (memDev {} 0) cox 7 (R.ARS_ACC + 47 * 0x40)) ∧ midStroke (memDev {} 0) 7 = false ∧ stateServed (memDev {} 0) 7 ∧ strokeMode (memDev {} 0) 7
    ∧ midStroke (({} : Dev).setIsl 7 { ({} : Island) with state := .running, phase := 2 }) 7
    ∧ isPass (writeGate (({} : Dev).setIsl 7 { ({} : Island) with state := .running, phase := 2 }) cox 7 (R.ARS_ACC + 47 * 0x40)) := by decide +kernel

/-! ### Strokes -/

/-- A device whose island 7 is `x`. -/
def at7 (x : Island) : Dev := ({} : Dev).setIsl 7 x
def run7 (ph : Nat) : Dev := at7 { state := .running, phase := ph, setup := { fabricRoute := true } }
/-- Island 7 running, with an XI port 5 for one word a stroke from a neighbour, and an XO port 5. -/
def xi7 (ph : Nat) : Dev := (run7 ph).setReg 7 (xiOff R.XCH_XI_CFG 5) 1 |>.setReg 7 (xiOff R.XCH_XO_CFG 5) 1
/-- The same with one word missing from XO port 5's last words. -/
def changed7 : Dev := (xi7 3).setXo 7 5 { last := [(0, 1)] } |>.updIsl 7 (fun x => { x with monOn := true })
def steps7 (d : Dev) (ph : Nat) : Bool :=
  let x := d.isl 7
  strokeMode d 7 && islClocked d 7 && isRunning x.state && x.setup.fabricRoute && x.phase = ph && !x.prBusy && x.replay.isNone
    && !x.featheredByStandby && d.regions.isEmpty && !x.armed
theorem witness_StrokeSteps : [1, 2, 3, 4].all (fun ph => steps7 (run7 ph) ph) ∧ steps7 (xi7 1) 1
    ∧ mayStart ((run7 1).setReg64 7 R.STK_LIMIT 0) 7 = false ∧ steps7 ((run7 1).setReg64 7 R.STK_LIMIT 0) 1
    ∧ mayStart (run7 1) 7 ∧ logEn (run7 1) 7 = false ∧ xiLacking (run7 1) 7 = [] ∧ xiLacking (xi7 1) 7 = [5] ∧ mayStart (xi7 1) 7 ∧ logEn (xi7 1) 7 = false
    ∧ steps7 changed7 3 ∧ (changed7.isl 7).monOn ∧ (changed7.isl 7).monDone = false ∧ firstDiff changed7 7 [] = none
    ∧ firstDiff changed7 7 [(5, 0, 2)] = some (5, 0) ∧ changed7.flag 7 R.STK_EVENTS 3 = false
    ∧ ((run7 3).isl 7).monOn = false ∧ xoBlocked (run7 3) 7 = [] ∧ upWaits ((run7 3).isl 7) = false
    ∧ (undrainedWrites (run7 3) 7 (designClocks (run7 3) 7 0)).length ≤ preserveFree (run7 3) 7 := by decide +kernel
theorem witness_NeighbourPaths : pathOpen (xi7 1) 7 ∧ (xiCfg (xi7 1) 7 5).en ∧ (xiCfg (xi7 1) 7 5).peer = 0 ∧ (xi7 1).epochOf 7 6 = 0
    ∧ (xiCfg (xi7 1) 7 5).free = false ∧ ((xi7 1).xi 7 5).expect = 0 ∧ ((xi7 1).xi 7 5).got + 1 ≤ (xiCfg (xi7 1) 7 5).count
    ∧ (xi7 1).epochOf 7 6 ≠ 3 ∧ (xiCfg (xi7 1) 7 5).peer ≠ 4 ∧ pathOpen {} 7 = false
    ∧ (xoCfg (xi7 1) 7 5).en ∧ (xoCfg (xi7 1) 7 5).free = false ∧ strokeMode (xi7 3) 7 ∧ ((xi7 3).isl 7).phase = 3 ∧ ((xi7 1).isl 7).phase ≠ 3
    ∧ xoBlocked (xi7 3) 7 = [] ∧ xoBlocked ((xi7 3).setXo 7 5 { outst := 80 }) 7 ≠ [] := by decide +kernel
theorem witness_StrokeWatches : stalled ((xi7 1).setReg 7 R.STK_STALL_CFG 5) 7 ∧ ((xi7 1).isl 7).phase = 1 ∧ ((xi7 1).isl 7).waitReported = false
    ∧ ((xi7 1).setReg 7 R.STK_STALL_CFG 5).fld 7 R.STK_STALL_CFG 0 16 ≠ 0 ∧ stallFrozen (xi7 1) 7 = false ∧ (xi7 1).flag 7 R.STK_EVENTS 2 = false
    ∧ 65536 ≤ ({ log := { sinceClose := 65536 } } : Island).log.sinceClose ∧ logEn (({} : Dev).setReg 7 R.CAT_LOG_CTL 1) 7
    ∧ 1 < (({} : Dev).setReg 7 R.CAT_LOG_SIZE 2).fld 7 R.CAT_LOG_SIZE 0 24
    ∧ logRoom (({} : Dev).setReg 7 R.CAT_LOG_SIZE 2) 7 ∧ overfull {} = false := by decide +kernel
def owner7 : Req := { node := 7, unit := 1, tenant := 0 }
/-- Island 7 in tenant 1's hands, in state `st`. -/
def mine7 (st : IslState) (ph : Nat) : Dev := (at7 { state := st, phase := ph }).setReg 7 R.ISL_OWNER 1
theorem witness_StrokeControls : [IslState.running, .feathered, .loaded].all (fun st => [0, 1].all (fun t =>
      admits (at7 { state := st, phase := 2 }) { tenant1 with tenant := t } 7 R.STK_CTL || t = 1))
    ∧ admits (mine7 .running 2) tenant1 7 R.STK_CTL ∧ admits (mine7 .running 2) cox 7 R.STK_CTL
    ∧ isPass (regGate (mine7 .running 2) tenant1 7 R.STK_LIMIT) ∧ isPass (regGate (mine7 .running 2) cox 7 R.STK_HOLD)
    ∧ (at7 { state := .feathered }).reg64 7 R.STK_LIMIT = BitVec.allOnes 64 ∧ ((at7 { state := .feathered }).isl 7).count < BitVec.allOnes 64
    ∧ cox.tenant = (at7 { state := .loaded }).owner 7 ∧ tenant1.tenant = (mine7 .loaded 0).owner 7 ∧ cox.tenant ≠ (mine7 .loaded 0).owner 7
    ∧ strokeMode (mine7 .loaded 0) 7 := by decide +kernel

/-! ### Power and the whole device -/

theorem witness_IslandClock : admits {} cox 7 R.ISL_CLK_REQ ∧ admits {} cox 7 R.ISL_CLK_LIMIT ∧ ({} : Island).throttleOc = false
    ∧ ({} : Island).throttleTh = false ∧ ({ throttleOc := true } : Island).throttleOc ≠ ({ throttleOc := true } : Island).throttleTh
    ∧ ({ throttleOc := true, throttleTh := true } : Island).throttleTh := by decide +kernel
def slept (from_ : IslState) (emu gated : Bool) : Island := { state := .sleep, sleptFrom := from_, sleepEmulated := emu, powerGated := gated }
theorem witness_SleepAndWake : [IslState.idle, .loaded, .feathered, .running].all (fun st => admits (at7 { state := st, cacheValid := true }) cox 7 R.ISL_PWR_CMD
      && !((at7 { state := st }).isl 7).prBusy && !((at7 { state := st }).isl 7).drainActive)
    ∧ admits (at7 (slept .loaded true false)) cox 7 R.ISL_PWR_CMD ∧ admits (at7 (slept .idle false true)) cox 7 R.ISL_PWR_CMD
    ∧ admits (at7 (slept .loaded false true)) cox 7 R.ISL_PWR_CMD ∧ (slept .loaded false true).waking = false
    ∧ coxState (({} : Dev).setReg 0x141 R.COX_STATUS 1) = 1 ∧ ((at7 (slept .loaded false true)).isl 7).sleptFrom ≠ .idle
    ∧ (at7 (slept .loaded false false)).noc.outst = [] ∧ (at7 (slept .loaded false false)).noc.inject = []
    ∧ ({ at7 { slept .loaded false true with waking := true } with wakeQueue := [7] } : Dev).wakeQueue.head? = some 7
    ∧ (cacheEntry { at7 { slept .loaded false true with waking := true, hash := cacheHash [] } with wakeQueue := [7] } 7 == some [])
    ∧ (at7 { slept .loaded false true with waking := true, hash := cacheHash [] }).load = none
    := by and_intros <;> first | decide +kernel | rfl
theorem witness_DevicePlls : admits {} cox 0x146 R.PWR_DPLL_CTL ∧ (0x1400#32).getLsbD 0 = false
    ∧ (0x1401#32).getLsbD 0 ∧ (2000 * 2 ^ 24 ≤ 100 * (bitsOf 0x2001 8 6 * 2 ^ 24)) ∧ (({} : Dev).setReg 0x146 R.PWR_DPLL_CTL 1).flag 0x146 R.PWR_DPLL_CTL 0
    ∧ ({} : Dev).flag 0x146 R.PWR_DPLL_CTL 0 = false := by decide +kernel
/-- PLL 0 with feedback 32 MHz times 100, and both outputs divided by 10: in range. -/
theorem witness_DevicePlls_range : bitsOf (0x2001#32).toNat 8 6 = 32 ∧ 2000 * 2 ^ 24 ≤ 100 * (32 * 2 ^ 24) ∧ 100 * (32 * 2 ^ 24) ≤ 4800 * 2 ^ 24
    ∧ 10 * 2 ^ 24 ≤ 100 * (32 * 2 ^ 24) ∧ 100 * (32 * 2 ^ 24) ≤ 600 * 10 * 2 ^ 24
    ∧ bitsOf ((({} : Dev).setReg 0x146 (R.PWR_DPLL_CTL + 8) 0x000A000A).reg 0x146 (R.PWR_DPLL_CTL + 8)).toNat 0 13 = 10 := by decide +kernel
def claimed7 : Dev := (at7 { state := .loaded, setup := { gcMask := 1 } }).setReg 7 R.ISL_OWNER 1
theorem witness_DevicePlls_claim : dpllClaimant {} 0 = none ∧ dpllClaimant claimed7 0 = some 1 := by decide +kernel
theorem witness_SensingAndProtection : (({} : Dev).setReg 0x146 (R.PWR_EMERG_CFG + 12) 5000).fld 0x146 (R.PWR_EMERG_CFG + 12) 0 16 < 6000 ∧ vccioOk 0 0 = false
    ∧ (({} : Dev).setReg 0x142 R.IO_BANK_STATUS 0x1000).flag 0x142 R.IO_BANK_STATUS 12 ∧ vccioOk 0 1200 ∧ bankUser {} 0 = none
    ∧ 6000 ≤ ({} : Dev).fld 0x146 R.PWR_EMERG_CFG 0 16 := by decide +kernel
/-- Function 0 out of D0, Standby wanted of it, island 7 waiting at step 1. -/
def sleepy : Dev := ((run7 1).setReg 0x140 (fnArea 0 R.HIF_FN_STATUS) 3).setReg 0x146 R.PWR_DEV_CTL 2
def entering : Dev := { ({} : Dev).setDram 3 { state := 2 } with standbyEntering := true }
def asleep : Dev := (({} : Dev).setReg 0x146 R.PWR_DEV_STATE 1).setDram 3 { state := 4, before := 2 }
theorem witness_Standby : fnD0 sleepy 0 = false ∧ sleepy.flag 0x146 R.PWR_DEV_CTL 1 ∧ inStandby sleepy = false ∧ sleepy.standbyEntering = false
    ∧ sleepy.islands.map (·.1) = [7] ∧ (sleepy.isl 7).state = .running ∧ (sleepy.isl 7).phase = 1 ∧ (sleepy.isl 7).setup.groupId = 0
    ∧ entering.standbyEntering ∧ entering.standbyEmulated = false ∧ entering.islands = [] ∧ entering.links = []
    ∧ fnD0 asleep 0 ∧ inStandby asleep ∧ asleep.islands = [] := by decide +kernel
theorem witness_WholeDevice : 3 ∉ ({} : Dev).lostQuarters ∧ ({} : Dev).thermTrip = false ∧ coxState {} = 0 ∧ ({} : Dev).evlog.copyPending = none
    ∧ coxState (({} : Dev).setReg 0x141 R.COX_STATUS 2) ≠ 0 := by decide +kernel
def regionAt : RegionCmd := ⟨.feather, 0, [7], 0, [], some 4, .channel (5 * 65536 + 9), none, false, false, false⟩
def regionDev : Dev := { at7 { state := .feathered, count := 4 } with regions := [regionAt], chans := [(9, { jobs := [{ idx := 0, raw := 0, cmd := some 5 }] })] }
theorem witness_RegionCommandsEnd : chanWaits regionDev 9 5 ∧ regionAt.crew = false ∧ regionAt.ended = none ∧ strokeMode regionDev 7
    ∧ (regionDev.isl 7).state = .feathered ∧ (regionDev.isl 7).count = 4 ∧ regionDev.finished = [] ∧ regionDev.xtrgWait = [] := by decide +kernel

/-! ### Catch, restore and the input log -/

/-- A command of channel 9 that number 5 of its jobs waits for. -/
def waited (d : Dev) : Dev := { d with chans := [(9, { jobs := [{ idx := 0, raw := 0, cmd := some 5 }] })] }
def org : Origin := .channel (5 * 65536 + 9)
/-- Island 7's entry of its image. -/
def imgEnt7 : ImgEnt := ⟨7, false, false, false, false, 0, 0, 4096, 0, false⟩
def plan7 : ImgPlan := { tenant := 0, addr := 0, id := 1, rnd := 9, ents := [imgEnt7] }
/-- A catch of island 7 by the Owner, at stage `copied`, `resumed`; its region command stands at N = 4. -/
def catch7 (copied resumed : Bool) : CatchCmd :=
  { restore := false, tenant := 0, islands := [7], base := 0, origin := org, n := 4, copied := copied, resumed := resumed,
    images := if copied then [plan7] else [] }
/-- The same with its section written and its final header sent to DRAM controller 0, whose answer is `rsp60`. -/
def ending7 : Dev :=
  { waited (at7 { state := .running, count := 9, phase := 1 }) with
    catches := [{ catch7 true true with ended := [7], final := true }], sealOut := [(0x160, 0, .image org [7])], noc := { outst := [⟨0x160, 0, 0, 8, 0, 0⟩] } }
def rsp60 (st : Status) : Pkt := ⟨mkHdr 0x160 0x100 (0x30 + st.code) 0 0 0 0 0 0 0 false 0, [], false⟩
def sec7 : ImgSection := ⟨7, 4, false, false, false, 0, 0, 0, [], [], [], [(4799, 3)], [], [], [], [], 0, false, true⟩
def shadow7 : Shadow := { catchId := 1, sec := sec7, part := 5 }
def catching (copied resumed : Bool) : Dev :=
  { waited (at7 { state := if resumed then .catching else .feathered, count := 4, phase := if resumed then 1 else 5, drainActive := copied,
                  shadow := if copied then some shadow7 else none }) with
    catches := [catch7 copied resumed], regions := [⟨.catchAt, 0, [7], 0, [(7, BitVec.allOnes 64)], some 4, org, none, false, false, false⟩] }
theorem witness_CatchAndDrain : quiet (catching false false) 7 ∧ (catchRegion (catching false false) (catch7 false false)).isSome
    ∧ (catchRegion (catching false false) (catch7 false false)).all (fun g => regionDone (catching false false) g && g.ended.isNone)
    ∧ logEn (catching false false) 7 = false ∧ (catching true false).catches.map (·.copied) = [true]
    ∧ (catchRegion (catching true false) (catch7 true false)).any (fun g => g.saved = [(7, BitVec.allOnes 64)])
    ∧ strokeMode (catching true false) 7 ∧ ((catching true false).isl 7).drainActive ∧ ((catching true false).isl 7).count < BitVec.allOnes 64
    ∧ ((catching true false).isl 7).count < (catching true false).reg64 7 R.STK_LIMIT ∧ (catching true true).catches.map (·.resumed) = [true]
    ∧ ((catching true true).isl 7).shadow = some shadow7 ∧ chanWaits (catching true true) 9 5 ∧ drained (catching true true) 7
    ∧ (catch7 true true).images = [⟨(catching true true).owner 7, 0, 1, 9, [imgEnt7]⟩] ∧ imgEnt7.isl = 7
    ∧ [Status.ok, .timeout].all (fun st => isRsp (rsp60 st).cmd && decide (Arrives ending7 (rsp60 st) (rsp60 st).cmd)
        && decide (outstOf ending7 (rsp60 st) = some ⟨0x160, 0, 0, 8, 0, 0⟩))
    ∧ (rsp60 .ok).dest = 0x160 ∧ (rsp60 .ok).cmd = 0x30 ∧ (rsp60 .timeout).cmd ≠ 0x30 ∧ ending7.sealQ = []
    ∧ ending7.catches.map (fun c => (c.final, c.ended, c.bad)) = [(true, [7], none)] ∧ chanWaits ending7 9 5 ∧ islClocked (run7 3) 7 ∧ xoBlocked (run7 3) 7 = []
    ∧ (undrainedWrites (run7 3) 7 (designClocks (run7 3) 7 0)).length ≤ preserveFree (run7 3) 7 := by decide +kernel
def image7 (ok : Bool) : CatchImage := ⟨0, 0, 4, 0, 1, true, true, 0x3041, 0, true, [{ sec7 with tagOk := ok }]⟩
def restoring (ok : Bool) : Dev :=
  { waited (at7 { state := .restoring }) with
    catches := [{ restore := true, tenant := 0, islands := [7], base := 0, origin := org, image := some (image7 ok) }] }
theorem witness_Restore : (restoring true).catches.map (·.image) = [some (image7 true)] ∧ (image7 true).sections = [sec7] ∧ sec7.tagOk
    ∧ sec7.ffs = [(4799, 3)] ∧ (restoring true).regions = [] ∧ sealBusy (restoring true) (.restore org [7]) = false ∧ chanWaits (restoring true) 9 5 ∧ ((restoring false).isl 7).state = .restoring
    ∧ (image7 false).sections.map (·.tagOk) = [false] := by decide +kernel
def rec7 : LogRec := ⟨1, 5, 6, 4, 0, []⟩
def logging (st : IslState) (l : IslLog) (ctl : Word) : Dev :=
  ((at7 { state := st, log := l, replay := some { nextSeq := some 6, reading := true } }).setReg 7 R.CAT_LOG_CTL ctl).setReg 7 R.CAT_LOG_SIZE 8
theorem witness_InputLog : ({ staging := [⟨0, [], 0, [], none⟩] } : IslLog).failed = none ∧ sealBusy (logging .loaded {} 8) (.log 7 0) = false
    ∧ ({} : IslLog).closeDue = none ∧ overfull {} = false ∧ logRoom (logging .feathered { openRecs := [rec7] } 1) 7
    ∧ sealBusy (logging .loaded {} 8) (.replay 7) = false ∧ overfull { openRecs := [rec7] } = false ∧ (logging .loaded {} 8).flag 7 R.CAT_LOG_CTL 3
    ∧ (logging .loaded {} 0).flag 7 R.CAT_LOG_CTL 3 = false ∧ ({ failed := some ⟨0, [], 0, [], none⟩ } : IslLog).failed = some ⟨0, [], 0, [], none⟩
    ∧ admits (logging .loaded {} 0) cox 7 R.CAT_LOG_CTL ∧ logEn (logging .loaded {} 0) 7 = false ∧ logEn (logging .feathered {} 1) 7
    ∧ 1 < (logging .loaded {} 0).fld 7 R.CAT_LOG_SIZE 0 24 ∧ ¬(1 < ({} : Dev).fld 7 R.CAT_LOG_SIZE 0 24)
    ∧ admits (logging .feathered { openRecs := [rec7] } 1) cox 7 R.CAT_LOG_CTL ∧ ({ openRecs := [rec7] } : IslLog).openRecs ≠ []
    ∧ admits (logging .feathered {} 1) cox 7 R.CAT_LOG_TAIL ∧ ((logging .feathered {} 1).isl 7).replay = some { nextSeq := some 6, reading := true }
    ∧ (⟨true, 0, 0, 0, [rec7], 5⟩ : LogBlock).tagOk ∧ (⟨true, 0, 0, 0, [rec7], 5⟩ : LogBlock).recs = [rec7] ∧ rec7.seq = 6
    ∧ ((logging .feathered {} 1).isl 7).state = .feathered := by decide +kernel

/-! ### Signals and the event log -/

/-- Source 57 (island 7, k = 1) asserted, and enabled by its settings `cfg`; engine 14 runs; group 0 has it as member. -/
def sig57 (cfg : Word) (mode grp : Word) : Dev :=
  ((((((({} : Dev).setReg 7 R.ISL_SIG_CAUSE 2).setReg 7 R.ISL_SIG_EN 2).setReg 0x144 (R.SIG_SRC_CFG + 4 * 57) cfg).setReg 0x144 R.SIG_MODE mode).setReg 0x144
    R.SIG_GRP_CFG grp).setReg 0x144 (R.SIG_TGT_GRP + 8 * 14) 1).setEng 14 { run := 1 }
def direct14 : Word := 0x10000 + 64 * 14
theorem witness_SignalDelivery : ((sig57 direct14 1 0).sig 57).st = 0 ∧ sigEn (sig57 direct14 1 0) 57 ∧ sigAsserted (sig57 direct14 1 0) 57
    ∧ sigDirected (sig57 direct14 1 0) ∧ directTarget (sig57 direct14 1 0) 57 = 14 ∧ tgtEnabled (sig57 direct14 1 0) 14
    ∧ tgtEnabled (sig57 (0x10000 + 64 * 15) 1 0) (directTarget (sig57 (0x10000 + 64 * 15) 1 0) 57) = false
    ∧ sigDirected (sig57 0x10000 0 0x80000000) = false ∧ sigGroup (sig57 0x10000 0 0x80000000) 57 = 0 ∧ grpEnabled (sig57 0x10000 0 0x80000000) 0
    ∧ grpNext (sig57 0x10000 0 0x80000000) 0 = some 14 ∧ grpEnabled (sig57 0x10000 0 0) 0 = false
    ∧ (sig57 0x10000 0 0).flag 0x144 R.SIG_EVENTS 0 = false
    ∧ ((({} : Dev).setSig 57 { st := 1, tgt := 14 }).sig 57).st = 1 ∧ sigAsserted (({} : Dev).setSig 57 { st := 1, tgt := 14 }) 57 = false
    ∧ admits {} { node := 7, unit := 1, tenant := 0 } 0x144 (R.SIG_CLAIM + 0x40 * 14) ∧ admits {} cox 0x144 (R.SIG_CLAIM + 0x40 * 528)
    ∧ admits {} cox 0x144 (R.SIG_DONE + 0x40 * 14) ∧ (57#32).toNat % 4096 = 57
    ∧ ((({} : Dev).setSig 57 { st := 2, tgt := 14 }).sig 57).tgt = 14 ∧ sigEn (({} : Dev).setSig 57 { st := 2, tgt := 14 }) 57 = false := by
  decide +kernel
theorem witness_SignalSettings : admits {} cox 0x144 R.SIG_MODE ∧ isPass (regGate {} cox 0x144 (R.SIG_TGT_GRP + 8 * 14)) ∧ grpPrin {} 63 = tgtPrin {} 14
    ∧ ((1#64).getLsbD 0 = true ∧ grpPrin (({} : Dev).setReg 0x144 R.SIG_GRP_CFG 3) 0 ≠ tgtPrin (({} : Dev).setReg 0x144 R.SIG_GRP_CFG 3) 14)
    ∧ admits {} cox 0x144 (R.SIG_SRC_CFG + 4 * 4094) ∧ (grpPrin {} 5 = srcPrin {} 4094 ∧ tgtPrin {} 14 = 0)
    ∧ (grpPrin (({} : Dev).setReg 0x144 R.SIG_GRP_CFG 3) 0 ≠ srcPrin {} 57 ∧ grpPrin (({} : Dev).setReg 0x144 R.SIG_GRP_CFG 3) 0 ≠ 0)
    ∧ admits {} cox 0x144 (R.SIG_GRP_CFG + 8 * 63) ∧ (5#32).toNat % 16 ≠ grpPrin {} 1 ∧ grpUsed {} 1 = false
    ∧ grpUsed (sig57 0x10000 0 0) 0 := by decide +kernel
def ev7 : Ev := ⟨7, 1, 0xC000, 1, 1, 2, 3, 4, 0, 0⟩
def sup7 : EvLog := { suppressed := [(8192, 3)] }
theorem witness_EventLog : ev7.sev ≠ 5 ∧ ev7.node ≠ 0x145 ∧ tget ({} : Dev).evlog.used 0 (budgetOf {} ev7).1 < (budgetOf {} ev7).2
    ∧ ({} : Dev).evlog.first.length < 255
    ∧ ¬((budgetOf ({ evlog := { used := [((budgetOf {} ev7).1, 300)] } } : Dev) ev7).2 = 255
        ∨ tget [((budgetOf {} ev7).1, 300)] 0 (budgetOf {} ev7).1 < (budgetOf ({ evlog := { used := [((budgetOf {} ev7).1, 300)] } } : Dev) ev7).2)
    ∧ 256 ≤ (List.replicate 256 (⟨0, ev7⟩ : LogSlot)).length ∧ 1792 ≤ (List.replicate 1792 (⟨0, ev7⟩ : LogSlot)).length
    ∧ (({} : Dev).setReg 0x145 R.LOG_EVENTS 6).flag 0x145 R.LOG_EVENTS 1 ∧ (({} : Dev).setReg 0x145 R.LOG_EVENTS 6).flag 0x145 R.LOG_EVENTS 2
    ∧ flashLoading ({ load := some { source := 1, boot := true } } : Dev) ∧ flashLoading {} = false
    ∧ ({ copying := some 5 } : EvLog).copyLost = 0 ∧ isPass (regGate {} owner7 0x145 R.LOG_WR)
    ∧ (0xC000 ≤ (0x1C000#32).toNat % 65536 ∧ (0x1C000#32).toNat / 65536 % 16 = ev7.sev ∧ (0x1C000#32).toNat % 65536 = ev7.code ∧ owner7.tenant = ev7.tag
        ∧ ev7.node = owner7.node % 1024 ∧ ev7.sub = owner7.unit % 4 ∧ ev7.time = ({} : Dev).dtime)
    ∧ [0, 1, 2, 3].all (fun j => tget (([0, 1, 2, 3].foldl (fun t k => tput t 0 (holdKey owner7 0x145 (R.LOG_WR + 16 + 4 * k)) (BitVec.ofNat 32 (k + 1))) [] : Tab Word)) 0
        (holdKey owner7 0x145 (R.LOG_WR + 16 + 4 * j)) = [ev7.p0, ev7.p1, ev7.p2, ev7.p3].getD j 0)
    ∧ (0x1BFFF#32).toNat % 65536 < 0xC000 ∧ sup7.suppressed = [(8192, 3)] ∧ sup7.first.length < 255
    ∧ admits {} cox 0x145 R.LOG_CTL ∧ admits {} cox 0x145 R.LOG_RD_SEQ ∧ cox.node ≠ 0x140 := by decide +kernel

/-! ### DRAM controllers -/

/-- A read of one unit at address 0 by tenant 0, and a write of a whole burst. -/
def rd1 : DramReq := { pkt := ⟨mkHdr 0x100 7 1 0 1 0 0 0 0 1 true 0, [], false⟩, loc := 0, len := 16, todo := [0] }
def wr4 : DramReq := { pkt := ⟨mkHdr 0x100 7 8 0 4 0 0 0 0 1 true 0, [1, 2, 3, 4], false⟩, loc := 0, len := 64, todo := [0] }
def dram0 (x : Dram) : Dev := ({} : Dev).setDram 0 x
def aloneOk (d : Dev) (q : DramReq) : Bool :=
  let x := d.dram 0
  x.queue = [q] && x.state = 2 && q.todo = [0] && subOf (q.loc / 64) = 0 && !dramHeld d q.pkt.tenant && !q.ue && q.got.isEmpty
def parted (slot : Nat) (l : List DramReq) : Dev := ((dram0 { state := 2, slot := slot, queue := l }).setReg 0x100 R.DDR_PART 1).setReg 0x100 (R.DDR_SLOT + 0) 64
theorem witness_DramRequests : aloneOk (dram0 { state := 2, queue := [rd1] }) rd1 ∧ (dram0 {}).flag 0x100 R.DDR_PART 0 = false
    ∧ (rd1.pkt.cmd = 1 ∧ rd1.pkt.len = 1 ∧ tget ({} : Dram).errs 0 (rd1.loc / 64) = 0) ∧ aloneOk (dram0 { state := 2, queue := [wr4] }) wr4
    ∧ (wr4.pkt.cmd = 8 ∧ wr4.pkt.len = 4 ∧ wr4.pkt.data.length = 4) ∧ ({ queue := [wr4, rd1] } : Dram).queue[1]? = some rd1
    ∧ (({} : Dev).setReg 0x100 R.DDR_PAGE_CFG 0x50).fld 0x100 R.DDR_PAGE_CFG 4 12 ≠ 0 ∧ (({} : Dev).setReg 0x100 R.DDR_PAGE_CFG 1).fld 0x100 R.DDR_PAGE_CFG 4 12 = 0
    ∧ (parted 0 []).flag 0x100 R.DDR_PART 0 ∧ ((parted 0 []).dram 0).slot = 0 ∧ ((parted 63 []).dram 0).slot ≠ 0 := by decide +kernel
theorem witness_DramStates : [0, 1, 2, 3, 4].all (fun st => admits (dram0 { state := st, oos := true }) cox 0x100 R.DDR_CTL
      && ((dram0 { state := st, oos := true }).dram 0).state = st)
    ∧ (dram0 { state := 3 }).drams.any (fun e => !e.2.oos) ∧ ((dram0 { state := 2 }).setReg 0x100 R.DDR_DEV_CFG 0x200).flag 0x100 R.DDR_DEV_CFG 9 := by
  decide +kernel
theorem witness_DramTraining : [0, 1, 2].all (fun st => admits (dram0 { state := st }) cox 0x100 R.DDR_TRN_CMD && !((dram0 { state := st }).dram 0).trn)
    ∧ dramAddr (dram0 { state := 1 }) 0 (((dram0 { state := 1 }).reg 0x100 R.DDR_TRN_ARG).toNat % 2 ^ 31 * 64) = none := by decide +kernel
theorem witness_DramRequests_slot : slotTenant ((dram0 { state := 2, slot := 8, queue := [rd1], shares := [(0, 64)] }).setReg 0x100 R.DDR_PART 1) 0 8 = some rd1.pkt.tenant
    ∧ subBurst (rd1.loc / 64) / 64 % 8 = 8 % 8 ∧ aloneOk ((dram0 { state := 2, slot := 8, queue := [rd1], shares := [(0, 64)] }).setReg 0x100 R.DDR_PART 1) rd1
    := by decide +kernel
/-- Channel 0 ACTIVE with the patrol on and a pattern of disturbed bits at burst 0. -/
def patrolled (p : BitVec 640) : Dev := (dram0 { state := 2, errs := tput [] 0 0 p }).setReg 0x100 R.DDR_PATROL 1000
theorem witness_DramUpkeep : (dram0 { state := 1 }).flag 0x100 R.DDR_PART 0 = false ∧ ({} : Dram).trn = false
    ∧ patrolOn (patrolled 0) 0 ∧ ((patrolled 0).dram 0).patrolPos + 1 < 2 * (dramGiB (patrolled 0) 0 * 2 ^ 23) ∧ burstAt 0 0 = 0
    ∧ tget ((patrolled 0).dram 0).errs 0 0 = 0 ∧ errGroups 1 = [0] ∧ tget ((patrolled 1).dram 0).errs 0 0 = 1
    ∧ 1 < (errGroups 257).length ∧ errSyms 257 ≤ 8 ∧ poisonIx (patrolled 257) 0 0 = none ∧ poisonFree (patrolled 257) 0 = some 0
    ∧ admits {} cox 0x100 R.DDR_ZF_CMD ∧ cox.node = 0x141 ∧ admits {} { cox with node := 0x140 } 0x100 R.DDR_ZF_CMD
    ∧ admits {} cox 0x100 R.DDR_ISET_CTL ∧ isetsLegal {} (isetRegs {}) ∧ ({} : Dev).unfilled = []
    ∧ isetsLegal (({} : Dev).setReg 0x100 R.DDR_ISET_A 0x400) (isetRegs (({} : Dev).setReg 0x100 R.DDR_ISET_A 0x400)) = false := by
  decide +kernel

/-! ### Lanes, links and device time -/

theorem witness_LaneDetectors : (({} : Dev).setReg 0x110 R.LANE_STATUS 0).flag 0x110 R.LANE_STATUS 0 = false ∧ (({} : Dev).setReg 0x110 R.LANE_STATUS 3).flag 0x110 R.LANE_STATUS 0
    ∧ (({} : Dev).setReg 0x110 R.LANE_STATUS 2).flag 0x110 R.LANE_STATUS 1 ∧ (({} : Dev).setReg 0x110 R.LANE_STATUS 0).flag 0x110 R.LANE_STATUS 1 = false
    ∧ (({} : Dev).setReg 0x110 R.LANE_PLL_STATUS 1).flag 0x110 R.LANE_PLL_STATUS 0 ∧ admits {} cox 0x110 R.LANE_PLL_CFG
    ∧ pllLegal (fVco (({} : Dev).setReg 0x110 R.LANE_PLL_MULT 160) 0) 0 true ∧ pllLegal (fVco {} 0) 7 false = false
    ∧ ({} : Dev).flag 0x110 R.LANE_GRP_CFG 2 = ({} : Dev).flag (0x110 + refPartner 0) R.LANE_GRP_CFG 2
    ∧ ({} : Dev).flag 0x110 R.LANE_PLL_STATUS 0 = false := by decide +kernel
/-- Lane 0 with its test control, its lane state and its status. -/
def lane0 (test st : Word) (x : Lane) : Dev := ((({} : Dev).setReg 0x110 R.LANE_TEST_CTL test).setReg 0x110 R.LANE_STATUS st).setLane 0 x
/-- Lane 0 attached to its running island, its PLL locked, transmitter or receiver on. -/
def design (ctl : Word) (x : Lane) : Dev :=
  ((((({} : Dev).setReg 0x110 R.LANE_GRP_CFG 2).setReg 0x110 R.LANE_PLL_STATUS 1).setReg 0x110 R.LANE_CTL ctl).setReg 0x110 R.LANE_STATUS 0).setIsl (laneIsland 0)
    { state := .running } |>.setLane 0 x
theorem witness_LaneTests : (lane0 0x10 0 { chkRun := 64 }).fld 0x110 R.LANE_TEST_CTL 4 3 ≠ 0 ∧ (lane0 0x10 0 {}).flag 0x110 R.LANE_STATUS 1 = false
    ∧ (lane0 0x10 0 {}).flag 0x110 R.LANE_STATUS 2 = false ∧ (lane0 0x10 4 {}).flag 0x110 R.LANE_STATUS 2 ∧ 16 ≤ popCount64 0xFFFF
    ∧ (lane0 0x1801 0 {}).fld 0x110 R.LANE_TEST_CTL 0 3 ≠ 0 ∧ (lane0 0x1801 0 {}).fld 0x110 R.LANE_TEST_CTL 10 5 = 6
    ∧ 2 ^ 6 ≤ ((lane0 0x1801 0 { genBits := 64 }).lane 0).genBits ∧ admits {} cox 0x110 R.LANE_TEST_CTL ∧ testRefused {} 0 0 = false
    ∧ testRefused {} 0 1 ∧ ({} : Dev).fld 0x110 R.LANE_TEST_CTL 0 3 = (0x1900#32).toNat % 8 ∧ ({} : Dev).fld 0x110 R.LANE_TEST_CTL 4 3 = (0x1900#32).toNat / 16 % 8
    ∧ ((0x1900#32).toNat / 256 % 4 ≠ 3 ∧ 6 ≤ (0x1900#32).toNat / 1024 % 32) ∧ admits {} cox 0x110 R.LANE_CTL ∧ admits {} cox 0x110 R.LANE_TX_COEF
    ∧ ({} : Dev).fld 0x110 R.LANE_GRP_CFG 0 2 ≠ 1
    ∧ ((({} : Dev).setReg 0x110 R.LANE_GRP_CFG 1).setReg 0x110 R.LNK_CFG 4).flag 0x110 R.LNK_CFG 2
    ∧ admits {} cox 0x110 R.LANE_GRP_CFG ∧ (({} : Dev).isl (laneIsland 0)).state = .idle ∧ tenantMapped {} 0 = false
    ∧ ((design 1 {}).isl (laneIsland 0)).state ≠ .idle
    ∧ tenantMapped (({} : Dev).setReg 0x110 R.LNK_TX_MAP 0x80040000) 0 ∧ (design 1 {}).fld 0x110 R.LANE_GRP_CFG 0 2 = 2 ∧ lanesTested (design 1 {}) = false
    ∧ (design 1 {}).fld 0x146 R.PWR_DEV_STATE 0 2 = 0 ∧ inIsland ((design 1 {}).isl (laneIsland 0)).state ∧ (design 1 {}).fld 0x110 R.LANE_TEST_CTL 8 2 = 0
    ∧ laneSends (design 1 {}) 0 ∧ (design 1 {}).flag 0x110 R.LANE_CTL 1 = false ∧ (design 1 {}).flag 0x110 R.LANE_CTL 2 = false
    ∧ laneSends (design 2 {}) 0 = false ∧ (design 2 {}).flag 0x110 R.LANE_CTL 1 ∧ (design 2 {}).flag 0x110 R.LANE_CTL 3 = false
    ∧ (design 2 {}).flag 0x110 R.LANE_STATUS 1 = false ∧ (design 2 {}).flag 0x110 R.LANE_STATUS 5 = false := by decide +kernel

/-- Link 0 in state `st`, with `x`. -/
def link0 (st : Word) (x : LinkSt) : Dev := ((({} : Dev).setReg 0x110 R.LNK_STATUS st).setReg 0x110 R.LNK_CFG 0x19 |>.setReg 0x110 R.LANE_GRP_CFG 1).setLink 0 x
def flitOk (f : Flit) (vc seq : Nat) : Bool := flitByte f 34 ++ flitByte f 35 = crc16 f && flitVc f = vc && flitSeq f = seq
/-- A follower whose upstream link is link 0. -/
def follower (st : Word) : Dev := ((link0 st {}).setReg 0x142 R.CRW_TIME_CFG 0x105).setReg 0x142 (R.CRW_ROUTE + 4 * 5) 0x80000000
theorem witness_LinkFlits : linkState (link0 2 {}) 0 = 2 ∧ lanesTested (link0 2 {}) = false ∧ linkFec (link0 2 {}) 0 = false
    ∧ flitOk (mkFlit false 0 1 (BitVec.ofNat 128 (2 ^ 63)) 0) 1 0 ∧ (flitSlot (mkFlit false 0 1 (BitVec.ofNat 128 (2 ^ 63)) 0) 0).getLsbD 63
    ∧ tget ({} : LinkSt).asm [] 1 = [] ∧ flitOk (mkFlit false 9 1 0 0) 1 9
    ∧ flitByte (mkFlit false 0 1 0 0 ^^^ 0x10000) 34 ++ flitByte (mkFlit false 0 1 0 0 ^^^ 0x10000) 35 ≠ crc16 (mkFlit false 0 1 0 0 ^^^ 0x10000)
    ∧ flitVc (mkFlit false 0 1 0 0 ^^^ 0x10000) ≠ 0 ∧ flitOk (mkFlit false 0 0 0xF 0) 0 0 ∧ (flitPay (mkFlit false 0 0 0xF 0)).toNat.testBit 3
    ∧ upstream (follower 2) = some 0 ∧ timeOn (follower 2) 0 ∧ ({ replay := [1], resend := 1 } : LinkSt).replay[0]? = some 1
    ∧ ({ nakDue := true } : LinkSt).nakDue ∧ ({ nakDue := true } : LinkSt).resend = 0 ∧ ({} : LinkSt).nakDue = false ∧ ({} : LinkSt).swapDue = none
    ∧ ({} : LinkSt).owed < 16 ∧ 0 < creditOf ({ credit := [(1, 5)] } : LinkSt) 1 := by decide +kernel
/-- A training frame of lane 0 from device 5, port 2, with its CRC. -/
def frame0 : BitVec 288 :=
  let f : BitVec 288 := BitVec.ofNat 288 (0x7E + 0x81 * 2 ^ 8 + 2 * 2 ^ 32 + 5 * 2 ^ 40)
  let c := crc16 (f.setWidth 320)
  f ||| ((c.extractLsb' 8 8).setWidth 288 <<< 272) ||| ((c.extractLsb' 0 8).setWidth 288 <<< 280)
def frameByte (k : Nat) : Nat := (flitByte (frame0.setWidth 320) k).toNat
def trained : Dev := (link0 1 { lanesOk := [0, 1, 2, 3, 4, 5, 6, 7, 8], peer := some frame0 }).setReg 0x110 R.LANE_PLL_STATUS 1
theorem witness_LinkTraining : admits {} cox 0x110 R.LNK_CTL ∧ mayTrain (link0 0 {}) 0 ∧ mayTrain {} 0 = false ∧ linkState (link0 5 {}) 0 = 5
    ∧ (link0 5 {}).flag 0x110 R.LNK_CFG 3 ∧ linkState trained 0 = 1
    ∧ flitByte (frame0.setWidth 320) 34 ++ flitByte (frame0.setWidth 320) 35 = crc16 (frame0.setWidth 320)
    ∧ frameByte 0 = 0x7E ∧ frameByte 1 = 0x81 ∧ frameByte 3 = 0 ∧ pllLocked trained 0 ∧ (∀ i < 9, i ∈ (trained.link 0).lanesOk)
    ∧ frameByte 5 % 64 ≠ trained.devId ∧ frameByte 6 = devEpoch trained (frameByte 5 % 64) ∧ frameByte 7 = lpEpoch trained (frameByte 5 % 64) (frameByte 4 % 32)
    ∧ (frameByte 8 % 2 = 1 ↔ trained.flag 0x110 R.LNK_CFG 1 = true) ∧ linkState (link0 3 {}) 0 = 3
    ∧ pllLocked ((link0 3 {}).setReg 0x110 R.LANE_PLL_STATUS 1) 0 := by decide +kernel
def sackUnit : W128 := BitVec.ofNat 128 (7 + 2 ^ 63)
/-- Link 0 with a peer, device 5, and a tunnelled unit from it. -/
def tunnelled (fresh : Bool) : Dev := (link0 2 {}).setReg 0x110 R.LNK_PEER_INFO (if fresh then 0x80000005 else 0)
def tunnelHdr : W128 := mkHdr 0x100 3 1 0 1 0 0 0 1 0 true 0x3FFFFD000000
theorem witness_LinkChannels : sackUnit.getLsbD 63 ∧ mapValid 0x80000000 ∧ mapTenant 0x80000000 = bitsOf sackUnit.toNat 26 4 ∧ mapValid 0 = false
    ∧ mapTenant 0x80040000 ≠ bitsOf sackUnit.toNat 26 4
    ∧ ((link0 2 {}).setReg 0x110 (R.LNK_TX_MAP + 8 * bitsOf sackUnit.toNat 0 10) 0x80000000).reg 0x110 (R.LNK_TX_MAP + 8 * 7) = 0x80000000
    ∧ tunnelHdr.getLsbD 63 ∧ (freeProxy {} 0 6).isSome ∧ tunnelFresh (tunnelled true) 0 (BitVec.ofNat 128 (5 * 64)) ∧ tunnelFresh (tunnelled false) 0 (BitVec.ofNat 128 (5 * 64)) = false
    ∧ deviceOf (bitsOf tunnelHdr.toNat 64 52) = (tunnelled true).devId ∧ destOf (tunnelled true) (bitsOf tunnelHdr.toNat 64 52) = some 0x100 := by decide +kernel
theorem witness_DeviceTime : upstream (follower 2) = some 0 ∧ timeOn (follower 2) 0 ∧ linkState (follower 2) 0 = 2 ∧ linkState (follower 3) 0 ≠ 2
    ∧ upstream {} ≠ some 0 ∧ isPass (regGate {} cox 0x142 R.CRW_DTIME_SET) ∧ isMaster {} ∧ ({} : Dev).dtime ≤ 5 ∧ isMaster (follower 2) = false := by
  decide +kernel

/-! ### Configuration, boot flash and scrubbing -/

/-- A section header: type, level, length, last, for every device. -/
def sect (typ depth len : Nat) (isLast : Bool) : W128 :=
  BitVec.ofNat 128 (typ + (if isLast then 256 else 0) + depth * 2 ^ 16 + len * 2 ^ 32 + (2 ^ 64 - 1) * 2 ^ 64)
/-- A load at word `pos`, inside a level-1 ENCRYPTED section where `sealed`. -/
def loadAt (pos : Nat) (sealed : Bool) : LoadSt :=
  { source := 0, boot := false, pos := pos, boxes := if sealed then [{ typ := 4, off := 4, stop := 9999, prin := 0 }] else [] }
def loading (l : LoadSt) : Dev := { ({} : Dev) with load := some l, roots := [(0, some 1), (1, some 2)], tenants := [(1, {})] }
/-- What `takes` asks of a section that lies in such a section, or at the top where no manifest covers it. -/
theorem takes_sealed (l : LoadSt) (typ : Nat) (hdr : W128) (body : List W128) (b : Box) (h : l.boxes = [b]) (hb : b.typ = 4)
    (h1 : hdr.getLsbD (64 + (loading l).devId) = true) (h2 : headBad (loading l) l typ hdr body false = none) (h3 : body.length = wf hdr 32 32)
    (h4 : b.stop ≠ l.pos + 1 + body.length)
    (h5 : l.limit = none := by rfl) : takes (loading l) l typ hdr body := by
  refine ⟨rfl, h1, h2, h3, ?_, ?_⟩
  · intro c r hc; rw [h] at hc; injection hc with hc _; rw [← hc]; exact h4
  · simp [coverBy, h, hb, h5]
theorem takes_top (l : LoadSt) (typ : Nat) (hdr : W128) (body : List W128) (h : l.boxes = [])
    (h1 : hdr.getLsbD (64 + (loading l).devId) = true) (h2 : headBad (loading l) l typ hdr body false = none) (h3 : body.length = wf hdr 32 32)
    (hc : typ = 1 ∨ typ = 2 ∨ l.hashes = some [words384 (hdr :: body)])
    (h5 : l.limit = none := by rfl) : takes (loading l) l typ hdr body := by
  refine ⟨rfl, h1, h2, h3, ?_, ?_⟩
  · intro c r hr; rw [h] at hr; cases hr
  · rcases hc with hc | hc | hc <;> simp [coverBy, h, hc, takeHash, h5] <;> split <;> simp
/-- A manifest's body whose anchor is the hash of the load's header, with no hashes. -/
def anchored (h : BitVec 384) : List W128 := 0 :: (List.range 3).map (fun k => h.extractLsb' (128 * k) 128) ++ List.replicate 12 0
/-- FRAME_WRITE of frame 0, MEMORY_INIT of row 0 of memory 0, of island 7. -/
def frameBody : List W128 := BitVec.ofNat 128 (7 + 2 ^ 21) :: List.replicate 32 5
def memBody : List W128 := [BitVec.ofNat 128 (7 + 2 ^ 28), 9]
def linkBody : List W128 := [1, 0, 0, 0]
/-- A load that expects the section `typ` with `body` next. -/
def expecting (pos typ : Nat) (body : List W128) : LoadSt := { loadAt pos false with hashes := some [words384 (sect typ 1 body.length false :: body)] }
theorem witness_LoadSections_header : takes (loading (loadAt 0 false)) (loadAt 0 false) 1 (sect 1 1 2 false) [BitVec.ofNat 128 (1 + 65 * 2 ^ 24), 99]
    ∧ stepLetter (loading (loadAt 0 false)) = 65 :=
  ⟨takes_top _ _ _ _ rfl (by decide +kernel) (by decide +kernel) (by decide +kernel) (by decide), by decide +kernel⟩
theorem witness_LoadSections_manifest : takes (loading (loadAt 3 false)) (loadAt 3 false) 2 (sect 2 1 16 false) (anchored (words384 []))
    ∧ manifestBad (loading (loadAt 3 false)) 0 [] (anchored (words384 [])) 16 true = none := by
  constructor
  · exact takes_top _ _ _ _ rfl (by decide +kernel) (by rfl) (by decide +kernel) (by decide)
  · have h : ∀ x : BitVec 384, BitVec.ofNat 384 (wordsNum (((anchored x).drop 1).take 3)) = x := by
      intro x; apply BitVec.eq_of_toNat_eq
      simp [anchored, wordsNum, List.range, List.range.loop, Nat.shiftRight_eq_div_pow]; omega
    have e0 : bodyWord (anchored (words384 [])) 0 = 0 := rfl
    have hk : keyHashOf (loading (loadAt 3 false)) 0 = none := by decide +kernel
    have e1 : wf 0 0 4 = 0 := by decide
    have e2 : wf 0 16 16 = 0 := by decide
    have e3 : (loadAt 3 false).hdr = [] := rfl
    rw [manifestBad, e0, hk, h, show wf 0 0 4 = 0 from e1, e2]
    simp
theorem witness_LoadSections_container : headBad (loading (loadAt 3 false)) (loadAt 3 false) 3 (sect 3 1 5 false) [1] false = none
    ∧ 1 < wf (sect 3 1 5 false) 32 32 := by decide +kernel
theorem witness_LoadSections_encrypted : takes (loading (expecting 4 4 [0, 0, 0])) (expecting 4 4 [0, 0, 0]) 4 (sect 4 1 3 false) [0, 0, 0] :=
  takes_top _ _ _ _ rfl (by decide +kernel) (by decide +kernel) (by decide +kernel) (Or.inr (Or.inr rfl))
theorem witness_LoadSections_frames : takes (loading (loadAt 9 true)) (loadAt 9 true) 5 (sect 5 2 33 false) frameBody
    ∧ wf (bodyWord frameBody 0) 0 8 = 7 ∧ wf (bodyWord frameBody 0) 21 13 = 1 ∧ entitled (loading (loadAt 9 true)) 0 7 :=
  ⟨takes_sealed _ _ _ _ _ rfl rfl (by decide +kernel) (by decide +kernel) (by decide +kernel) (by decide), by decide +kernel, by decide +kernel, by decide +kernel⟩
theorem witness_LoadSections_memory : takes (loading (loadAt 9 true)) (loadAt 9 true) 6 (sect 6 2 2 false) memBody
    ∧ wf (bodyWord memBody 0) 0 8 = 7 ∧ memTarget memBody < 96 ∧ wf (bodyWord memBody 0) 28 13 = 1 ∧ (bodyWord memBody 0).getLsbD 41 = false :=
  ⟨takes_sealed _ _ _ _ _ rfl rfl (by decide +kernel) (by decide +kernel) (by decide +kernel) (by decide), by decide +kernel, by decide +kernel,
    by decide +kernel, by decide +kernel⟩
theorem witness_LoadSections_setup : takes (loading (loadAt 9 true)) (loadAt 9 true) 7 (sect 7 2 75 false) (7 :: List.replicate 74 0)
    ∧ preloadDue (7 :: List.replicate 74 0) = 0 :=
  ⟨takes_sealed _ _ _ _ _ rfl rfl (by decide +kernel) (by decide +kernel) (by decide +kernel) (by decide), by decide +kernel⟩
theorem witness_LoadSections_links : takes (loading (loadAt 9 true)) (loadAt 9 true) 8 (sect 8 2 4 false) linkBody
    ∧ (bodyWord linkBody 0).getLsbD 0 ∧ wf (bodyWord linkBody 0) 12 10 = 0 :=
  ⟨takes_sealed _ _ _ _ _ rfl rfl (by decide +kernel) (by decide +kernel) (by decide +kernel) (by decide), by decide +kernel, by decide +kernel⟩
theorem witness_LoadSections_start : takes (loading (expecting 9 9 [0, 0])) (expecting 9 9 [0, 0]) 9 (sect 9 1 2 false) [0, 0]
    ∧ maskIslands (startMask [0, 0]) = [] :=
  ⟨takes_top _ _ _ _ rfl (by decide +kernel) (by decide +kernel) (by decide +kernel) (Or.inr (Or.inr rfl)), by decide +kernel⟩
/-- A load whose trailer comes next. -/
def ending (taken : List Taken) : LoadSt := { loadAt 9 false with total := 11, hashes := some [], taken := taken }
def trailOk (l : LoadSt) (w : W128) : Bool :=
  let d := loading l
  d.load = some l && l.boxes.isEmpty && (sect 10 1 1 true).getLsbD (64 + d.devId) && headBad d l 10 (sect 10 1 1 true) [w] false = none
    && wf (sect 10 1 1 true) 32 32 = 1 && wf w 32 96 = 0 && l.total = l.pos + 2 && !l.boot && l.origin.isNone
/-- Its only island, set up with a settle count of 1. -/
def t7 : Taken := ⟨7, true, 0, 4, [(7, BitVec.ofNat 128 (7 + 2 ^ 43) :: List.replicate 74 0)]⟩
theorem witness_LoadsEnd : trailOk (ending []) 0 ∧ BitVec.ofNat 32 (wf 0 0 32) = ~~~(ending []).crc ∧ trailOk (ending []) 1
    ∧ BitVec.ofNat 32 (wf 1 0 32) ≠ ~~~(ending []).crc ∧ trailOk (ending [t7]) 0 ∧ ((loading (ending [t7])).isl 7).state = .idle
    ∧ admits (loading (ending [])) cox 0x142 R.CFG_CTL ∧ admits {} cox 0x142 R.CFG_CTL ∧ loadRefused {} ∧ loadRefused (({} : Dev).setReg 0x141 R.COX_STATUS 1) = false
    ∧ ((({} : Dev).setReg 0x141 R.COX_STATUS 1).setReg 0x142 R.CFG_STATUS 0x80).fld 0x142 R.CFG_STATUS 6 2 = 2
    ∧ (({} : Dev).setReg 0x141 R.COX_STATUS 1).flag 0x141 R.FUS_POLICY 2 = false ∧ admits {} cox 0x142 R.CFG_CACHE_CFG ∧ granMapped {} 0 = false
    ∧ granMapped (({} : Dev).setReg 0x141 R.COX_GMAP 1) 0 := by decide +kernel
theorem witness_LoadsEnd_flaw :
    loadFlaw ((loading (ending [t7])).setReg64 0x142 R.CFG_WORDS 11) (applyTaken { (loading (ending [t7])).setReg64 0x142 R.CFG_WORDS 11 with load := none } t7)
      { ending [t7] with outer := [], pos := 11 } = none := by decide +kernel
/-- Scrub unit 0 at frame 0 of island 0, which holds `x`. -/
def scrubbing (x : FrameNodes) : Dev := ((({} : Dev).setIsl 0 { state := .loaded }).setReg 0x164 R.SCB_CTL 1).setFrame 0 0 x
theorem witness_FlashAndScrub : admits {} cox 0x142 R.CFG_FLASH_CMD ∧ ({} : Dev).flashCmd = none
    ∧ ({ load := some { source := 1, boot := true } } : Dev).load.map (·.source) = some 1 ∧ flashByte {} 255 &&& ~~~(0 : Byte) = 0
    ∧ flashByte (({} : Dev).setReg 0x142 R.CFG_FLASH_BUF 0xFF) 0 &&& ~~~(0 : Byte) ≠ 0 ∧ (({} : Dev).setReg 0x164 R.SCB_CTL 0).flag 0x164 R.SCB_CTL 0 = false
    ∧ (scrubbing {}).flag 0x164 R.SCB_CTL 0 ∧ inStandby (scrubbing {}) = false ∧ (scrubbing {}).fld 0x164 R.SCB_STATUS 0 6 = 0
    ∧ (scrubbing {}).fld 0x164 R.SCB_STATUS 6 13 = 0 ∧ islandAt 0 0 = 0 ∧ scrubbed (scrubbing {}) 0
    ∧ frameCode ((0 : Frame) ^^^ 1) ≠ frameCode 0 := by decide +kernel
/-- A load whose stream ends behind its START. -/
def cutShort : LoadSt := { expecting 4 9 [0, 0] with limit := some 7 }
theorem witness_LoadSections_truncated : headBad (loading cutShort) cutShort 9 (sect 9 1 2 false) [0, 0] false = none
    ∧ (coverBy cutShort 9 (sect 9 1 2 false :: [0, 0])).isSome ∧ maskIslands (startMask [0, 0]) = [] ∧ cutShort.boxes = []
    ∧ (sect 9 1 2 false).getLsbD (64 + (loading cutShort).devId) := by
  refine ⟨by decide +kernel, ?_, by decide +kernel, rfl, by decide +kernel⟩
  have h : (2 : Nat) = List.length [(0 : W128), 0] := rfl
  simp [coverBy, cutShort, expecting, loadAt, takeHash]

/-! ### Eviction and crew-wide commands -/

def wipe7 : Wipe := { kind := .evict true, tenant := 1, islands := [7], grans := [], zeroing := [], filling := [] }
def evicting7 (w : Wipe) (z : Bool) : Dev :=
  { (at7 { state := .evicting, zeroising := z }).setReg 7 R.ISL_OWNER 1 with wipes := [w], tenants := [(1, { islands := 128 })] }
/-- Granule 0, on channel 0 alone, filled there. -/
def filling0 : Dev := { dram0 { state := 2, zf := some 0 } with isets := [(0, 16, 1, 0)], fills := [(0, 0)], unfilled := [0] }
theorem witness_Eviction : (∀ v ∈ ({} : Dev).wipes, v.quiet = true) ∧ (evicting7 wipe7 false).wipes = [wipe7] ∧ wipe7.quiet = false
    ∧ unitsBusy (evicting7 { wipe7 with stopped := true } false) 7 = false ∧ (evicting7 wipe7 false).fills = []
    ∧ unitsBusy ({ noc := { outst := [⟨7, 0, 0, 4, 0, 1⟩] } } : Dev) 7 ∧ evictFeathered (at7 { state := .evicting, phase := 2 }) 7 = false
    ∧ ((evicting7 wipe7 false).isl 7).zeroising = false ∧ ((evicting7 wipe7 true).isl 7).zeroising ∧ ((evicting7 wipe7 true).isl 7).state = .evicting
    ∧ ({ evicting7 wipe7 true with wipes := [] } : Dev).wipes = []
    ∧ (({} : Dev).dram 0).zf = none ∧ (filling0.dram 0).zf = some 0 ∧ (filling0.dram 0).state = 2 ∧ filling0.fills = [(0, 0)] ∧ filling0.wipes = []
    ∧ granRange filling0 0 = some (0, 2 ^ 30) ∧ granChannels filling0 0 = [0] ∧ fillWaits filling0 0 0 = false := by decide +kernel
/-- Both ends of the range of tenants, idle and busy, with device 3 in their masks. -/
def crewing (busy : Word) (t : Nat) : Dev := (({} : Dev).setReg 0x142 (R.CRW_CMD_DEVS + 0x40 * t) 8).setReg 0x142 (R.CRW_CMD_CTL + 0x40 * t) busy
theorem witness_CrewCommands : [0, 15].all (fun t => [t].all (fun u => [0, 0x20].all (fun b =>
      admits (crewing b t) { cox with tenant := u } 0x142 (R.CRW_CMD_CTL + 0x40 * t) && (crewing b t).flag 0x142 (R.CRW_CMD_CTL + 0x40 * t) 5 == (b != 0))))
    ∧ (crewing 0 15).reg64 0x142 (R.CRW_CMD_DEVS + 0x40 * 15) = 8 ∧ bitsIn (8 : W64) = [3] ∧ crewCmd (crewing 0 15) 15 = none
    ∧ bitsOf ((crewing 0 15).reg64 0x142 (R.CRW_CMD_ARG + 0x40 * 15)).toNat 0 4 ≠ 15
    ∧ (((crewing 0 15).setReg 0x142 (R.CRW_CMD_ARG + 0x40 * 15) 15).reg64 0x142 (R.CRW_CMD_ARG + 0x40 * 15)) = 15 := by
  decide +kernel
/-- Command 6 of tenant 1's slot, over device 3 alone, in a phase. -/
def crew1 (op phase : Nat) : CrewCmd :=
  { op := op, id := 6, devs := [3], ents := [{ dev := 3, mask := 1 }], arg := 0, stay := false, replay := false, phase := phase }
def crewDev (c : CrewCmd) : Dev := setCrewCmd {} 1 (some c)
def said (st : Status) : CrewMsg := { src := 3, slot := 1, id := 6, st := st }
theorem witness_CrewAnswers : [(1, 1), (1, 2), (5, 2), (5, 3), (1, 4), (8, 5)].all (fun p =>
      (crewCmd (crewDev (crew1 p.1 p.2)) 1 == some (crew1 p.1 p.2)) && (crew1 p.1 p.2).ents.map (·.dev) == [(said .ok).src]
        && (crew1 p.1 p.2).id == (said .ok).id && (crew1 p.1 p.2).devs == [3])
    ∧ (said .badState).st = .badState ∧ (said .ok).op ≠ 10 ∧ ({ said .ok with op := 10 } : CrewMsg).op = 10 ∧ ({ cox with node := 0x142 } : Req).node = 0x142
    ∧ tenant1.node < 256 := by decide +kernel
def link1 (r : Nat) : Req := { node := 0x142, unit := 0, tenant := r }
def part1 (n : Option W64) (saved : List (Nat × W64)) : RegionCmd := ⟨.limit, 0, [7], 0, saved, n, .message 3 1 6, none, true, true, false⟩
def member (c : RegionCmd) (count : W64) : Dev :=
  { (at7 { state := .feathered, count := count }).setReg64 7 R.STK_HOLD (BitVec.allOnes 64) with regions := [c] }
def crewCatch : CatchCmd := { catch7 false false with origin := .message 3 1 6, crew := true }
def crewCopy : Dev := { at7 { state := .feathered, count := 4, phase := 5 } with
    catches := [crewCatch], regions := [⟨.catchAt, 0, [7], 0, [(7, BitVec.allOnes 64)], some 4, .message 3 1 6, none, true, true, true⟩] }
theorem witness_CrewMembers : ({} : Dev).regions = [] ∧ ({} : Dev).catches = [] ∧ bitsIn (128 : BitVec 256) = [7] ∧ steps7 (run7 1) 1
    ∧ (member (part1 none []) 4).regions = [part1 none []] ∧ strokeMode (member (part1 none []) 4) 7 ∧ ((member (part1 none []) 4).isl 7).count = 4
    ∧ (4 : W64) < (member (part1 none []) 4).reg64 7 R.STK_LIMIT ∧ (4 : W64) < (member (part1 none []) 4).reg64 7 R.STK_HOLD
    ∧ (part1 (some 4) [(7, 9)]).saved = [(7, 9)] ∧ ¬(9 : W64) ≤ 4 ∧ (part1 none []).origin = .message 3 1 6
    ∧ crewCopy.catches = [crewCatch] ∧ quiet crewCopy 7 ∧ (catchRegion crewCopy crewCatch).any (fun g => regionDone crewCopy g && g.ended.isNone)
    ∧ logEn crewCopy 7 = false
    ∧ restoreRefused ((at7 { state := .feathered }).setReg (sealNode 7) R.CAT_SEAL_KEYS 1) 0 (image7 true) [7] = none
    ∧ (restoreRefused {} 0 (image7 true) [7]).isSome ∧ (image7 true).sections.map (·.island) = [7]
    ∧ entryOf (evicting7 wipe7 false) 1 = some { islands := 128 } ∧ entryOf {} 1 = none
    ∧ tenantBusy ({ evicting7 wipe7 false with wipes := [] } : Dev) 1 = false ∧ ((evicting7 wipe7 false).isl 7).state ≠ .idle
    ∧ coxReady (({} : Dev).setFld 0x141 R.COX_STATUS 0 2 1) ∧ nodeKind 0x110 = some .link
    ∧ (∀ j < 32, mayTrain {} j = false) := by decide +kernel

/-! ### The host interface -/

/-- A device whose function 0 is bus master of an up link, with channel 9 as given and granules 0 to 15 on DRAM channel 0. -/
def onHost (d : Dev) (x : Chan) : Dev :=
  { (((d.setReg 0x140 R.HIF_LINK 0x10000).setReg 0x140 R.HIF_BLK_MAP 0).setReg 0x140 (fnArea 0 R.HIF_FN_STATUS) 4).setChan 9 x with isets := [(0, 16, 1, 0)] }
def hosting (x : Chan) : Dev := onHost {} x
/-- A descriptor of 64 bytes, host address 0x1000 and device address 0x2000 in the fields `op` uses, or the same the other way round. -/
def job (op : Nat) : Job := { idx := 5, raw := BitVec.ofNat 256 (op + 64 * 2 ^ 32 + 0x1000 * 2 ^ 64 + 0x2000 * 2 ^ 128) }
def serves (d : Dev) (j : Job) : Bool :=
  chanFn d 9 == some 0 && chanRuns d 9 && (d.chan 9).jobs == [j] && hostLinkUp d && d.hostAccs.isEmpty && d.hifUses.isEmpty && hifRoom d
def held (j : Job) : Dev := hosting { state := 1, jobs := [j] }
def picked (x : Chan) : Dev := (hosting x).setReg 0x140 (fnArea 0 R.HIF_CH_SEL) 9
def ended5 : Job := { job 0 with result := some (.ok, .ok, 0, 0) }
theorem witness_HostChannels : [0, 1, 2, 3, 4].all (fun st => admits (picked { state := st }) cox 0x140 (fnArea 0 R.HIF_CH_CTL)
      && (selChan (picked { state := st }) 0 == some 9) && ((picked { state := st }).chan 9).state == st)
    ∧ blockShut (picked {}) 0 9 = false ∧ bitsOf ({} : Chan).cfg.toNat 0 4 ≤ 12 ∧ ({} : Chan).sqBase.toNat % 64 = 0 ∧ selChan ((picked {}).setReg 0x140 (fnArea 0 R.HIF_CH_SEL) 1023) 0 = some 1023
    ∧ selChan ((({} : Dev).setReg 0x140 (fnArea 16 R.HIF_CH_SEL) 65535)) 16 = none ∧ admits {} cox 0x140 (fnArea 16 R.HIF_CH_CTL)
    ∧ fetchReady (hosting { state := 1, sqTail := 1 }) 0 { state := 1, sqTail := 1 } ∧ mayTag (hosting { state := 1, sqTail := 1 }) 0
    ∧ hifRoom (hosting { state := 1, sqTail := 1 }) ∧ (takeTurn (hosting { state := 1, sqTail := 1 }) 0 0 9).isSome
    ∧ chanRuns (hosting { state := 1, sqTail := 1 }) 9
    ∧ serves (held (job 0)) (job 0) ∧ jobOp (job 0) = 0 ∧ (job 0).result = none ∧ serves (held ended5) ended5 ∧ ended5.cmd = none
    ∧ ((held ended5).chan 9).cqRoom ∧ ((held ended5).chan 9).cfg.getLsbD 19 = false ∧ ((held ended5).chan 9).err = 0
    ∧ (({ cqTail := 3, cqHead := 4 } : Chan).cqRoom = false) := by decide +kernel
def moves (op dir : Nat) (j : Job) : Bool :=
  serves (held j) j && jobOp j == op && partReady { state := 1, jobs := [j] } j dir && (takeTurn (held j) dir 0 9).isSome && mayTag (held j) 0
def hacc (u : HostUse) : HostAcc := ⟨0, 0, false, 0, 32, [], u, true⟩
def answering (a : HostAcc) (j : List Job) : Dev := { hosting { state := 1, jobs := j, fetching := j.isEmpty } with hostAccs := [a] }
theorem witness_HostTransfers : moves 1 0 (job 1) ∧ moves 2 1 (job 2) ∧ serves (held (job 3)) (job 3)
    ∧ moves 3 0 { job 3 with started := true, est := 9 } ∧ moves 4 1 (job 4)
    ∧ [0x1000, 0x2000, 0x2030, 0x1030].all (fun a => (destOf (held (job 1)) a).isSome)
    ∧ [({ job 3 with started := true, waiting := true } : Job), { job 0x10 with started := true }].all (fun j => serves (held j) j && !chanHeld (held j) 9
        && bitsOf ((held j).chan 9).timeout.toNat 0 16 != 0)
    ∧ (answering (hacc (.fetch 9 5 1)) []).hostAccs = [hacc (.fetch 9 5 1)] ∧ chanFn (answering (hacc (.fetch 9 5 1)) []) 9 = some 0
    ∧ ((answering (hacc (.fetch 9 5 1)) []).chan 9).state = 1
    ∧ ((answering (hacc (.part 9 5 0)) [{ job 1 with parts := [(0, 64)] }]).chan 9).jobs = [{ job 1 with parts := [(0, 64)] }]
    ∧ (destOf (answering (hacc (.part 9 5 0)) []) 0x2000).isSome ∧ (answering (hacc (.part 9 5 0)) []).hifUses = []
    ∧ (rd1.pkt.rr ∧ ({} : Dev).epochOf 0x140 rd1.pkt.src = rd1.pkt.epoch) ∧ (hacc (.noc rd1.pkt)).write = false ∧ ({} : Dev).hostAccs = [] := by
  decide +kernel
/-- A control descriptor with a sub-op, flags and B. -/
def ctl (op sub flags b : Nat) : Job := { idx := 5, raw := BitVec.ofNat 256 (op + flags * 256 + sub * 2 ^ 24 + 64 * 2 ^ 32 + b * 2 ^ 128) }
def crewJob (op sub b : Nat) : Job := { idx := 5, raw := BitVec.ofNat 256 (op + 4 * 256 + sub * 2 ^ 24 + b * 2 ^ 128 + 8 * 2 ^ 192) }
def ent7 : CrewEnt := { dev := 3, mask := 128, base := 0, limit := 2 ^ 30 }
def island7 (x : Island) (j : Job) : Dev := onHost (at7 { x with setup := { fabricRoute := true } }) { state := 1, jobs := [j] }
def mine (x : Island) (j : Job) : Bool :=
  let d := island7 x j
  serves d j && j.result.isNone && !j.started && strokeMode d 7 && !(d.isl 7).prBusy && !(d.isl 7).featheredByStandby && !(d.isl 7).drainActive && d.regions.isEmpty
def sealed7 (x : Island) (j : Job) : Dev := (island7 x j).setReg (sealNode 7) R.CAT_SEAL_KEYS 1
theorem witness_HostControl : fnTenant (held (ctl 0x10 0 0 0)) 0 = 0 ∧ serves (held (ctl 0x10 0 0 0)) (ctl 0x10 0 0 0) ∧ serves (held (ctl 0x11 0 0 0)) (ctl 0x11 0 0 0)
    ∧ loadRefused (held (ctl 0x10 0 0 0)) ∧ loadRefused ((held (ctl 0x10 0 0 0)).setFld 0x141 R.COX_STATUS 0 2 1) = false
    ∧ bitsIn ent7.mask = [7] ∧ mine { state := .running, phase := 1 } (ctl 0x12 1 0 0)
    ∧ [(2, 0), (3, 9), (4, 9)].all (fun p => mine { state := .feathered, phase := 5, count := 4 } (ctl 0x12 p.1 0 p.2))
    ∧ jobCrew (ctl 0x12 3 0 9) = false ∧ jobSub (ctl 0x12 3 0 9) = 3 ∧ jobB (ctl 0x12 3 0 9) = 9
    ∧ (4 : W64) < (island7 { state := .feathered, count := 4 } (ctl 0x12 3 0 9)).reg64 7 R.STK_LIMIT
    ∧ mine { state := .loaded } (ctl 0x12 5 0 0) ∧ (island7 {} (ctl 0x12 5 0 0)).owner 7 = 0
    ∧ ((island7 {} (ctl 0x12 5 0 0)).setReg 7 R.ISL_OWNER 1).owner 7 ≠ 0
    ∧ mine { state := .running, phase := 2 } (ctl 0x13 0 0 0)
    ∧ catchRefused (sealed7 { state := .running, phase := 2 } (ctl 0x13 0 0 0)) 0 [7] ent7.limit none = false
    ∧ catchRefused (held (ctl 0x13 0 0 0)) 0 [7] 0 none
    ∧ serves (held (ctl 0x14 0 0 0)) (ctl 0x14 0 0 0) ∧ jobP (ctl 0x14 0 0 0) = 0
    ∧ restoreRefused (sealed7 { state := .feathered } (ctl 0x14 0 0 0)) 0 (image7 true) [7] = none
    ∧ (restoreRefused (held (ctl 0x14 0 0 0)) 0 (image7 true) [7]).isSome
    ∧ serves (held (ctl 0x15 0 0 1)) (ctl 0x15 0 0 1) ∧ entryOf (held (ctl 0x15 0 0 1)) 1 = none
    ∧ entryOf (onHost (evicting7 wipe7 false) { state := 1, jobs := [ctl 0x15 0 0 1] }) 1 = some { islands := 128 }
    ∧ [(0x12, 1), (0x12, 2), (0x12, 3), (0x12, 4), (0x13, 0), (0x14, 0), (0x15, 0)].all (fun p => jobCrew (crewJob p.1 p.2 1) && jobSub (crewJob p.1 p.2 1) == p.2
        && jobP (crewJob p.1 p.2 1) == 2 ^ ent7.dev && jobOp (crewJob p.1 p.2 1) == p.1 && serves (held (crewJob p.1 p.2 1)) (crewJob p.1 p.2 1)
        && !(held (crewJob p.1 p.2 1)).flag 0x142 (crewReg R.CRW_CMD_CTL 0) 5
        && ((held (crewJob p.1 p.2 1)).setReg 0x142 (crewReg R.CRW_CMD_CTL 0) 32).flag 0x142 (crewReg R.CRW_CMD_CTL 0) 5)
    ∧ jobLen { idx := 5, raw := BitVec.ofNat 256 (0x16 + 16 * 2 ^ 32) } = 16 ∧ inControl 0x3FFFFD410000 ∧ (destOf (held (job 1)) 0x3FFFFD410000).isSome
    ∧ jobOp (ctl 0x17 0 0 0) = 0x17 ∧ serves (held (ctl 0x17 0 0 0)) (ctl 0x17 0 0 0) ∧ logHeld (held (ctl 0x17 0 0 0)) = [] := by
  decide +kernel
/-- Vector 0 given to function 0, its message allowed, pending, or its moderation running. -/
def vectored (st : Word) (timer : Option W64) : Dev :=
  { ((({} : Dev).setReg 0x140 (R.HIF_FN_VEC + 0) 0x10000).setReg 0x140 (fnArea 0 R.HIF_FN_STATUS) st).setReg 0x140 (R.HIF_MSIX_CTL + 0) 0
    |>.setReg 0x140 (pbaOff 0) 1 with vecs := tput [] {} 0 { timer := timer } }
theorem witness_HostFunctions : [0, 255].all (fun w => admits {} cox 0x140 (R.HIF_HWIN_FN + 0x10 * w)) ∧ ({} : Dev).hostAccs = []
    ∧ [0, 63].all (fun b => admits {} cox 0x140 (R.HIF_BLK_MAP + 4 * b)) ∧ (∀ e ∈ ({} : Dev).chans, e.2.state = 0)
    ∧ [0, 255].all (fun b => [0, 17, 31].all (fun f => blockOk {} b f)) ∧ blockOk {} 255 16 = false
    ∧ [0, 16].all (fun f => admits {} cox 0x140 (R.HIF_FN_VEC + 0x10 * f)) ∧ (fnStatus {} 0).getLsbD 3 = false
    ∧ [1984 + 64 * 2 ^ 16, 0].all (fun v => bitsOf v 0 11 % 64 == 0 && bitsOf v 0 11 + bitsOf v 16 12 ≤ 2048)
    ∧ (∀ g < 17, g ≠ 16 → ({} : Dev).reg 0x140 (R.HIF_FN_VEC + 0x10 * g) = 0)
    ∧ (fnStatus (vectored 8 none) 0).getLsbD 3 ∧ vecFn (vectored 8 none) 0 = some 0 ∧ vecClear (vectored 8 (some 5)) 0 0
    ∧ ((vectored 8 (some 5)).vec 0).timer.isSome ∧ (vectored 8 none).flag 0x140 (pbaOff 0) 0 ∧ vecClear (vectored 0x18 (some 5)) 0 0 = false
    ∧ debugFrozen (vectored 8 (some 5)) 0 6 = false ∧ hostLinkUp (hosting {}) ∧ hostLinkUp {} = false := by decide +kernel

/-! ### The Cox, JTAG and debug -/

/-- A ready Cox whose slot k holds `v` in its buffer's first n bytes. -/
def mailed (k v n : Nat) : Dev := ((putResult {} k v n).setFld 0x141 R.COX_STATUS 0 3 1).setReg 0x141 (mbxOff k) 0x40
/-- What that buffer's bytes are: first byte, number of bytes, value. Every other buffer below is put there in the same way. -/
def bufHas (k v n : Nat) (l : List (Nat × Nat × Nat)) : Bool :=
  (fun b => l.all (fun e => bytesAt b e.1 e.2.1 == e.2.2)) (mbxBuf (mailed k v n) k)
def claimed (d : Dev) : Dev := d.setReg 0x141 R.FUS_VALID 1
def bare1 : Grant := ⟨1, 3, 63, 0, 0, 0, 0, 0, none, none⟩
def granted (k v : Nat) (g : Grant) : Dev := { mailed k v 4 with grants := [(5, g)] }
/-- A payload from byte 64 on. -/
def pay (v : Nat) : Nat := v * 2 ^ 512
theorem witness_CoxCommands : [0, 16].all (fun k => [cox, { cox with tenant := k }].any (fun r => admits (mailed k 0 0) r 0x141 (mbxOff k))
      && (mailed k 0 0).flag 0x141 (mbxOff k) 6 && !((mailed k 0 0).setReg 0x141 (mbxOff k) 0).flag 0x141 (mbxOff k) 6)
    ∧ coxState {} ≠ 1 ∧ coxState {} ≠ 2 ∧ coxState (mailed 0 0 0) = 1 ∧ (mailed 0 0 0).flag 0x141 R.COX_STATUS 10 = false
    ∧ policy ((mailed 0 0 0).setReg 0x141 R.FUS_POLICY 16) 4 ∧ policy (mailed 0 0 0) 4 = false ∧ policy (mailed 0 0 0) 5 = false ∧ (mailed 0 0 0).grants = []
    ∧ bufHas 0 (pay (15 + 2 ^ 32)) 80 [(64, 1, 15), (68, 4, 1)]
    ∧ (wrapperIn (mailed 0 0 0) 0 5 0 none false).2 = some .badState
    ∧ pathOk (granted 1 (5 + 256) bare1) 1 1 bare1 ∧ grantAt (granted 1 (5 + 256) bare1) 5 = some bare1 ∧ bare1.prin = 1 ∧ bare1.prin ≠ 0
    ∧ grantAt (granted 1 (5 + 256) { bare1 with nonce := some (1, 7, 0) }) 5 = some { bare1 with nonce := some (1, 7, 0) }
    ∧ pathGrant (granted 1 (5 + 256) { bare1 with nonce := some (1, 7, 0) }) 1 = none
    ∧ (reportBody (mailed 16 0 0) 16 0).2 + 96 ≤ 1024 ∧ coxCount (mailed 0 0 0) ≤ 0
    ∧ 0 < coxCount ((mailed 0 0 0).setReg64 0x141 R.FUS_COX_ARC 1)
    ∧ nodeKind 0x15F = some .sys
    ∧ ((mailed 0 0x15F 2).setReg 0x15F R.SCL_SYS_ROLE 0x40).flag 0x15F R.SCL_SYS_ROLE 6
    ∧ nodeKind 7 = some .isl
    ∧ (ownerHash (claimed (mailed 16 0 0))).isSome ∧ policy (claimed (mailed 16 0 0)) 8 = false
    ∧ bitsOf 0x80003FFF 14 17 = 0 ∧ imageRead (mailed 0 0 0) 0 = none ∧ imageRead (claimed (mailed 16 0 0)) 16 = none
    ∧ imageRead ((mailed 0 0 0).setReg 0x141 (mbxOff 0 + 8) 8) 0 = some (0x141, .malformed)
    ∧ imageRead ((claimed (mailed 16 0 0)).setReg 0x141 (mbxOff 16 + 8) 8) 16 = some (0x141, .malformed) := by decide +kernel
/-- Eleven islands of the Owner in use: a report of more than 1,024 bytes. -/
def wide (d : Dev) : Dev := { d with islands := (List.range 11).map (fun i => (i, { state := .loaded })) }
theorem witness_CoxCommands_wide : 1024 < (reportBody (wide (mailed 0 0 0)) 0 0).2 + 96
    ∧ mbxXlen (wide (mailed 0 0 0)) 0 < (reportBody (wide (mailed 0 0 0)) 0 0).2 + 96
    ∧ (reportBody (wide (mailed 0 0 0)) 0 0).2 + 96 ≤ mbxXlen (wide ((mailed 0 0 0).setReg 0x141 (mbxOff 0 + 0x10) 4096)) 0
    ∧ coxRefused (wide (mailed 0 0 0)) 0 8 2048 = some (0x141, .malformed)
    ∧ coxRefused (wide (mailed 0 0 0)) 0 (5 * 2 ^ 43) 2048 = none := by decide +kernel
theorem witness_CoxAssets : (ownerHash (claimed (mailed 0 0 0))).isSome ∧ (claimed (mailed 0 0 0)).wipes = []
    ∧ entryRefused (claimed (mailed 0 0 0)) 1 { version := 1, crew := 1 } = false ∧ entryOf (claimed (mailed 0 0 0)) 1 = none
    ∧ bufHas 0 (pay (1 + 2 ^ 512)) 132 [(128, 32, 1)]
    ∧ policy ((mailed 0 0 0).setReg 0x141 R.FUS_POLICY 128) 7 ∧ ownerIdle (mailed 0 0 0)
    ∧ fuseLock ((mailed 0 0 0).setReg 0x141 R.FUS_LOCK 2) 1 ∧ fuseLock (mailed 0 0 0) 1 = false
    ∧ entryOf ({ claimed (mailed 1 0 0) with tenants := [(1, {})] } : Dev) 1 = some {} ∧ rootHeld (claimed (mailed 1 0 0)) 1 = false
    ∧ ownerHash (mailed 16 (pay 3) 80) = none ∧ coxNum (mailed 16 (pay 3) 80) R.FUS_OWNER_HASH 12 = 0
    ∧ (mailed 16 0 0).catches = [] ∧ (mailed 16 0 0).load = none := by decide +kernel
/-- System engine e in run state 5, in the role `r`, with engine 9 a spare or not. -/
def lost (e r : Nat) (spare : Word) : Dev :=
  ((setRoledir (({} : Dev).setEng (512 + e) { run := 5 }) r (e + 2 ^ 31)).setReg (0x150 + e) R.SCL_SYS_ROLE (BitVec.ofNat 32 (r + 128))).setReg 0x159 R.SCL_SYS_ROLE spare
    |>.setFld 0x141 R.COX_STATUS 0 3 1
def spares (d : Dev) (on : Bool) : Dev := (List.range 16).foldl (fun (d : Dev) s => if on then d else d.clrReg (0x150 + s) R.SCL_SYS_ROLE 16) d
def served (k i : Nat) : Dev := ({} : Dev).setReg 0x141 R.COX_SVC_SEL (BitVec.ofNat 32 (k + 8 * i))
theorem witness_CoxEvents : ({} : Dev).load = none ∧ 7 ∉ ({} : Dev).wakeQueue ∧ ({} : Dev).catches = [] ∧ policy {} 6 = false
    ∧ policy (({} : Dev).setReg 0x141 R.FUS_POLICY 64) 6 ∧ [0, 15].all (fun e => !(lost e 3 0x10).flag (0x150 + e) R.SCL_SYS_ROLE 4)
    ∧ grantAt (granted 1 0 bare1) 5 = some bare1 ∧ grantAt (granted 1 0 bare1) 31 = none
    ∧ [0, 15].all (fun e => coxReady (lost e 3 0x10) && ((lost e 3 0x10).eng (512 + e)).run == 5 && (roleEngine (lost e 3 0x10) ((lost e 3 0x10).fld (0x150 + e) R.SCL_SYS_ROLE 0 4) == some e)
        && (freeSpare (lost e 3 0x10)).any (· != e) && (freeSpare (spares (lost e 3 0) false)).isNone && coxReady (spares (lost e 3 0) false))
    ∧ (({} : Dev).eng 512).run ≠ 5 ∧ admits {} cox 0x141 R.COX_SVC_CTL ∧ ({ svcTest := some (0, 0) } : Dev).svcTest.isSome
    ∧ [(0, 24575), (1, 12287), (2, 511), (3, 15), (4, 7)].all (fun u => svcUnit (served u.1 u.2) == some u && admits (served u.1 u.2) cox 0x141 R.COX_SVC_CTL)
    ∧ [(0, 24576), (1, 12288), (2, 512), (3, 16), (4, 8), (5, 0)].all (fun u => (svcUnit (served u.1 u.2)).isNone)
    ∧ [(0, 24575), (1, 12287), (2, 511)].all (fun u => svcMarks (served u.1 u.2) u && ((served u.1 u.2).isl (svcIsland u)).state = .idle)
    ∧ svcMarks (at7 { state := .running }) (0, 7 * 96) = false ∧ svcOut ((served 0 0).setBram 0 { outOfService := true }) (0, 0) ∧ svcOut (served 0 0) (0, 0) = false
    := by decide +kernel
def jtagged (ir : Nat) : Dev := { ({} : Dev) with jtag := { ({} : Jtag) with ir := ir } }
theorem witness_JtagPort : bscanActive (jtagged 4) ∧ bscanActive (jtagged 2) = false ∧ awaitsJtag {} = false
    ∧ bitsOf (BitVec.ofNat 64 (2 ^ 34 * 511 + 2 ^ 43)).toNat 34 9 = 256 + 255 ∧ (BitVec.ofNat 64 (2 ^ 34 * 511 + 2 ^ 43)).getLsbD 43
    ∧ bitsOf (BitVec.ofNat 64 (2 ^ 34 * 511 + 2 ^ 43)).toNat 44 20 = 0 ∧ bitsOf (BitVec.ofNat 64 (2 ^ 34 * 256)).toNat 34 9 = 256 + 0
    ∧ [0, 255].all (fun i => admits (jtagged 0x10) jtagReq 0x141 (mbxOff 16 + 0x400 + 4 * i)) ∧ (jtagged 2).jtag.ir ≠ 0x10
    ∧ wf (sect 2 1 16 false) 0 8 = 2 ∧ wf (sect 2 1 16 false) 32 32 = 16 ∧ (sect 2 1 16 false).getLsbD (64 + (loading (loadAt 3 false)).devId)
    ∧ ({ loadAt 3 false with source := 3 } : LoadSt).boxes = [] := by decide +kernel
/-- A session of grant 5 on path k with every right, and the port's address in island 7's data. -/
def porting (k : Nat) (rights : Nat) (addr : W64) : Dev :=
  { (({} : Dev).setReg64 0x143 (apCtl k + 8) addr).setReg 0x143 (apCtl k) 0x10 with
    grants := [(5, { bare1 with prin := 0, rights := rights, islands := BitVec.allOnes 256, granules := BitVec.allOnes 1024, sess := some k })],
    isets := [(0, 16, 1, 0)] }
def halted (b : Word) (cfg : Word) : Dev :=
  ((({} : Dev).setReg 0x143 (dbgArea R.DBG_HALT_STATUS 15) b).setReg 0x143 (dbgArea R.DBG_HALT_CFG 15) cfg).setEng 4 { run := if b = 0 then 1 else 4, byDebug := b ≠ 0 }
    |>.setReg 2 R.ISL_OWNER 15
theorem witness_DebugControl : [(0, 0x143, 31), (17, 0x140, 16)].all (fun p => admits (porting p.1 63 0x1000) ⟨p.2.1, p.2.2, 0⟩ 0x143 (apCtl p.1))
    ∧ [0, 17].all (fun k => (pathGrant (porting k 63 0x1000) k).any (fun g => apAllowed (porting k 63 0x1000) g.2 true false 0x1000
        && !apAllowed (porting k 0 0x1000) { g.2 with rights := 0 } true true 0x1000) && (pathGrant {} k).isNone && (porting k 63 0x1000).flag 0x143 (apCtl k) 4)
    ∧ (destOf (porting 0 63 0x1000) 0x1000).isSome ∧ (({} : Dev).setReg 0x143 (apCtl 0) 0).flag 0x143 (apCtl 0) 4 = false
    ∧ accBusy {} 7 = false ∧ accBusy (({} : Dev).setReg 7 R.DBG_ACC_STATUS 16) 7 ∧ admits {} cox 7 R.DBG_FF_SEL ∧ admits {} cox 7 R.DBG_FRAME_SEL
    ∧ isPass (regGate {} cox 7 R.DBG_FF_DATA) ∧ midStroke (run7 2) 7 ∧ midStroke (at7 { state := .feathered }) 7 = false ∧ stateServed (at7 { state := .feathered }) 7
    ∧ stateServed (at7 { state := .restoring }) 7 = false ∧ ((at7 { state := .feathered }).isl 7).state ≠ .idle ∧ admits {} cox 7 R.DBG_TRG_CTL
    ∧ admits (halted 0 2) { cox with tenant := 15 } 0x143 (dbgArea R.DBG_HALT_CTL 15) ∧ (halted 1 2).flag 0x143 (dbgArea R.DBG_HALT_STATUS 15) 0
    ∧ (halted 0 2).flag 0x143 (dbgArea R.DBG_HALT_CFG 15) 2 = false ∧ (halted 0 2).flag 0x143 (dbgArea R.DBG_HALT_CFG 15) 1
    ∧ engTenant (halted 0 2) 4 = 15 ∧ ((halted 0 2).eng 4).run = 1 ∧ ((halted 1 2).eng 4).byDebug ∧ (∀ p ∈ (halted 1 2).islands, p.2.featheredByHalt = false) := by
  decide +kernel

/-! ### The packet network -/

/-- The address of a control register of device 0. -/
def ctlAt (node off : Nat) : Nat := 0x3FFFFC000000 + 2 ^ 16 * node + off
/-- A packet from a node under tenant 0. -/
def pk (dest src cmd len : Nat) (addr : Nat) (rr : Bool) (l : List W128) : Pkt := ⟨mkHdr dest src cmd 0 len 0 0 0 0 0 rr addr, l, false⟩
/-- A request for ISL_CLK_LIMIT of island 7, or for what `a` names there, from island 3. -/
def regPk (cmd : Nat) (a : Nat) : Pkt := pk 7 3 cmd (if cmd = 1 ∨ cmd = 8 ∨ (9 ≤ cmd ∧ cmd ≤ 0xD) then 1 else 0) a true (if 8 ≤ cmd then [5] else [])
def codes : List Nat := [1, 2, 3, 4, 8, 9, 0xA, 0xB, 0xC, 0xD, 0x10, 0x11]
theorem witness_PacketChecks : codes.all (fun c => (regPk c 0).cmd == c && crcBad { regPk c 0 with hdr := (regPk c 0).hdr ^^^ BitVec.ofNat 128 (2 ^ 120) }
        && !crcBad (regPk c 0) && !wellFormed { regPk c 0 with poison := true })
    ∧ nodeKind 0x1FF = none ∧ nodeLost {} 7 = false ∧ (nodeKind 7).isSome ∧ ({} : Dev).flag 7 R.NOC_BAD_INFO 31 = false
    ∧ (wellFormed (regPk 4 (ctlAt 7 0x40)) ∧ implements 7 (regPk 4 (ctlAt 7 0x40)) ∧ inRange {} 7 (regPk 4 (ctlAt 7 0x40)))
    ∧ implements 0x150 (pk 0x150 3 0x10 1 (ctlAt 7 0x4080) true [5]) = false ∧ wellFormed (pk 0x150 3 0x10 1 (ctlAt 7 0x4080) true [5])
    ∧ knownCmd (pk 7 3 0x2F 0 0 true []).cmd = false ∧ nocStopped {} 7 = false ∧ nocStopped (({} : Dev).setReg 0x146 R.PWR_DEV_STATE 1) 7
    ∧ wellFormed (pk 7 0x141 0x14 1 0 false [5]) ∧ sourceOk 7 (pk 7 0x141 0x14 1 0 false [5]) = false
    ∧ wellFormed (pk 7 6 0x19 0 5 false []) ∧ implements 7 (pk 7 6 0x19 0 5 false []) ∧ inRange {} 7 (pk 7 6 0x19 0 5 false [])
    ∧ inRange {} 7 (regPk 4 (ctlAt 8 0x40)) = false ∧ (({} : Dev).setFld 7 (R.NOC_EPOCH_TAB + 0) 24 8 1).epochOf 7 3 ≠ (regPk 4 (ctlAt 7 0x40)).epoch
    ∧ ({} : Dev).epochOf 7 3 = (regPk 4 (ctlAt 7 0x40)).epoch
    ∧ ({ lostQuarters := [quarterOf 7] } : Dev).lost = false ∧ nodeLost ({ lostQuarters := [quarterOf 7] } : Dev) 7 := by decide +kernel
/-- A ring of island 7's memory 2: to the fabric (queue mode 2) or from it (3). -/
def ring7 (q : Nat) (b : Bram) : Dev := (at7 { state := .running, phase := 1 }).setBram (7 * 96 + 2) { b with cfg := BitVec.ofNat _ (2 + 4 * q) }
def ringPk (cmd : Nat) : Pkt := pk 7 3 cmd 1 (ctlAt 7 (0x4000 + 0x80)) true (if cmd = 0x10 then [9] else [])
def memPk (cmd : Nat) : Pkt := pk 0x100 3 cmd (if cmd = 1 ∨ cmd = 8 ∨ (9 ≤ cmd ∧ cmd ≤ 0xD) then 1 else 0) 0 true (if 8 ≤ cmd then [5] else [])
def memDev0 : Dev := { dram0 { state := 2 } with isets := [(0, 16, 1, 0)] }
/-- Internal packets of island 7 from their senders. -/
def inner (cmd src : Nat) : Pkt := pk 7 src cmd 0 0 true []
def outst7 : Outst := ⟨7, 0, 0, 4, 0, 1⟩
def rspPk : Pkt := pk 7 3 0x30 1 0 false [5]
theorem witness_PacketCommands : [4, 0xB, 0xC, 0xD, 1, 8].all (fun c => decide (Arrives {} (regPk c (ctlAt 7 0x40)) c))
    ∧ (∀ x ∈ touched (regPk 8 (ctlAt 7 0x40)), wordWaits {} 7 x true = false)
    ∧ (regPk 8 (ctlAt 7 0x40)).data = [5] ∧ (regPk 1 (ctlAt 7 0x40)).len = 1
    ∧ [1, 2, 3, 4, 8, 9, 0xA, 0xB, 0xC, 0xD].all (fun c => decide (Arrives memDev0 (memPk c) c) && (dramRefused memDev0 0 (memPk c)).isNone
        && (dramIn (tableFor memDev0 (memPk c)) (localAddr (memPk c).addr) == some (0, 0)))
    ∧ memDev0.flag 0x100 R.DDR_PART 0 = false ∧ (∀ z < 2, entriesUsed (memDev0.dram 0) z none < 256)
    := by decide +kernel
theorem witness_PacketCommands_rings : Arrives (ring7 2 {}) (ringPk 0x10) 0x10 ∧ ringGate (ring7 2 {}) 7 2 = none ∧ ((ring7 2 {}).bram (7 * 96 + 2)).toFabric ∧ (ringPk 0x10).data ≠ []
    ∧ controlOff (ringPk 0x10).addr % 0x10000 = 0x4000 + 0x40 * 2 ∧ (ringPk 0x10).tenant = (ring7 2 {}).owner 7
    ∧ heldEntries ((ring7 2 { level := 511 }).bram (7 * 96 + 2)) + 1 ≤ 512 ∧ 512 < heldEntries ((ring7 2 { level := 512 }).bram (7 * 96 + 2)) + 1
    ∧ Arrives (ring7 3 {}) (ringPk 0x11) 0x11 ∧ ((ring7 3 {}).bram (7 * 96 + 2)).fromFabric ∧ ((ring7 3 {}).bram (7 * 96 + 2)).ecc = false
    ∧ ((ring7 2 { pushes := [⟨1, 0, ringPk 0x10⟩], incoming := [9] }).bram (7 * 96 + 2)).isRing ∧ ((ring7 2 {}).isl 7).shadow = none ∧ isJoined (ring7 2 {}) 7 = false
    ∧ Arrives {} (pk 7 3 0x14 1 0 false [5]) 0x14 ∧ unitGate {} 7 0x37F0 = none ∧ (pk 7 3 0x14 1 0 false [5]).tenant = ({} : Dev).owner 7
    ∧ (pk 7 3 0x14 1 0 false [5]).tenant ≠ (({} : Dev).setReg 7 R.ISL_OWNER 4).owner 7 ∧ Arrives {} (pk 0x140 3 0x14 1 0 false [5]) 0x14
    := by decide +kernel
theorem witness_PacketCommands_paths : pathOpen (xi7 1) 7 ∧ Arrives (xi7 1) (pk 7 6 0x18 1 5 false [9]) 0x18 ∧ (xiCfg (xi7 1) 7 5).en ∧ (xiCfg (xi7 1) 7 5).peer = 0
    ∧ 5 / 32 % 65536 = ((xi7 1).xi 7 5).expect % 65536 ∧ ((xi7 1).xi 7 5).got + 1 ≤ (xiCfg (xi7 1) 7 5).count
    ∧ Arrives (xi7 1) (pk 7 6 0x19 0 5 false []) 0x19 ∧ (xoCfg (xi7 1) 7 5).en ∧ (xoCfg (xi7 1) 7 5).free = false ∧ ((xi7 1).isl 7).phase ≠ 3
    ∧ isRsp rspPk.cmd ∧ Arrives {} rspPk 0x30 ∧ outstOf ({ noc := { outst := [outst7] } } : Dev) rspPk = some outst7 ∧ outstOf {} rspPk = none
    := by decide +kernel
theorem witness_PacketCommands_inner : [(0x20, 0x142), (0x21, 0x164), (0x22, 0x164), (0x24, 0x160), (0x25, 0x160), (0x28, 0x141)].all (fun e =>
      decide (Arrives {} (inner e.1 e.2) e.1))
    ∧ drainWaits (at7 { shadow := some { shadow7 with part := 4 } }) 7 = false
    ∧ ((at7 { shadow := some { shadow7 with part := 4 } }).isl 7).shadow = some { shadow7 with part := 4 } ∧ shadow7.preserve = []
    ∧ ((at7 { state := .restoring }).isl 7).state = .restoring ∧ (({} : Dev).isl 7).state ≠ .restoring := by decide +kernel
def port7 : Dev := (at7 { state := .running, phase := 1, setup := { groupId := 1, nocPort := true, fabricRoute := true } })
theorem witness_NetworkFlow : standbyNow {} = false ∧ unitsFree {} 0x77 0 0 = 16 ∧ standbyNow (({} : Dev).setReg 0x146 R.PWR_DEV_STATE 1)
    ∧ unitsFree ({ noc := { waiting := [⟨0x77, 0, 1, false, pk 0x79 3 8 15 0 true (List.replicate 15 0)⟩] } } : Dev) 0x77 0 0 = 0
    ∧ mayEnter 0x77 0 (pk 0x79 3 4 0 0 true []) ∧ mayEnter 0x77 4 (pk 0x79 3 4 0 0 true []) = false ∧ mayEnter 3 4 (pk 0x79 3 4 0 0 true [])
    ∧ ({} : Dev).epochOf 0x77 3 = (pk 0x1FF 3 4 0 0 true []).epoch ∧ injectShut {} 0x3FF 0 = false ∧ nocStopped {} (regPk 4 0).dest = false
    ∧ injectShut (at7 { state := .evicting }) 7 0 ∧ nodeLost ({ lostQuarters := [0] } : Dev) 0 ∧ nodeLost {} 0x77 = false
    ∧ [(0x70, 0x77), (0x77, 0x77), (0x67, 0x77), (0x87, 0x77), (0x79, 0x77), (0x80, 0x77)].all (fun p => (exitOf (pk p.1 3 4 0 0 true [])).isSome && !crcBad (pk p.1 3 4 0 0 true []))
    ∧ exitOf (pk 0x87 3 4 0 0 true []) = some (7, 8, 4) ∧ exitOf (pk 0x1FF 3 4 0 0 true []) = none ∧ isRequest 4
    ∧ crcBad { regPk 4 0 with hdr := (regPk 4 0).hdr ^^^ BitVec.ofNat 128 (2 ^ 120) }
    ∧ ({ noc := { waiting := [⟨7, 0, 0, false, regPk 4 0⟩] } } : Dev).noc.waiting[0]? = some ⟨7, 0, 0, false, regPk 4 0⟩
    ∧ (5120 : Int) ≤ bucketOf {} 0x3FF 0 ∧ bucketOf ({ noc := { bucket := tput [] bucketFull (bucketKey 7 0) 0 } } : Dev) 7 0 < 5120
    ∧ ({ noc := { outst := [outst7] } } : Dev).noc.outst = [outst7] ∧ outst7.node < 256
    ∧ (nodeKind 0x167).isSome ∧ debugFrozen {} (statTenant {} 0x167 0) 1 = false ∧ nodeKind 0x3FF = none
    ∧ fabOn port7 7 ∧ (port7.isl 7).fab.inHdr = none ∧ fabReady port7 7 (regPk 4 (ctlAt 7 0x40)).hdr ∧ (destOf port7 (ctlAt 7 0x40)).isSome
    ∧ fabCmd 4 ∧ fabCmd 0x20 = false ∧ fabReady port7 7 (regPk 0x20 0).hdr ∧ fabReady ({ port7 with noc := { bucket := tput [] bucketFull (bucketKey 7 0) 0 } } : Dev) 7 (regPk 4 0).hdr = false
    ∧ midStroke (run7 2) 7 ∧ midStroke (at7 { state := .feathered, phase := 5, stateAccess := 1 }) 7 = false
    ∧ stateServed (at7 { state := .feathered, phase := 5, stateAccess := 1 }) 7 := by decide +kernel

/-! ### Host accesses through the BARs, and the clocks of joined islands -/

def bell (x : Chan) : Dev := hosting x
theorem witness_BarAccesses : bar0Port 0 (2 ^ 16 * 0x143 + 0x1000 + 0x100) ∧ bar0Port 0 (2 ^ 16 * 7) = false ∧ hifRoom {}
    ∧ (destOf {} (0x3FFFFC000000 + 2 ^ 16 * 7)).isSome ∧ blockShut (bell {}) 0 9 = false
    ∧ blockShut ({ bell {} with wipes := [{ wipe7 with blocks := [0], quiet := true }] } : Dev) 0 9 ∧ destOf {} 0 = none
    ∧ bar0Port 16 (2 ^ 26 - 4) = false ∧ ({ hifUses := [(1023, .bar0Read 0 5 28)] } : Dev).hifUses = [(1023, .bar0Read 0 5 28)]
    ∧ 4 ≤ bar2Size (hosting {}) 0 ∧ (bar2Addr {} 1 0).isNone ∧ bar2Addr {} 0 0 = some 0
    ∧ (bar2Addr (hosting {}) 0 0).any (fun a => (destOf (hosting {}) (a % 2 ^ 52)).isSome)
    ∧ bar2Writing (hosting {}) 0 = false ∧ bar2Writing ({ hifUses := [(1, .bar2Write 0 0)] } : Dev) 0
    ∧ [0, 16].all (fun f => admits {} cox 0x140 (fnArea f R.HIF_CREW_SEL)) ∧ chanFn (bell {}) 9 = some 0 ∧ chanFn {} 9 ≠ some 0
    ∧ ({} : Chan).sqSize = 16 ∧ 15 < ({} : Chan).sqSize ∧ ({} : Chan).sqSize ≤ 16 ∧ ({} : Chan).err.getLsbD 31 = false := by decide +kernel
/-- Island 7 with the fields of cluster (0, 0) that `v` sets, in a state, and of joined group 1 where asked. -/
def fabric7 (v : Nat) (st : IslState) (g : Bool) : Dev :=
  (at7 { state := st, setup := { groupId := if g then 1 else 0, gcMask := 1, fabricRoute := true } }).setFrame 7 0 { bits := BitVec.ofNat 4096 v }
/-- Pair 0 on its wire clock, with its SR mode; pin 11, its CK, hangs on a cell's output. -/
def wired (mode : Nat) : Dev := fabric7 (2 ^ 2657 + mode * 2 ^ 2661 + 2 ^ 3046) .running true
/-- Pair 0 on line 0, its SR mode and CE as given; pin 23, SR of the pair, reads a one that cell 5 makes. -/
def clocked (mode ce sr : Nat) : Dev := fabric7 (2 ^ 2656 + mode * 2 ^ 2661 + ce * 2 ^ 78 + sr * (2 ^ 3071 + (2 ^ 64 - 1) * 2 ^ 415)) .running false
def every : EdgeSet := { clocks := 1, rising := true, joined := true }
theorem witness_JoinedClocks : clockedIslands (wired 0) 1 = [7] ∧ unconfigured (wired 0) 7 = false ∧ clockedIslands {} 1 = []
    ∧ inIsland (({} : Dev).isl 7).state = false ∧ inIsland ((wired 0).isl 7).state ∧ nodeLost (wired 0) 7 = false
    ∧ pairFld (wired 1) 7 0 0 0 0 2 = 2 ∧ true = decide (pairFld (wired 1) 7 0 0 0 4 1 = 0) ∧ pairFld (wired 1) 7 0 0 0 5 2 ≠ 2
    ∧ pairFld (wired 0) 7 0 0 1 0 2 ≠ 2 ∧ false ≠ decide (pairFld (wired 1) 7 0 0 0 4 1 = 0)
    ∧ ((fun z : Slice => z.inUse && z.ckmode == 2) { cfg := BitVec.ofNat _ (2 * 2 ^ 13 + 2 ^ 17) })
    ∧ ckEdge (wired 1) (.pin 7 0 0 11) true ∧ ckEdge (fabric7 (2 ^ 2657) .running true) (.pin 7 0 0 11) true = false ∧ (wired 0).transients = []
    ∧ isJoined (wired 2) 7 ∧ pairFld (wired 2) 7 0 0 0 5 2 = 2 := by decide +kernel
theorem witness_FlipFlopNextValue : [0, 1, 2, 3].all (fun m => pairFld (clocked m 0 0) 7 0 0 0 0 2 == 1 && pairFld (clocked m 0 0) 7 0 0 0 5 2 == m)
    ∧ every.line (clocked 0 0 0) 7 0 0 (pairFld (clocked 0 0 0) 7 0 0 0 2 2) ∧ every.rising = decide (pairFld (clocked 0 0 0) 7 0 0 0 4 1 = 0)
    ∧ (netEval (clocked 1 0 1) pathFuel (.pin 7 0 0 23) = some true ∧ netEval (clocked 2 0 1) pathFuel (.pin 7 0 0 23) = some true)
    ∧ srNet (clocked 1 0 0) 7 0 0 0 = false
    ∧ cellFld (clocked 0 1 0) 7 0 0 0 78 1 = 1 ∧ ceNet (clocked 0 1 0) 7 0 0 0 = false := by decide +kernel
theorem witness_FlipFlopNextValue_sr : srNet (clocked 1 0 1) 7 0 0 0 ∧ srNet (clocked 2 0 1) 7 0 0 0 := by
  have h := witness_FlipFlopNextValue.2.2.2.1
  constructor
  · rw [srNet, Dev.net]; simp [h.1]
  · rw [srNet, Dev.net]; simp [h.2]

/-! ### The whole machine -/

theorem witness_IdleTick : State.reset.pending = [] ∧ State.reset.dev.catches = [] ∧ State.reset.dev.sealQ = [] ∧ State.reset.dev.sealOut = []
    ∧ State.reset.dev.islands = [] ∧ standbyNow {} = false
    ∧ ({ sealQ := [⟨0, 1, 0, 0x1000, [5], 0, 16, .log 7 0⟩] } : Dev).sealQ.map (fun j => (j.q, j.owner)) = [(0, 1)]
    ∧ ((at7 { setup := { fabricRoute := true } }).isl 7).setup.fabricRoute := by decide +kernel
theorem witness_LogBoundedKept : LogBounded State.reset := by unfold LogBounded; decide

/-! ### Worked examples and tables of the spec -/

/-- R177's table: ACC, R, P with osat = 1, P with osat = 0, SAT, at r = 4 and w = 8, signed. -/
theorem test_rounding : [(40, 2, 2, 2, false), (56, 4, 4, 4, false), (41, 3, 3, 3, false), (-40, -2, -2, -2, false), (-56, -4, -4, -4, false),
    (-41, -3, -3, -3, false), (2560, 160, 127, -96, true)].all (fun (e : Int × Int × Int × Int × Bool) =>
      roundAt e.1 4 == e.2.1 && narrow true true 8 e.2.1 == (e.2.2.1, e.2.2.2.2) && narrow true false 8 e.2.1 == (e.2.2.2.1, e.2.2.2.2)) := by decide
/-- The standard check value of CRC-32C, of the bytes of "123456789" from 0xFFFFFFFF with the result inverted. -/
theorem test_crc32c : ~~~crc32cUpd 0xFFFFFFFF [0x31, 0x32, 0x33, 0x34, 0x35, 0x36, 0x37, 0x38, 0x39] = 0xE3069283#32 := by decide +kernel
/-- The example of "Device Organisation": memory 37 of island 91, and its STK block at the 52-bit address from another device. -/
theorem test_addresses : ctlOff 91 (0x4000 + 0x40 * 37) = 0x005B4940 ∧ quarterOf 91 = 1 ∧ deviceOf 0x47FFFFC5B1000 = 17 ∧ inControl 0x47FFFFC5B1000
    ∧ controlOff 0x47FFFFC5B1000 = 0x005B1000 := by decide
/-- TL9's lanes attach to island 31. -/
theorem test_lane_island : laneIsland 9 = 31 := by decide
/-- The network chapter's example: from E0 of island 200 to D6 at an address with bit 11 clear, the packet leaves at router (12, 15). -/
theorem test_exit : exitOf ⟨mkHdr 0x106 200 1 0 1 0 0 0 0 0 true 0x1000, [], false⟩ = some (12, 15, 5) := by decide +kernel
/-- T[0] of cell 5 in cluster (row 40, column 17) is frame 1,935 bit 3,439; memory 37's first spin bit is frame 2,542 bit 2,944. -/
def oneBit (f b : Nat) : Dev := ({} : Dev).setFrame 7 f { bits := BitVec.ofNat 4096 (2 ^ b) }
theorem test_frame_bits : cellFld (oneBit 1935 3439) 7 40 17 5 0 1 = 1 ∧ bandBit (oneBit 2542 2944) 7 13 1760 := by decide +kernel
/-- R13's example: the low word read first latches the high word, so the pair is consistent though the count moves between the reads. -/
theorem test_latched : (regRead (regRead (at7 { count := 0xFFFFFFFF }) cox 7 R.STK_COUNT).1 cox 7 R.STK_COUNT).2.2 = 0xFFFFFFFF#32
    ∧ (regRead ((regRead (at7 { count := 0xFFFFFFFF }) cox 7 R.STK_COUNT).1.updIsl 7 (fun x => { x with count := x.count + 1 })) cox 7
        (R.STK_COUNT + 4)).2.2 = 0 := by decide +kernel
theorem witness_ProductExact : ({} : Slice).dual = false ∧ ({} : Slice).adSigned = false ∧ ({} : Slice).bsign = false := by decide

/-- The governor's example of R203: 100 W cap, f_close 800 MHz. -/
theorem test_governor_example : governorLimit 800 100000 118000 800 = 677 ∧ governorLimit 677 100000 101700 800 = 665
    ∧ governorLimit 665 100000 100110 800 = 664 ∧ governorLimit 664 100000 99980 800 = 664 := by decide

end Sys2Proof.Tests
end

section
/-! PROOFS. The next value of a flip-flop (R80): what an edge gives, row by row, and when the edge decides. -/

namespace Sys2Proof.Proofs

open Sys2Proof.Machine

variable {d : Dev} {i r c k f : Nat} {x : EdgeSet}

/-! ### The edge of a flip-flop -/

/-- A pair's synchronous SR is asserted. -/
def SyncSr (d : Dev) (i r c p : Nat) : Prop := pairFld d i r c p 5 2 = 1 ∧ srNet d i r c p = true

/-- A cell's CE is in use and deasserted. -/
def CeHolds (d : Dev) (i r c k : Nat) : Prop := cellFld d i r c k 78 1 = 1 ∧ ceNet d i r c k = false

theorem ffEdge_of_syncSr (h : SyncSr d i r c (k / 2)) : ffEdge d i r c k f = some (srval d i r c k f) := by
  obtain ⟨hmode, hnet⟩ := h
  simp [ffEdge, hmode, hnet]

theorem ffEdge_of_not_syncSr (h : ¬ SyncSr d i r c (k / 2)) :
    ffEdge d i r c k f = if cellFld d i r c k 78 1 = 1 && !ceNet d i r c k then none else some (ffData d i r c k f) := by
  rw [ffEdge, if_neg (by simpa [SyncSr] using h)]

theorem ffEdge_of_ceHolds (hs : ¬ SyncSr d i r c (k / 2)) (h : CeHolds d i r c k) : ffEdge d i r c k f = none := by
  obtain ⟨hused, hnet⟩ := h
  simp [ffEdge_of_not_syncSr hs, hused, hnet]

theorem ffEdge_of_data (hs : ¬ SyncSr d i r c (k / 2)) (h : ¬ CeHolds d i r c k) :
    ffEdge d i r c k f = some (ffData d i r c k f) := by
  rw [ffEdge_of_not_syncSr hs, if_neg (by simpa [CeHolds] using h)]

/-! ### The next value at a set of edges -/

/-- A pair's asynchronous SR prevails: asserted now in joined mode, sampled asserted in stroke mode (R81). -/
def AsyncSr (d : Dev) (i r c p : Nat) (x : EdgeSet) : Prop :=
  pairFld d i r c p 5 2 = 2 ∧ (if x.joined then srNet d i r c p else (d.isl i).srSet.contains ((r * 50 + c) * 16 + p)) = true

/-- The set of edges holds an active one for a pair clocked by a cluster clock line (R79): the polarity counts in joined mode only. -/
def ActiveEdge (d : Dev) (i r c p : Nat) (x : EdgeSet) : Prop :=
  pairFld d i r c p 0 2 = 1 ∧ x.line d i r c (pairFld d i r c p 2 2) = true
    ∧ (x.joined = true → x.rising = decide (pairFld d i r c p 4 1 = 0))

theorem ffNext_of_asyncSr (h : AsyncSr d i r c (k / 2) x) : ffNext d i r c k f x = some (srval d i r c k f) := by
  obtain ⟨hmode, hset⟩ := h
  simp only [ffNext, hmode, hset, decide_true, Bool.and_self, if_true]

theorem ffNext_of_activeEdge (ha : ¬ AsyncSr d i r c (k / 2) x) (h : ActiveEdge d i r c (k / 2) x) :
    ffNext d i r c k f x = ffEdge d i r c k f := by
  obtain ⟨hsrc, hline, hpol⟩ := h
  have hedge : (!x.joined || decide (x.rising = decide (pairFld d i r c (k / 2) 4 1 = 0))) = true := by
    cases hj : x.joined
    · rfl
    · simpa using hpol hj
  rw [ffNext, if_neg (by simpa only [AsyncSr, Bool.and_eq_true, decide_eq_true_eq] using ha), if_pos]
  simpa [hsrc, hline] using hedge

/-- Settles O52: an asserted asynchronous SR decides before the edge does, and then the edge's own rows follow in R80's order. -/
theorem flipFlopNextValue : Obligations.FlipFlopNextValue := by
  intro d i r c k f x p mode async sync held next hsrc hline hpol
  have hedge (ha : ¬ async) : next = ffEdge d i r c k f := ffNext_of_activeEdge ha ⟨hsrc, hline, hpol⟩
  refine ⟨fun ha => ffNext_of_asyncSr ha, fun ha hs => ?sync, fun ha hs hh => ?held, fun ha hs hh => ?data⟩
  case sync => exact (hedge ha).trans (ffEdge_of_syncSr hs)
  case held => exact (hedge ha).trans (ffEdge_of_ceHolds hs hh)
  case data => exact (hedge ha).trans (ffEdge_of_data hs hh)

end Sys2Proof.Proofs
end

section
/-! PROOFS. Exact values and their ranges: what a bit vector read as signed or unsigned holds, and when it fits. -/

namespace Sys2Proof.Proofs

open Sys2Proof.Machine

/-! ### The range of w bits -/

theorem fits_signed_iff {w : Nat} {v : Int} : fits true w v = true ↔ -2 ^ (w - 1) ≤ v ∧ v < 2 ^ (w - 1) := by
  simp only [fits, ↓reduceIte, Bool.and_eq_true, decide_eq_true_eq]

theorem fits_unsigned_iff {w : Nat} {v : Int} : fits false w v = true ↔ 0 ≤ v ∧ v < 2 ^ w := by
  simp only [fits, Bool.false_eq_true, ↓reduceIte, Bool.and_eq_true, decide_eq_true_eq]

/-- A bit vector, read either way, lies in the range of its width. -/
theorem fits_asInt {w : Nat} (sgn : Bool) (x : BitVec w) : fits sgn w (asInt sgn x) = true := by
  cases sgn
  case true => exact fits_signed_iff.mpr ⟨x.le_toInt, x.toInt_lt⟩
  case false => exact fits_unsigned_iff.mpr ⟨Int.natCast_nonneg _, Int.natCast_pow 2 w ▸ Int.ofNat_lt.mpr x.isLt⟩

/-- A value in the range of w bits is read back from them. -/
theorem asInt_ofInt_of_fits {w : Nat} {sgn : Bool} {v : Int} (hw : 0 < w) (h : fits sgn w v = true) :
    asInt sgn (BitVec.ofInt w v) = v := by
  cases sgn
  case true =>
    obtain ⟨hlo, hhi⟩ := fits_signed_iff.mp h
    exact BitVec.toInt_ofInt_eq_self hw hlo hhi
  case false =>
    obtain ⟨hlo, hhi⟩ := fits_unsigned_iff.mp h
    have hlt : v < (2 ^ w : Nat) := Int.natCast_pow 2 w ▸ hhi
    calc asInt false (BitVec.ofInt w v) = ((BitVec.ofInt w v).toNat : Int) := rfl
      _ = (v.toNat : Int) := by rw [BitVec.toNat_ofInt, Int.emod_eq_of_lt hlo hlt]
      _ = v := Int.toNat_of_nonneg hlo

/-- Writing a reading into wider bits extends it by its own kind: by sign where it is signed, by zero otherwise. -/
theorem ofInt_asInt {w : Nat} (n : Nat) (sgn : Bool) (x : BitVec w) :
    BitVec.ofInt n (asInt sgn x) = if sgn then x.signExtend n else x.setWidth n := by
  cases sgn
  case true => rfl
  case false => exact BitVec.ofNat_toNat n x

/-! ### Sums, differences and products -/

section

variable {sgn sx sy : Bool} {m n : Nat} {x y : Int}

theorem two_pow_eq_two_mul (hn : 0 < n) : (2 : Int) ^ n = 2 * 2 ^ (n - 1) := by
  rw [Int.mul_comm, ← Int.pow_succ, Nat.succ_eq_add_one, Nat.sub_add_cancel hn]

/-- One bit more doubles the range, either way. -/
theorem fits_add (hn : 0 < n) (hx : fits sgn n x = true) (hy : fits sgn n y = true) : fits sgn (n + 1) (x + y) = true := by
  cases sgn
  case true =>
    rw [fits_signed_iff] at hx hy ⊢
    rw [Nat.add_sub_cancel, two_pow_eq_two_mul hn]
    omega
  case false =>
    rw [fits_unsigned_iff] at hx hy ⊢
    rw [Int.pow_succ]
    omega

theorem fits_succ (hn : 0 < n) (hx : fits sgn n x = true) : fits sgn (n + 1) x = true := by
  have hzero : fits sgn n 0 = true := by
    have hpos (k : Nat) : (0 : Int) < 2 ^ k := Int.pow_pos (by decide)
    cases sgn
    case true => exact fits_signed_iff.mpr ⟨Int.neg_nonpos_of_nonneg (Int.le_of_lt (hpos _)), hpos _⟩
    case false => exact fits_unsigned_iff.mpr ⟨Int.le_refl 0, hpos _⟩
  exact Int.add_zero x ▸ fits_add hn hx hzero

theorem fits_sub (hn : 0 < n) (hx : fits sgn n x = true) (hy : fits sgn n y = true) : fits true (n + 1) (x - y) = true := by
  rw [fits_signed_iff, Nat.add_sub_cancel]
  cases sgn
  case true =>
    rw [fits_signed_iff] at hx hy
    rw [two_pow_eq_two_mul hn]
    omega
  case false =>
    rw [fits_unsigned_iff] at hx hy
    omega

theorem natAbs_le_of_fits_signed (hx : fits true n x = true) : x.natAbs ≤ 2 ^ (n - 1) := by
  rw [fits_signed_iff] at hx
  have hcast : ((2 ^ (n - 1) : Nat) : Int) = 2 ^ (n - 1) := Int.natCast_pow 2 (n - 1)
  omega

theorem natAbs_lt_of_fits (hn : 0 < n) (hx : fits sgn n x = true) : x.natAbs < 2 ^ n := by
  cases sgn
  case true => exact Nat.lt_of_le_of_lt (natAbs_le_of_fits_signed hx) (Nat.pow_lt_pow_right (by decide) (Nat.sub_one_lt_of_lt hn))
  case false =>
    rw [fits_unsigned_iff] at hx
    have hcast : ((2 ^ n : Nat) : Int) = 2 ^ n := Int.natCast_pow 2 n
    omega

theorem fits_signed_of_natAbs_lt (h : x.natAbs < 2 ^ (n - 1)) : fits true n x = true := by
  rw [fits_signed_iff]
  have hcast : ((2 ^ (n - 1) : Nat) : Int) = 2 ^ (n - 1) := Int.natCast_pow 2 (n - 1)
  omega

theorem fits_mul_of_signed (hm : 0 < m) (hn : 0 < n) (hx : fits true m x = true) (hy : fits sy n y = true) :
    fits true (m + n) (x * y) = true := by
  apply fits_signed_of_natAbs_lt
  calc (x * y).natAbs = x.natAbs * y.natAbs := Int.natAbs_mul x y
    _ ≤ 2 ^ (m - 1) * y.natAbs := Nat.mul_le_mul_right _ (natAbs_le_of_fits_signed hx)
    _ < 2 ^ (m - 1) * 2 ^ n := Nat.mul_lt_mul_of_pos_left (natAbs_lt_of_fits hn hy) (Nat.two_pow_pos _)
    _ = 2 ^ (m + n - 1) := by rw [← Nat.pow_add, Nat.sub_add_comm hm]

theorem fits_mul_of_unsigned (hx : fits false m x = true) (hy : fits false n y = true) :
    fits false (m + n) (x * y) = true := by
  obtain ⟨hx0, hxlt⟩ := fits_unsigned_iff.mp hx
  obtain ⟨hy0, hylt⟩ := fits_unsigned_iff.mp hy
  rw [fits_unsigned_iff, Int.pow_add]
  exact ⟨Int.mul_nonneg hx0 hy0, Int.mul_lt_mul' (Int.le_of_lt hxlt) hylt hy0 (Int.pow_pos (by decide))⟩

/-- A product fits the sum of its factors' widths, signed where either factor is. -/
theorem fits_mul (hm : 0 < m) (hn : 0 < n) (hx : fits sx m x = true) (hy : fits sy n y = true) :
    fits (sx || sy) (m + n) (x * y) = true := by
  match sx, sy with
  | true, _ => exact fits_mul_of_signed hm hn hx hy
  | false, true =>
    rw [Int.mul_comm, Nat.add_comm]
    exact fits_mul_of_signed hn hm hy hx
  | false, false => exact fits_mul_of_unsigned hx hy

end

end Sys2Proof.Proofs
end

section
/-! PROOFS. The product of an arithmetic slice in single mode (R166, R167). -/

namespace Sys2Proof.Proofs

open Sys2Proof.Machine

/-- R166: the pre-adder never overflows its 37 bits. -/
theorem fits_preAdd (s : Slice) (a d : BitVec 36) : fits s.adSigned 37 (preAdd s a d) = true := by
  have ha := fits_asInt s.asign a
  have hd := fits_asInt s.asign d
  unfold preAdd Slice.adSigned
  split
  case isTrue hadd =>
    have hsub : s.padd ≠ 2 := by omega
    rw [decide_eq_false hsub, Bool.or_false]
    exact fits_add (by decide) ha hd
  case isFalse =>
    split
    case isTrue hsub =>
      rw [decide_eq_true hsub, Bool.or_true]
      exact fits_sub (by decide) ha hd
    case isFalse hsub =>
      rw [decide_eq_false hsub, Bool.or_false]
      exact fits_succ (by decide) ha

theorem fits_exactProduct (s : Slice) (a b d : BitVec 36) :
    fits (s.adSigned || s.bsign) 73 (preAdd s a d * asInt s.bsign b) = true :=
  fits_mul (by decide) (by decide) (fits_preAdd s a d) (fits_asInt s.bsign b)

theorem product_of_single {s : Slice} (h : s.dual = false) (a b d : BitVec 36) :
    product s a b d = BitVec.ofInt 73 (preAdd s a d * asInt s.bsign b) := by
  simp only [product, h, Bool.false_eq_true, ↓reduceIte]

theorem mValue_of_single {s : Slice} (h : s.dual = false) (m : BitVec 73) (lane : Nat) :
    mValue s m lane = asInt (s.adSigned || s.bsign) m := by
  simp only [mValue, h, Bool.false_eq_true, ↓reduceIte]

/-- Settles O53: the factors of 37 and 36 bits keep the product within the 73 bits of M, which therefore hold it exactly. -/
theorem productExact : Obligations.ProductExact := by
  intro s a b d hsingle m exact signed
  have hfits : fits signed 73 exact = true := fits_exactProduct s a b d
  have hread : asInt signed m = exact := by
    rw [show m = BitVec.ofInt 73 exact from product_of_single hsingle a b d]
    exact asInt_ofInt_of_fits (by decide) hfits
  have hterm : mValue s m 0 = asInt signed m := mValue_of_single hsingle m 0
  refine ⟨hread, hterm.trans hread, fun hs => ?signed, fun hs => ?unsigned, ?accumulator⟩
  case signed => exact fits_signed_iff.mp (hs ▸ hfits)
  case unsigned => exact fits_unsigned_iff.mp (hs ▸ hfits)
  case accumulator => rw [hterm, ofInt_asInt]

end Sys2Proof.Proofs
end

section
/-! PROOFS. Redundant sign bits (R181): the count bit by bit, and the width it leaves to a signed value. -/

namespace Sys2Proof.Proofs

open Sys2Proof.Machine

variable {w : Nat}

/-! ### The count -/

/-- The count over the m lowest bits is the length of their longest run, from the top of them down, that equals the sign. -/
theorem rsb_go_eq_iff (v : BitVec w) (m n : Nat) :
    rsb.go v m = n ↔ n ≤ m ∧ (∀ k < n, v.getLsbD (m - 1 - k) = v.msb) ∧ (n = m ∨ v.getLsbD (m - 1 - n) ≠ v.msb) := by
  induction m generalizing n with
  | zero =>
    constructor
    · rintro rfl
      exact ⟨Nat.le_refl 0, fun k hk => absurd hk (Nat.not_lt_zero k), .inl rfl⟩
    · rintro ⟨hle, -, -⟩
      exact (Nat.le_zero.mp hle).symm
  | succ m ih =>
    by_cases htop : v.getLsbD m = v.msb
    case pos =>
      rw [rsb.go, if_pos htop]
      cases n with
      | zero =>
        have hne : 0 ≠ m + 1 := (Nat.succ_ne_zero m).symm
        exact ⟨fun h => absurd h (Nat.succ_ne_zero _), fun ⟨_, _, hstop⟩ => absurd htop (hstop.resolve_left hne)⟩
      | succ n =>
        rw [Nat.add_right_cancel_iff, ih, Nat.add_sub_cancel, Nat.forall_lt_succ_left, Nat.add_le_add_iff_right]
        simp only [Nat.add_right_cancel_iff, Nat.sub_zero, htop, true_and, Nat.sub_add_eq, Nat.sub_right_comm m _ 1]
    case neg =>
      rw [rsb.go, if_neg htop]
      constructor
      · rintro rfl
        exact ⟨Nat.zero_le _, fun k hk => absurd hk (Nat.not_lt_zero k), .inr htop⟩
      · rintro ⟨-, hrun, -⟩
        exact Nat.eq_zero_of_not_pos (fun hpos => htop (hrun 0 hpos)) |>.symm

theorem rsb_eq_iff (v : BitVec (w + 1)) (n : Nat) :
    rsb v = n ↔ n ≤ w ∧ (∀ k < n, v.getLsbD (w - 1 - k) = v.msb) ∧ (n = w ∨ v.getLsbD (w - 1 - n) ≠ v.msb) :=
  rsb_go_eq_iff v w n

theorem rsb_zero : rsb (0 : BitVec (w + 1)) = w :=
  (rsb_eq_iff 0 w).mpr ⟨Nat.le_refl w, fun _ _ => BitVec.getLsbD_zero.trans BitVec.msb_zero.symm, .inl rfl⟩

theorem rsb_allOnes : rsb (BitVec.allOnes (w + 1)) = w := by
  refine (rsb_eq_iff _ w).mpr ⟨Nat.le_refl w, fun k _ => ?_, .inl rfl⟩
  have hidx : w - 1 - k < w + 1 := by omega
  rw [BitVec.msb_allOnes w.succ_pos, BitVec.getLsbD_allOnes, decide_eq_true hidx]

/-! ### The width a signed value needs -/

theorem toNat_lt_two_pow_iff_getLsbD (v : BitVec w) (n : Nat) :
    v.toNat < 2 ^ n ↔ ∀ i, n ≤ i → v.getLsbD i = false :=
  ⟨fun h i hi => Nat.testBit_lt_two_pow (Nat.lt_of_lt_of_le h (Nat.pow_le_pow_right (by decide) hi)),
    fun h => Nat.lt_pow_two_of_testBit _ h⟩

theorem fits_toInt_iff_of_msb_false {v : BitVec w} (h : v.msb = false) (n : Nat) :
    fits true (n + 1) v.toInt = true ↔ ∀ i, n ≤ i → v.getLsbD i = false := by
  rw [fits_signed_iff, BitVec.toInt_eq_toNat_of_msb h, ← toNat_lt_two_pow_iff_getLsbD, Nat.add_sub_cancel]
  have hcast : ((2 ^ n : Nat) : Int) = 2 ^ n := Int.natCast_pow 2 n
  omega

theorem msb_not_of_msb_true {v : BitVec w} (h : v.msb = true) : (~~~v).msb = false := by
  rw [BitVec.msb_not, h, Bool.not_true, Bool.and_false]

theorem toInt_not_of_msb_true {v : BitVec w} (h : v.msb = true) : (~~~v).toInt = -v.toInt - 1 := by
  rw [BitVec.toInt_eq_toNat_of_msb (msb_not_of_msb_true h), BitVec.toInt_eq_msb_cond, if_pos h, BitVec.toNat_not]
  have := v.isLt
  omega

theorem fits_signed_neg_sub_one (n : Nat) (x : Int) : fits true n (-x - 1) = fits true n x := by
  rw [Bool.eq_iff_iff, fits_signed_iff, fits_signed_iff]
  omega

/-- A value fits n + 1 signed bits when every bit from n up equals its sign. -/
theorem fits_toInt_iff (v : BitVec w) (n : Nat) :
    fits true (n + 1) v.toInt = true ↔ ∀ i, n ≤ i → i < w → v.getLsbD i = v.msb := by
  cases h : v.msb
  case false =>
    rw [fits_toInt_iff_of_msb_false h]
    constructor
    · exact fun hall i hi _ => hall i hi
    · intro hall i hi
      by_cases hiw : i < w
      · exact hall i hi hiw
      · exact v.getLsbD_of_ge i (Nat.le_of_not_lt hiw)
  case true =>
    rw [← fits_signed_neg_sub_one, ← toInt_not_of_msb_true h, fits_toInt_iff_of_msb_false (msb_not_of_msb_true h)]
    simp only [BitVec.getLsbD_not, Bool.and_eq_false_imp, decide_eq_true_eq, Bool.not_eq_false']

/-- R181: a value needs the bits that its redundant sign bits leave, and no fewer. -/
theorem fits_width_sub_rsb (v : BitVec (w + 1)) :
    fits true (w + 1 - rsb v) v.toInt = true ∧ (rsb v < w → fits true (w - rsb v) v.toInt = false) := by
  obtain ⟨hle, hrun, hstop⟩ := (rsb_eq_iff v (rsb v)).mp rfl
  constructor
  · rw [Nat.sub_add_comm hle, fits_toInt_iff]
    intro i hi hiw
    rcases Nat.lt_succ_iff_lt_or_eq.mp hiw with hlt | rfl
    · have hidx : w - 1 - (w - 1 - i) = i := by omega
      exact hidx ▸ hrun (w - 1 - i) (by omega)
    · exact v.msb_eq_getLsbD_last.symm
  · intro hlt
    have hdiffers : v.getLsbD (w - 1 - rsb v) ≠ v.msb := hstop.resolve_left (Nat.ne_of_lt hlt)
    rw [show w - rsb v = w - 1 - rsb v + 1 by omega, Bool.eq_false_iff, Ne, fits_toInt_iff]
    exact fun hall => hdiffers (hall _ (Nat.le_refl _) (by omega))

/-- Settles O54: the count is the run of bits that equal the sign, and a value fits a width just when every bit above it does. -/
theorem redundantSignBits : Obligations.RedundantSignBits :=
  ⟨rsb_eq_iff (w := 127), rsb_eq_iff (w := 63), rsb_zero (w := 127), rsb_allOnes (w := 127),
    fits_width_sub_rsb (w := 127), fits_width_sub_rsb (w := 63)⟩

end Sys2Proof.Proofs
end

section
/-! PROOFS. A header's crc bit by bit (R330): the byte steps of the model are a shift register over the bits, and they read no bit of the crc
field. -/

namespace Sys2Proof.Proofs

open Sys2Proof.Machine

/-! ### Folds -/

theorem foldl_congr_of_mem {α β : Type} {f g : α → β → α} {a : α} {l : List β} (h : ∀ b ∈ l, ∀ x, f x b = g x b) :
    l.foldl f a = l.foldl g a :=
  List.foldl_rel (r := Eq) rfl fun b hb x _ hx => hx ▸ h b hb x

theorem foldl_eq_self {α β : Type} {f : α → β → α} {a : α} (h : ∀ b, f a b = a) (l : List β) : l.foldl f a = a := by
  induction l with
  | nil => rfl
  | cons b l ih => rw [List.foldl_cons, h, ih]

theorem foldl_range_mul {α : Type} (f : α → Nat → α) (a : α) (m n : Nat) :
    (List.range (n * m)).foldl f a = (List.range m).foldl (fun x k => (List.range n).foldl (fun y j => f y (n * k + j)) x) a := by
  induction m with
  | zero => rfl
  | succ m ih => rw [Nat.mul_succ, List.range_add, List.foldl_append, ih, List.range_succ, List.foldl_append, List.foldl_map]; rfl

/-! ### One bit and one byte of the crc -/

/-- The CRC-8 shift register takes one bit: it shifts left, and the polynomial x^8 + x^2 + x + 1 is added where the bit that leaves it
differs from the bit that comes in (R330). -/
def crcShift (c : Byte) (b : Bool) : Byte := (c <<< 1) ^^^ (if c.getLsbD 7 != b then 0x07#8 else 0)

theorem crcShift_xor (c x : Byte) (b : Bool) : crcShift (c ^^^ x) b = crcShift c (x.getLsbD 7 ^^ b) ^^^ (x <<< 1) := by
  have htop : ((c ^^^ x).getLsbD 7 != b) = (c.getLsbD 7 != (x.getLsbD 7 ^^ b)) := by
    rw [BitVec.getLsbD_xor]
    exact Bool.xor_assoc _ _ _
  rw [crcShift, crcShift, htop, BitVec.shiftLeft_xor_distrib, BitVec.xor_assoc, BitVec.xor_assoc, BitVec.xor_comm (x <<< 1)]

/-- The byte's bits reach the register's top one after another: j steps on the register with the byte added at once are j steps that take
the byte's j top bits, with the rest of the byte still added. -/
theorem foldl_crcShift_xor (c b : Byte) (j : Nat) (hj : j ≤ 8) :
    (List.range j).foldl (fun x _ => crcShift x false) (c ^^^ b)
      = (List.range j).foldl (fun x k => crcShift x (b.getLsbD (7 - k))) c ^^^ (b <<< j) := by
  induction j with
  | zero => simp only [List.range_zero, List.foldl_nil, BitVec.shiftLeft_zero]
  | succ j ih =>
    have htop : (b <<< j).getLsbD 7 = b.getLsbD (7 - j) := by
      rw [BitVec.getLsbD_shiftLeft, decide_eq_true (by decide : 7 < 8), decide_eq_false (by omega : ¬ 7 < j)]
      rfl
    rw [List.range_succ, List.foldl_append, List.foldl_append, ih (by omega), List.foldl_cons, List.foldl_nil, crcShift_xor, htop,
      Bool.xor_false, ← BitVec.shiftLeft_add]
    rfl

theorem crc8Byte_eq_foldl_crcShift (c b : Byte) :
    crc8Byte c b = (List.range 8).foldl (fun x k => crcShift x (b.getLsbD (7 - k))) c := by
  have hstep : (fun (x : Byte) (_ : Nat) => if x.getLsbD 7 then (x <<< 1) ^^^ 0x07#8 else x <<< 1) = fun x _ => crcShift x false := by
    funext x _
    rw [crcShift, Bool.bne_false]
    split
    · rfl
    · exact BitVec.xor_zero.symm
  have hgone : b <<< 8 = 0#8 := BitVec.shiftLeft_eq_zero (Nat.le_refl 8)
  rw [crc8Byte, hstep, foldl_crcShift_xor c b 8 (Nat.le_refl 8), hgone, BitVec.xor_zero]

/-! ### The crc of a header -/

/-- R330: the header's crc is the shift register run over bytes 0 to 14, each from its most significant bit. -/
theorem hdrCrc_eq_foldl_crcShift (h : W128) :
    hdrCrc h = (List.range 120).foldl (fun c b => crcShift c (h.getLsbD (8 * (b / 8) + 7 - b % 8))) 0 := by
  rw [show 120 = 8 * 15 from rfl, foldl_range_mul, hdrCrc]
  refine foldl_congr_of_mem fun k _ c => ?_
  rw [crc8Byte_eq_foldl_crcShift]
  refine foldl_congr_of_mem fun j hj x => ?_
  have hj : j < 8 := List.mem_range.mp hj
  have hbit : (h.extractLsb' (8 * k) 8).getLsbD (7 - j) = h.getLsbD (8 * ((8 * k + j) / 8) + 7 - (8 * k + j) % 8) := by
    rw [BitVec.getLsbD_extractLsb', decide_eq_true (by omega : 7 - j < 8), Bool.true_and]
    congr 1
    omega
  rw [hbit]

/-- The crc is computed over the 120 bits below its own field. -/
theorem hdrCrc_congr {h h' : W128} (heq : ∀ i < 120, h.getLsbD i = h'.getLsbD i) : hdrCrc h = hdrCrc h' := by
  rw [hdrCrc_eq_foldl_crcShift, hdrCrc_eq_foldl_crcShift]
  refine foldl_congr_of_mem fun b hb c => ?_
  have hb : b < 120 := List.mem_range.mp hb
  rw [heq _ (by omega)]

theorem hdrCrc_or_crcField (h : W128) (c : Byte) : hdrCrc (h ||| c.setWidth 128 <<< 120) = hdrCrc h := by
  refine hdrCrc_congr fun i hi => ?_
  simp only [BitVec.getLsbD_or, BitVec.getLsbD_shiftLeft, hi, decide_true, Bool.not_true, Bool.and_false, Bool.false_and, Bool.or_false]

theorem crcBad_iff (h : W128) (data : List W128) (poison : Bool) : crcBad ⟨h, data, poison⟩ = true ↔ h.extractLsb' 120 8 ≠ hdrCrc h := by
  rw [crcBad, decide_eq_true_iff, ne_comm, ← BitVec.toNat_ne_iff_ne, BitVec.extractLsb'_toNat]
  rfl

theorem hdrCrc_zero : hdrCrc 0 = 0 := by
  rw [hdrCrc_eq_foldl_crcShift]
  refine foldl_eq_self (fun b => ?_) _
  rw [show (0 : W128).getLsbD _ = false from BitVec.getLsbD_zero]
  rfl

end Sys2Proof.Proofs
end

section
/-! PROOFS. The fields of a header (R328, R329): a number packed from fields reads each of them back, and a header is such a number. -/

namespace Sys2Proof.Proofs

open Sys2Proof.Machine

/-! ### Packed fields -/

/-- A number packed from fields, each a width and a value, the first in its lowest bits. -/
def packFields : List (Nat × Nat) → Nat
  | [] => 0
  | (w, x) :: l => x % 2 ^ w + 2 ^ w * packFields l

/-- The bits that fields take together. -/
def fieldsWidth (l : List (Nat × Nat)) : Nat := (l.map Prod.fst).sum

theorem packFields_lt (l : List (Nat × Nat)) : packFields l < 2 ^ fieldsWidth l := by
  induction l with
  | nil => decide
  | cons a l ih =>
    obtain ⟨w, x⟩ := a
    have hx : x % 2 ^ w < 2 ^ w := Nat.mod_lt x (Nat.two_pow_pos w)
    calc x % 2 ^ w + 2 ^ w * packFields l
      _ < 2 ^ w * (packFields l + 1) := by rw [Nat.mul_succ]; omega
      _ ≤ 2 ^ w * 2 ^ fieldsWidth l := Nat.mul_le_mul_left _ ih
      _ = 2 ^ (w + fieldsWidth l) := (Nat.pow_add 2 w _).symm

theorem packFields_append (l r : List (Nat × Nat)) : packFields (l ++ r) = packFields l + 2 ^ fieldsWidth l * packFields r := by
  induction l with
  | nil => simp only [List.nil_append, packFields, fieldsWidth, List.map_nil, List.sum_nil, Nat.pow_zero, Nat.one_mul, Nat.zero_add]
  | cons a l ih =>
    obtain ⟨w, x⟩ := a
    simp only [List.cons_append, packFields, ih, fieldsWidth, List.map_cons, List.sum_cons, Nat.pow_add, Nat.mul_add, Nat.mul_assoc,
      Nat.add_assoc]

/-- A field read at its place, the width of the fields below it, is the value that was packed there. -/
theorem bitsOf_packFields {l : List (Nat × Nat)} {k w x : Nat} (hk : l[k]? = some (w, x)) :
    bitsOf (packFields l) (fieldsWidth (l.take k)) w = x % 2 ^ w := by
  induction l generalizing k with
  | nil => cases hk
  | cons a l ih =>
    cases k with
    | zero =>
      obtain rfl : a = (w, x) := Option.some.inj hk
      simp only [bitsOf, packFields, fieldsWidth, List.take_zero, List.map_nil, List.sum_nil, Nat.shiftRight_zero, Nat.add_mul_mod_self_left,
        Nat.mod_mod]
    | succ k =>
      obtain ⟨v, y⟩ := a
      have hskip : packFields ((v, y) :: l) >>> v = packFields l := by
        rw [packFields, Nat.shiftRight_eq_div_pow, Nat.add_mul_div_left _ _ (Nat.two_pow_pos v),
          Nat.div_eq_of_lt (Nat.mod_lt y (Nat.two_pow_pos v)), Nat.zero_add]
      have hread : bitsOf (packFields l) (fieldsWidth (l.take k)) w = x % 2 ^ w := ih hk
      rw [bitsOf] at hread
      rw [bitsOf, List.take_succ_cons, fieldsWidth, List.map_cons, List.sum_cons, Nat.shiftRight_add, hskip]
      exact hread

/-! ### A header -/

/-- A header from the fields below its crc: they are packed, and the crc over them stands on top. -/
def hdrOf (l : List (Nat × Nat)) : W128 :=
  BitVec.ofNat 128 (packFields l) ||| (hdrCrc (BitVec.ofNat 128 (packFields l))).setWidth 128 <<< 120

theorem toNat_or_crcField {h : W128} (hlow : h.toNat < 2 ^ 120) (c : Byte) :
    (h ||| c.setWidth 128 <<< 120).toNat = h.toNat + 2 ^ 120 * c.toNat := by
  have hfits : c.toNat <<< 120 < 2 ^ 128 := by
    rw [Nat.shiftLeft_eq]
    have := c.isLt
    omega
  rw [BitVec.toNat_or, BitVec.toNat_shiftLeft, BitVec.toNat_setWidth_of_le (by decide), Nat.mod_eq_of_lt hfits, Nat.or_comm,
    ← Nat.shiftLeft_add_eq_or_of_lt hlow, Nat.shiftLeft_eq, Nat.mul_comm, Nat.add_comm]

/-- The crc is a header's last field, and is the crc of the header that holds it. -/
theorem toNat_hdrOf {l : List (Nat × Nat)} (hl : fieldsWidth l = 120) :
    (hdrOf l).toNat = packFields (l ++ [(8, (hdrCrc (hdrOf l)).toNat)]) := by
  have hlow : packFields l < 2 ^ 120 := hl ▸ packFields_lt l
  have hbody : (BitVec.ofNat 128 (packFields l)).toNat = packFields l :=
    Nat.mod_eq_of_lt (Nat.lt_trans hlow (by decide : 2 ^ 120 < 2 ^ 128))
  rw [packFields_append, hl, hdrOf, hdrCrc_or_crcField, toNat_or_crcField (hbody.symm ▸ hlow), hbody]
  rw [packFields, BitVec.toNat_mod_cancel, packFields, Nat.mul_zero, Nat.add_zero]

/-- A header reads each of its fields back. -/
theorem bitsOf_hdrOf {l : List (Nat × Nat)} (hl : fieldsWidth l = 120) {k w x : Nat} (hk : l[k]? = some (w, x)) :
    bitsOf (hdrOf l).toNat (fieldsWidth (l.take k)) w = x % 2 ^ w := by
  obtain ⟨hlen, -⟩ := List.getElem?_eq_some_iff.mp hk
  have hread := bitsOf_packFields (l := l ++ [(8, (hdrCrc (hdrOf l)).toNat)]) ((List.getElem?_append_left hlen).trans hk)
  rwa [← toNat_hdrOf hl, List.take_append_of_le_length (Nat.le_of_lt hlen)] at hread

theorem crcBad_hdrOf {l : List (Nat × Nat)} (hl : fieldsWidth l = 120) (data : List W128) (poison : Bool) :
    crcBad ⟨hdrOf l, data, poison⟩ = false := by
  have hread := bitsOf_packFields (List.getElem?_concat_length (l := l) (a := (8, (hdrCrc (hdrOf l)).toNat)))
  rw [← toNat_hdrOf hl, List.take_left, hl, BitVec.toNat_mod_cancel] at hread
  rw [crcBad, decide_eq_false_iff_not, Decidable.not_not]
  exact hread.symm

/-- The fields below the crc in the order of R328, with the reserved bits [119:116] last. -/
def hdrFields (dest src cmd tag len prio tenant epoch route page : Nat) (rr : Bool) (addr : Nat) : List (Nat × Nat) :=
  [(10, dest), (10, src), (6, cmd), (10, tag), (8, len), (3, prio), (4, tenant), (8, epoch), (2, route), (2, page), (1, rr.toNat), (52, addr),
    (4, 0)]

/-- The widths of the fields below the crc in the order of R328, with the reserved bits last. -/
def hdrWidths : List Nat := [10, 10, 6, 10, 8, 3, 4, 8, 2, 2, 1, 52, 4]

theorem mkHdr_eq_hdrOf (dest src cmd tag len prio tenant epoch route page : Nat) (rr : Bool) (addr : Nat) :
    mkHdr dest src cmd tag len prio tenant epoch route page rr addr
      = hdrOf (hdrFields dest src cmd tag len prio tenant epoch route page rr addr) := by
  have hrr : (if rr then 1 else 0) = rr.toNat % 2 := by cases rr <;> rfl
  have hsum : packFields (hdrFields dest src cmd tag len prio tenant epoch route page rr addr)
      = dest % 1024 + (src % 1024) <<< 10 + (cmd % 64) <<< 20 + (tag % 1024) <<< 26 + (len % 256) <<< 36 + (prio % 8) <<< 44
        + (tenant % 16) <<< 47 + (epoch % 256) <<< 51 + (route % 4) <<< 59 + (page % 4) <<< 61 + (if rr then 1 else 0) <<< 63
        + (addr % 2 ^ 52) <<< 64 := by
    simp only [packFields, hdrFields, Nat.shiftLeft_eq, Nat.reducePow, hrr, Nat.zero_mod, Nat.mul_zero, Nat.add_zero, Nat.mul_add,
      ← Nat.mul_assoc, Nat.reduceMul]
    simp only [Nat.mul_comm, Nat.add_assoc]
  rw [hdrOf, hsum, mkHdr]

theorem fieldsWidth_eq_of_hdrWidths {l : List (Nat × Nat)} (hl : l.map Prod.fst = hdrWidths) : fieldsWidth l = 120 := by
  rw [fieldsWidth, hl]
  decide

/-- A packet's field read at its bits of R328. -/
theorem f_eq_of_hdrOf {p : Pkt} {l : List (Nat × Nat)} (hp : p.hdr = hdrOf l) (hl : l.map Prod.fst = hdrWidths) {k w x lo : Nat}
    (hk : l[k]? = some (w, x)) (hlo : (hdrWidths.take k).sum = lo) : p.f lo w = x % 2 ^ w := by
  rw [Pkt.f, hp, ← hlo, ← hl, ← List.map_take]
  exact bitsOf_hdrOf (fieldsWidth_eq_of_hdrWidths hl) hk

/-- A header's flag is its one-bit field. -/
theorem getLsbD_eq_of_bitsOf {h : W128} {i : Nat} {b : Bool} (hread : bitsOf h.toNat i 1 = b.toNat) : h.getLsbD i = b := by
  rw [← BitVec.testBit_toNat, Nat.testBit_eq_decide_div_mod_eq, ← Nat.shiftRight_eq_div_pow, ← Nat.pow_one 2]
  rw [bitsOf] at hread
  rw [hread]
  cases b <;> rfl

/-! ### The statement -/

/-- The all-zero header carries a valid crc (R330). -/
theorem crcBad_zero (data : List W128) (poison : Bool) : crcBad ⟨0, data, poison⟩ = false := by
  rw [← Bool.not_eq_true, crcBad_iff, hdrCrc_zero]
  decide

/-- The all-zero header's command 0x00 is reserved (R330). -/
theorem wellFormed_zero (data : List W128) (poison : Bool) : wellFormed ⟨0, data, poison⟩ = false := by
  have hcmd : Pkt.cmd ⟨0, data, poison⟩ = 0 := by
    simp only [Pkt.cmd, Pkt.f, bitsOf, BitVec.ofNat_eq_ofNat, BitVec.toNat_ofNat, Nat.zero_mod, Nat.zero_shiftRight]
  have hknown : knownCmd 0 = false := by decide
  simp only [wellFormed, hcmd, hknown, Bool.false_and]

/-- Settles O55: the crc is the shift register over bytes 0 to 14, and a header is its fields packed with that crc on top. -/
theorem packetHeaderFields : Obligations.PacketHeaderFields := by
  intro dest src tag cmd len epoch prio tenant route page rr addr data h p crc
  let l := hdrFields dest.toNat src.toNat cmd.toNat tag.toNat len.toNat prio.toNat tenant.toNat epoch.toNat route.toNat page.toNat rr addr.toNat
  have hl : l.map Prod.fst = hdrWidths := rfl
  have hp : p.hdr = hdrOf l := mkHdr_eq_hdrOf ..
  have hcrc : hdrCrc h = crc := hdrCrc_eq_foldl_crcShift h
  have hread (k : Nat) {w x lo : Nat} : l[k]? = some (w, x) → (hdrWidths.take k).sum = lo → p.f lo w = x % 2 ^ w := f_eq_of_hdrOf hp hl
  refine ⟨hcrc ▸ crcBad_iff h data false, crcBad_zero data false, wellFormed_zero data false,
    ?dest, ?src, ?cmd, ?tag, ?len, ?prio, ?tenant, ?epoch, ?route, ?page, ?rr, ?addr, ?rsvd, ?crc⟩
  case dest => exact (hread 0 rfl (by decide)).trans dest.toNat_mod_cancel
  case src => exact (hread 1 rfl (by decide)).trans src.toNat_mod_cancel
  case cmd => exact (hread 2 rfl (by decide)).trans cmd.toNat_mod_cancel
  case tag => exact (hread 3 rfl (by decide)).trans tag.toNat_mod_cancel
  case len => exact (hread 4 rfl (by decide)).trans len.toNat_mod_cancel
  case prio => exact (hread 5 rfl (by decide)).trans prio.toNat_mod_cancel
  case tenant => exact (hread 6 rfl (by decide)).trans tenant.toNat_mod_cancel
  case epoch => exact (hread 7 rfl (by decide)).trans epoch.toNat_mod_cancel
  case route => exact (hread 8 rfl (by decide)).trans route.toNat_mod_cancel
  case page => exact (hread 9 rfl (by decide)).trans page.toNat_mod_cancel
  case rr => exact getLsbD_eq_of_bitsOf ((hread 10 rfl (by decide)).trans (Nat.mod_eq_of_lt rr.toNat_lt))
  case addr => exact (hread 11 rfl (by decide)).trans addr.toNat_mod_cancel
  case rsvd => exact (hread 12 rfl (by decide)).trans (Nat.zero_mod _)
  case crc => exact (congrArg (fun h => crcBad ⟨h, data, false⟩) hp).trans (crcBad_hdrOf (fieldsWidth_eq_of_hdrWidths hl) data false)

end Sys2Proof.Proofs
end
